-- ==== Sys2Proof/Word.lean ====
section
/-!
DEFINITION. Word.lean: the word types of the KW25-M1 (spec/00_scope.md "Bits, fields and bytes", R5, R6).
-/

namespace Sys2Proof

/-- One byte. -/
abbrev Byte := BitVec 8
/-- A 16-bit field. -/
abbrev W16 := BitVec 16
/-- A 32-bit word: a counter, a handle, an FP32 value. -/
abbrev W32 := BitVec 32
/-- A 64-bit word: a word-store word, a tick count. -/
abbrev W64 := BitVec 64
/-- A message descriptor or header (Table 9.1) or a landing token (Table 8.5). -/
abbrev W128 := BitVec 128
/-- One scratchpad row of 512 bytes (R250). -/
abbrev Row := BitVec 4096
/-- 256 lanes of 32 bits: an accumulator-row or mask entry, a tile row, a 1 KiB stock chunk. -/
abbrev Vec := BitVec 8192
/-- A bundle of 512 bits (R202), also one stock descriptor. -/
abbrev Bundle := BitVec 512
/-- One 44-bit slot of a bundle (R202). -/
abbrev SlotWord := BitVec 44

end Sys2Proof
end

