-- ==== Sys2Proof/Syntax.lean ====
section
/-!
DEFINITION. Syntax.lean: the commands of the block, one constructor of Instr per row of spec/opcode_table.json, and the
operands they carry (log entries 1, 3, 4, 5 and 22).
-/

namespace Sys2Proof

/-- What the check bits of the memory word read show (R283, R284): nothing, a number of corrected words, an
uncorrectable error. -/
inductive SramErr where
  | ok
  | corrected (words : BitVec 7)
  | uncorrectable
  deriving DecidableEq, Repr

/-- The operands of a slot operation: the site and unit it executes in, the position and bundle-store address of its
bundle, the bundle's handle-rider bits [8:0] (Table 6.3), its 44-bit slot, and what a memory read finds. -/
structure SlotOp where
  site : Fin 25600
  unit : Fin 10
  pos : BitVec 64
  addr : BitVec 15
  rider : BitVec 9
  word : SlotWord
  err : SramErr
  deriving DecidableEq, Repr

/-- A mailbox request as the host leaves it in the mailbox (Table 14.4): the mailbox, REQ_FLAGS, REQ_TAG and the body;
REQ_LENGTH is the body's length (log entry 3). -/
structure Req where
  mb : Fin 32
  flags : W16
  tag : W64
  body : List Byte
  deriving DecidableEq, Repr

/-- Byte `o` of a request body, absent bytes reading as zero. -/
def Req.byte (q : Req) (o : Nat) : Nat := (q.body.getD o 0).toNat

/-- The path an SPDM request arrives by (R565). -/
inductive SpdmVia where
  | doe
  | mctp
  | attest (q : Req)
  deriving DecidableEq, Repr

/-- What Tirix measures for a telemetry rewrite (R592, Table 16.6). -/
structure TelemIn where
  inputMv : W32
  inputMa : W32
  loadW : W32
  inlet : W16
  outlet : W16
  auxMw : W32
  domainW : List W32
  deriving DecidableEq, Repr

/-- The conditions of Table 17.7 that fault a core or a router. -/
inductive CoreFault where
  | sram
  | broadcast
  | silent
  | stuckRouter
  deriving DecidableEq, Repr

/-- Why a port leaves UP (R392). -/
inductive PortLoss where
  | lock
  | failures
  | silence
  deriving DecidableEq, Repr

/-- What a received notice says (R372, R410 to R412, R416). -/
inductive NoticeIn where
  | linkState (module : Fin 4096) (up : BitVec 24)
  | gangEnd (module : Fin 4096) (gang : W16)
  | preempted (module : Fin 4096) (gang : W16)
  | resumed (module : Fin 4096) (gang : W16)
  | answer (cert signature : List Byte)
  | notReady
  deriving DecidableEq, Repr

/-- The commands of the block: one constructor per row of spec/opcode_table.json, in the table's order, those
without operands last. -/
inductive Instr where
  /-- Mailbox command that returns interface version, stepping, firmware version, serial and the bound session's kind and rights. -/
  | hello (q : Req)
  /-- Owner opens an ordinary or debug session on a mailbox with a rights mask, region mask and stock quota. -/
  | openSession (q : Req)
  /-- Stops the session's gangs, unloads its images, frees its stock and unbinds its mailbox. -/
  | closeSession (q : Req)
  /-- Write-once installation of the owner RSA-4096 key for the power-on. -/
  | installOwner (q : Req)
  /-- OWNER_PROVE phase 0 returns a fresh 32-byte nonce and invalidates any earlier one. -/
  | ownerProveNonce (q : Req)
  /-- OWNER_PROVE phase 1 verifies the signature over nonce and serial, consumes the nonce and on success binds the owner session on MB0. -/
  | ownerProveProof (q : Req)
  /-- Delivers a chunk of PUF helper data; the completing chunk starts key regeneration and makes the command long-running. -/
  | supplyPufHelper (q : Req)
  /-- Identity-key regeneration ends, completing SUPPLY_PUF_HELPER with DONE and IDENTITY_READY or with E_SIGNATURE. -/
  | pufRegenerationDone (mb : Fin 31) (digest : List Byte)
  /-- Delivers a chunk of the X.509 identity certificate; the completing chunk checks it and sets SERIAL, CERT_VALID and slot 0. -/
  | supplyIdentityCert (q : Req)
  /-- Returns a consistent snapshot of a byte range of the module descriptor with its DESC_GEN. -/
  | getDescriptor (q : Req)
  /-- Returns a consistent snapshot of a byte range of the topology table with its TOPO_GEN. -/
  | getTopology (q : Req)
  /-- Sets the write-once partition identifier with coordinates and dimensions, or changes only coordinates and dimensions. -/
  | setPartition (q : Req)
  /-- LINK_CONTROL operation 0 puts the named ports in DISABLED. -/
  | linkDisable (q : Req)
  /-- LINK_CONTROL operation 1 returns the named ports to training. -/
  | linkEnable (q : Req)
  /-- LINK_CONTROL operation 2 sends an identity-challenge nonce to the neighbours of the named ports, long-running. -/
  | linkChallenge (q : Req)
  /-- A challenge completes when every named port has answered, failed or been NOT_READY for 60 s, writing per-port results. -/
  | linkChallengeDone (mb : Fin 31)
  /-- LINK_CONTROL operation 3 requires or releases verified neighbours before ports carry message traffic. -/
  | requireVerified (q : Req)
  /-- LINK_CONTROL operation 4 installs or removes the trust-anchor digest used to verify neighbour certificates. -/
  | trustAnchor (q : Req)
  /-- Allocates wide or narrow, optionally pageable or fixed, stock pages to the session within its quota. -/
  | stockAlloc (q : Req)
  /-- Frees a range of the session's stock pages, deferring pages held by an outstanding transfer. -/
  | stockFree (q : Req)
  /-- Sets or clears entries of the session's host backing map used for pageable pages. -/
  | stockMapHost (q : Req)
  /-- Pins a range of pages, making each resident; long-running. -/
  | stockPin (q : Req)
  /-- Unpins a range of pages so they may be evicted. -/
  | stockUnpin (q : Req)
  /-- Completion of a STOCK_PIN once every page is resident, writing the completion record. -/
  | stockPinDone (mb : Fin 31)
  /-- Starts a progressive fill of stock from host memory or a repeated pattern through passed wheel periods. -/
  | stockFill (q : Req)
  /-- The fill ends at its length or at the first invalid or unwritable page, reporting DONE_BYTES. -/
  | stockFillDone (mb : Fin 31)
  /-- Stages a new memory wheel table to be applied at a committed mark. -/
  | wheelSet (q : Req)
  /-- Accepts a program image for copying into pinned stock; long-running. -/
  | programLoad (q : Req)
  /-- The image copy and its checks complete, yielding an image identifier or a refusal status. -/
  | programLoadDone (mb : Fin 31)
  /-- Stops the image's gangs, releases its placement and save area and frees its copy. -/
  | programUnload (q : Req)
  /-- Binds each part of a loaded image to a region and usable sites, assigns gang identifiers and allocates the save area. -/
  | gangPlace (q : Req)
  /-- GANG_PLACE with RELEASE frees a placement's regions, save area and gang identifiers. -/
  | gangPlaceRelease (q : Req)
  /-- Admits the parts under envelope and ceiling, loads sequencers, applies declarations and sets one run base. -/
  | gangStart (q : Req)
  /-- Stops issue, discards held and later bundles and ends every part with STOPPED. -/
  | gangStop (q : Req)
  /-- Marks every part's pre-emption pending, to be taken at the next PREEMPT_POINT; long-running. -/
  | gangPreempt (q : Req)
  /-- Restores a pre-empted gang's saved state on a placement and reissues its PREEMPT_POINT from the resume base; long-running. -/
  | gangResume (q : Req)
  /-- GANG_RESUME completes DONE when every part has issued its PREEMPT_POINT. -/
  | gangResumeDone (mb : Fin 31)
  /-- Returns a gang's state, flags, bases, position and optionally its stall report. -/
  | gangStatus (q : Req)
  /-- Returns a clamp word and its shadow record. -/
  | clampRead (q : Req)
  /-- Debug write of a clamp word's COUNT and state bits, releasing a monitor waiter as an external event. -/
  | clampSetWord (q : Req)
  /-- Debug discard of the oldest message of an inbox ring, counted in DEBUG_DROPS. -/
  | clampSetRing (q : Req)
  /-- Returns consecutive counter records of one class for cores, regions or ports. -/
  | countersRead (q : Req)
  /-- Configures trace capture of a WR tap or sequencer issue into a stock ring with a trigger. -/
  | traceConfig (q : Req)
  /-- Returns the digest ring header and one digest state record per part. -/
  | digestRead (q : Req)
  /-- Reads scratchpad rows, accumulator rows, words, drawer state or tile rows of a gang's core. -/
  | corePeek (q : Req)
  /-- Stages new step codes for named regions, subject to ceiling, admissibility and envelope. -/
  | stepStage (q : Req)
  /-- Stages named mode changes and commits all staged values at a named mark. -/
  | modeCommit (q : Req)
  /-- MODE_COMMIT with CHANGE.WITHDRAW discards every staged value and commits nothing. -/
  | modeCommitWithdraw (q : Req)
  /-- Raise-limited change of the load-power envelope. -/
  | envelopeSet (q : Req)
  /-- Raise-limited change of the step ceiling. -/
  | ceilingSet (q : Req)
  /-- Returns the telemetry record. -/
  | telemetryRead (q : Req)
  /-- Advances EV_CONSUMED, freeing event-ring slots and letting backlogged events be written. -/
  | eventAck (q : Req)
  /-- Returns change-log entries from a sequence number. -/
  | logRead (q : Req)
  /-- Raises a site's fence to router-only or full. -/
  | fenceCore (q : Req)
  /-- Leaves safe hold to the state at entry when no cause persists. -/
  | safeHoldClear (q : Req)
  /-- POLICY_SET item 0x01 sets one event's escalation level. -/
  | eventPolicy (q : Req)
  /-- POLICY_SET item 0x02 sets the progress-monitor mark count for a placement. -/
  | progressMarks (q : Req)
  /-- POLICY_SET item 0x03 sets SYNC_IO to OFF, MARK_OUT, MARK_IN or debug trigger. -/
  | syncIo (q : Req)
  /-- POLICY_SET item 0x04 enables or disables the BAR2 window and sets BAR2_BASE. -/
  | bar2Window (q : Req)
  /-- SPDM request over DOE, MCTP or ATTEST answered with the supported version. -/
  | getVersion (via : SpdmVia)
  /-- SPDM request answered with CERT_CAP, CHAL_CAP and signed MEAS_CAP. -/
  | getCapabilities (via : SpdmVia)
  /-- SPDM request answered with RSASSA-PSS 4096 and SHA-512 only. -/
  | negotiateAlgorithms (via : SpdmVia)
  /-- SPDM request returning the digest of certificate slot 0, empty until a certificate is accepted. -/
  | getDigests (via : SpdmVia)
  /-- SPDM request returning the identity certificate chain of slot 0. -/
  | getCertificate (via : SpdmVia) (offset : W16) (len : W16)
  /-- SPDM challenge signed with the identity key, or Busy while IDENTITY_READY is clear. -/
  | challenge (via : SpdmVia) (nonce : List Byte)
  /-- SPDM request returning the measurement blocks of Table 15.9, signed when requested. -/
  | getMeasurements (via : SpdmVia) (nonce : List Byte) (signed : Bool) (index : Byte)
  /-- Any other SPDM request is answered with ERROR UnsupportedRequest. -/
  | spdmUnsupportedRequest (via : SpdmVia)
  /-- MCTP Set Endpoint ID from the bus owner assigns the module's endpoint ID. -/
  | setEndpointId (eid : Byte)
  /-- Write to a register or mailbox field without behaviour of its own takes effect per its access code. -/
  | registerWrite (offset : BitVec 26) (bytes : List Byte)
  /-- Writing 0x0000_0001 to BOOT_GO in BOOT enters VERIFY and starts firmware verification. -/
  | bootGo (value : W32)
  /-- Host read through the BAR2 window of the owner session's stock, or zero when disabled or invalid. -/
  | bar2Read (offset : BitVec 36) (len : BitVec 12)
  /-- Host write through the BAR2 window, discarded when disabled, invalid or not writable. -/
  | bar2Write (offset : BitVec 36) (bytes : List Byte)
  /-- The sequencer checks and issues one bundle, evaluating its header operation and advancing the position counter. -/
  | bundleIssue (r : Fin 25) (err : SramErr)
  /-- Each core checks a bundle six cycles before execution and reports its ready cycle into the gang hold tree. -/
  | checkStage (r : Fin 25)
  /-- A held bundle executes at the latest ready cycle over all cores once every awaited condition is met. -/
  | gangHoldRelease (r : Fin 25)
  /-- A reserved queue entry or tile-row result becomes visible L cycles after its operation executed. -/
  | resultVisible (site : Fin 25600)
  /-- LOOP with SET loads a loop counter without branching. -/
  | loopSet (r : Fin 25) (scond : BitVec 4) (sarg : W32) (target : BitVec 15)
  /-- LOOP decrements a loop counter and branches to TARGET while it is non-zero. -/
  | loop (r : Fin 25) (scond : BitVec 4) (sarg : W32) (target : BitVec 15)
  /-- Branches on a gang-wide any, all or none reduction of a predicate, or always. -/
  | br (r : Fin 25) (scond : BitVec 4) (sarg : W32) (target : BitVec 15)
  /-- Ends the current kerf interval, holds until the target, and begins the next interval. -/
  | kerf (r : Fin 25) (scond : BitVec 4) (sarg : W32) (target : BitVec 15)
  /-- A gang held at a kerf end is released when the local view reaches the target, and the kerf base becomes the target. -/
  | kerfRelease (r : Fin 25) (energy : W32)
  /-- Acts as KERF and is the point at which a pending pre-emption is taken. -/
  | preemptPoint (r : Fin 25) (scond : BitVec 4) (sarg : W32) (target : BitVec 15)
  /-- Once every part is quiescent, the gang's state is saved to its save area and the gang becomes PREEMPTED. -/
  | preemptSave (g0 : W16)
  /-- Holds its bundle until the local view reaches the kerf base plus the offset. -/
  | launch (r : Fin 25) (scond : BitVec 4) (sarg : W32) (target : BitVec 15)
  /-- A bundle held for a launch is broadcast in the first cycle the view meets its target. -/
  | launchRelease (r : Fin 25)
  /-- A gang's first bundle is released when the region's local view reaches the run base. -/
  | gangFirstRelease (r : Fin 25)
  /-- Reserves descriptor-queue slots and transfers descriptor entries to the stock engine. -/
  | stock (r : Fin 25) (scond : BitVec 4) (sarg : W32) (target : BitVec 15)
  /-- Evaluates the curves of parameter groups against G and writes eta, beta and lambda to every core. -/
  | curve (r : Fin 25) (scond : BitVec 4) (sarg : W32) (target : BitVec 15)
  /-- Increments G by one or by SARG and writes it to word 0x7FC of every core. -/
  | step (r : Fin 25) (scond : BitVec 4) (sarg : W32) (target : BitVec 15)
  /-- Stops further issue; the gang ends with ENDED when all issued work completes. -/
  | endOp (r : Fin 25) (scond : BitVec 4) (sarg : W32) (target : BitVec 15)
  /-- A gang ends with a completion status once its issued bundles have executed or been discarded and operations completed. -/
  | gangEnd (r : Fin 25)
  /-- The ended gang's outstanding transfers and messages are settled and GANG_DONE is raised. -/
  | gangSettled (r : Fin 25)
  /-- Reads one scratchpad row by address or through a handle, with guards and checks, into a row queue. -/
  | rd (op : SlotOp)
  /-- Writes one row into plane rows of the shadow plane. -/
  | wload (op : SlotOp)
  /-- Writes one row into plane columns of the shadow plane. -/
  | wloadt (op : SlotOp)
  /-- Writes one row of MX block scales into the shadow plane. -/
  | wloadS (op : SlotOp)
  /-- The shadow plane becomes complete five cycles after the operation completing its load. -/
  | shadowComplete (site : Fin 25600)
  /-- Exchanges active and shadow planes. -/
  | wswap (op : SlotOp)
  /-- Multiplies input vectors against the active plane, producing exact slices rounded once to FP32. -/
  | mmul (op : SlotOp)
  /-- Adds a slice into an accumulator row with one rounding. -/
  | acc (op : SlotOp)
  /-- Replaces an accumulator row with a slice. -/
  | accz (op : SlotOp)
  /-- ACC with a DRAIN rider in the same AC operation. -/
  | accDrain (op : SlotOp)
  /-- ACC with a DRAINZ rider in the same AC operation. -/
  | accDrainz (op : SlotOp)
  /-- ACCZ with a DRAIN rider in the same AC operation. -/
  | acczDrain (op : SlotOp)
  /-- ACCZ with a DRAINZ rider in the same AC operation. -/
  | acczDrainz (op : SlotOp)
  /-- An accumulation writes its row 14/15 cycles after execution and decrements the in-flight counter. -/
  | accRowWritten (site : Fin 25600)
  /-- Pushes an accumulator row to an accumulator-row queue leaving it unchanged. -/
  | drain (op : SlotOp)
  /-- Pushes an accumulator row to a queue and zeroes it and its slice counter. -/
  | drainz (op : SlotOp)
  /-- Lane-wise addition in F32 or I32. -/
  | vadd (op : SlotOp)
  /-- Lane-wise subtraction in F32 or I32. -/
  | vsub (op : SlotOp)
  /-- Lane-wise multiplication in F32 or I32. -/
  | vmul (op : SlotOp)
  /-- Lane-wise fused multiply-add with one rounding. -/
  | vfma (op : SlotOp)
  /-- Lane-wise maximum. -/
  | vmax (op : SlotOp)
  /-- Lane-wise minimum. -/
  | vmin (op : SlotOp)
  /-- Lane-wise comparison writing a 0-or-1 mask. -/
  | vcmp (op : SlotOp)
  /-- Selects each lane from a or b by a mask. -/
  | vsel (op : SlotOp)
  /-- Converts lanes to the target format of its code, with saturation and rounding rules. -/
  | vcvt (op : SlotOp)
  /-- Converts lanes to MX8, MX6 or MX4 elements using a scale vector. -/
  | vcvtMx (op : SlotOp)
  /-- Correctly rounded 2^a. -/
  | vexp2 (op : SlotOp)
  /-- Correctly rounded log2 a. -/
  | vlog2 (op : SlotOp)
  /-- Correctly rounded reciprocal square root. -/
  | vrsq (op : SlotOp)
  /-- Correctly rounded reciprocal. -/
  | vrcp (op : SlotOp)
  /-- Correctly rounded tanh. -/
  | vtanh (op : SlotOp)
  /-- Correctly rounded logistic sigmoid. -/
  | vsig (op : SlotOp)
  /-- Inclusive or exclusive prefix sums with a chained carry. -/
  | vscan (op : SlotOp)
  /-- Segmented prefix sums by a segment-start mask with a chained carry. -/
  | vsegscan (op : SlotOp)
  /-- Finds the highest-ranking lane and its index, chained across rows. -/
  | vargmax (op : SlotOp)
  /-- Finds the lowest-ranking lane and its index, chained across rows. -/
  | vargmin (op : SlotOp)
  /-- One streaming-softmax row: running maximum and sum, exponentiated row and rescale factor. -/
  | vmaxr (op : SlotOp)
  /-- Packs lanes whose mask is true to the front and optionally pushes their count. -/
  | vcompact (op : SlotOp)
  /-- Rotates lanes by k. -/
  | vpermRot (op : SlotOp)
  /-- Reverses lane order. -/
  | vpermRev (op : SlotOp)
  /-- Exchanges lanes i and i xor 2^j. -/
  | vpermXchg (op : SlotOp)
  /-- Broadcasts lane j to every lane. -/
  | vpermBcast (op : SlotOp)
  /-- Interleaves halves of a and b. -/
  | vpermZip (op : SlotOp)
  /-- De-interleaves even or odd lanes of a and b. -/
  | vpermUnzip (op : SlotOp)
  /-- Shifts lanes up by k taking the top lanes of b. -/
  | vpermFunnel (op : SlotOp)
  /-- Shifts lanes down by k taking the bottom lanes of b. -/
  | vpermFunneld (op : SlotOp)
  /-- Pushes a chain register to a scalar queue. -/
  | vsrGet (op : SlotOp)
  /-- Loads a chain register from a scalar queue entry. -/
  | vsrPut (op : SlotOp)
  /-- Pushes the sum of 256 lanes to a scalar queue. -/
  | vsrSum (op : SlotOp)
  /-- Pushes the maximum of 256 lanes to a scalar queue. -/
  | vsrMax (op : SlotOp)
  /-- Pushes the minimum of 256 lanes to a scalar queue. -/
  | vsrMin (op : SlotOp)
  /-- Pops a row entry and writes it to scratchpad by address or handle, with guard, checks and digest. -/
  | wr (op : SlotOp)
  /-- Checks a message descriptor and enters a DATA message with row or slot payload in the transmit list. -/
  | send (op : SlotOp)
  /-- Checks and enters a header-only message carrying a 64-bit value in the transmit list. -/
  | dowel (op : SlotOp)
  /-- Places a request for an inbox ring's oldest undelivered message. -/
  | recv (op : SlotOp)
  /-- Checks a handle and opens a window tag-table entry onto its slot. -/
  | wopen (op : SlotOp)
  /-- Closes a window tag-table entry. -/
  | wclose (op : SlotOp)
  /-- Hands a gradient row and a parameter-slot handle to the update unit. -/
  | upd (op : SlotOp)
  /-- CSET sets a counter to an immediate. -/
  | csetCounter (op : SlotOp)
  /-- CSET sets a comparator's reference and relation. -/
  | csetComparator (op : SlotOp)
  /-- Adds a signed immediate to a counter modulo 2^32. -/
  | cinc (op : SlotOp)
  /-- CLOAD form 0 loads a counter from a scalar-queue entry. -/
  | cloadCounterFromQueue (op : SlotOp)
  /-- CLOAD form 1 loads a counter from a word-store word. -/
  | cloadCounterFromWord (op : SlotOp)
  /-- CLOAD form 2 loads P7 to P0 from a scalar-queue entry. -/
  | cloadPredicates (op : SlotOp)
  /-- CLOAD form 3 pushes a word to a scalar queue. -/
  | cloadPushWord (op : SlotOp)
  /-- CLOAD form 4 pushes a word as a handle, advancing a drawer cursor when it is one. -/
  | cloadPushHandle (op : SlotOp)
  /-- CLOAD form 5 pushes two words as a message descriptor to a network queue. -/
  | cloadPushDescriptor (op : SlotOp)
  /-- CLOAD form 6 writes a scalar-queue entry into a word. -/
  | cloadWriteWord (op : SlotOp)
  /-- CMP writes a predicate from a counter compared with a comparator. -/
  | cmpCounter (op : SlotOp)
  /-- CMP writes a predicate from the AND, OR or AND-NOT of two predicates. -/
  | cmpPredicate (op : SlotOp)
  /-- Waits until a clamp word's COUNT meets the relation, or FAULT or ABANDONED is set, writing a predicate. -/
  | waitwMonitor (op : SlotOp)
  /-- Writes a predicate with whether a clamp word meets the relation, never waiting. -/
  | waitwPoll (op : SlotOp)
  /-- Raises a clamp word's COUNT in the next cycle, refused past the maximum. -/
  | incw (op : SlotOp)
  /-- Lowers a clamp word's COUNT in the next cycle, refused below zero. -/
  | decw (op : SlotOp)
  /-- Consumes the oldest landing token with a handle's key, waiting until one arrives, and may drain the slot. -/
  | waitl (op : SlotOp)
  /-- The stock engine takes a descriptor in order, checks it and divides it into transfers. -/
  | descriptorTake (r : Fin 25)
  /-- A transfer obtains a free tag and issues its chunks to the interfaces. -/
  | transferIssue (r : Fin 25)
  /-- Each 16 ticks an interface starts one chunk for the wheel's region or passes the period on. -/
  | wheelPeriod (iface : Fin 256)
  /-- A 1 KiB chunk is read or written on an interface, with EDC retries. -/
  | chunkAccess (iface : Fin 256) (retries : Fin 3) (fail : Bool)
  /-- Tirix makes a non-resident page resident, evicting if needed, and releases held chunk requests. -/
  | pageService (session : W16) (page : BitVec 27)
  /-- A landed or window-delivered row is accepted by the landing port when its generation matches, raising FILL. -/
  | landingRow (site : Fin 25600) (parity : Bool)
  /-- The landing port serves up to three oldest waiting requests in banks free of program ports. -/
  | landingPortService (site : Fin 25600)
  /-- A STORE reads its rows through the landing port no earlier than its STOCK bundle's execution. -/
  | storeRowRead (r : Fin 25) (err : SramErr)
  /-- A descriptor's landing token is placed in a core's token buffer when all its rows have landed, waiting for room. -/
  | tokenPlaced (r : Fin 25)
  /-- A message leaves the transmit list in order, its slot payload rows read as flits form, then a SEND token placed. -/
  | messageTransmit (site : Fin 25600) (err : SramErr)
  /-- A router forwards a flit on its route by fixed priority when it holds a credit. -/
  | flitHop (site : Fin 25600) (out : Fin 5) (parity : Bool)
  /-- A flit crosses a region boundary through a spline, in order and without loss. -/
  | splineCross (site : Fin 25600) (out : Fin 5)
  /-- A header reaching the destination NI is matched to the tag table and delivered or discarded whole. -/
  | messageArrival (site : Fin 25600)
  /-- A message waiting in the receive buffer is placed in an inbox ring when room allows. -/
  | ringPlace (site : Fin 25600)
  /-- The NI pushes a ring message's header and rows to queues and advances the read offset. -/
  | recvService (site : Fin 25600) (err : SramErr)
  /-- The update unit applies the optimizer rule to one row, with lazy catch-up and narrow copy. -/
  | updateRow (site : Fin 25600) (err : SramErr)
  /-- A local narrow copy row is written as a landing once the copy slot's generation matches. -/
  | updateCopyWrite (site : Fin 25600)
  /-- The update unit sends a replica DATA message of narrow rows when the transmit list has room. -/
  | updateReplicaSend (site : Fin 25600)
  /-- After a message's rows are written, the unit adds its row count to clamp word ACKW. -/
  | updateAck (site : Fin 25600)
  /-- A region latches a staged change, acknowledging it. -/
  | changeAck (r : Fin 25)
  /-- A region applies a committed change at mark M, a kerf end or after its gang ends, setting its applied-mask bit. -/
  | modeApply (r : Fin 25)
  /-- A minimum gauge code at or below GAUGE_STRETCH stretches the next clock period. -/
  | shim (r : Fin 25) (gauge : BitVec 6)
  /-- At the mark after detection a region's step is forced down by a ceiling or envelope lowering. -/
  | emergencyStep (r : Fin 25)
  /-- A gang held without issue for PROGRESS_MARKS marks raises STALL once. -/
  | progressStall (r : Fin 25)
  /-- Every 16 marks Tirix rewrites the telemetry record and increments TELEM_GEN. -/
  | telemetryRewrite (x : TelemIn)
  /-- Every 1 µs junction sensors are sampled, feeding thermal warning, emergency and safe-hold detection. -/
  | sensorSample (r : Fin 25) (temps : List W16) (amps : W32)
  /-- Region rail current above 9,400 A for 10 µs is detected as an emergency cause. -/
  | overCurrent (r : Fin 25)
  /-- A region or module digest record is written to the digest ring and the header counts updated. -/
  | digestRecordWrite (r : Fin 25)
  /-- A core fault fences the site, stops its gang with CORE_FAILED and updates the fence map. -/
  | coreFault (site : Fin 25600) (cause : CoreFault)
  /-- Sixteen parity failures at one router input within a mark mark the far router as failed. -/
  | routerParityFailure (site : Fin 25600) (input : Fin 4)
  /-- A fully fenced router is removed after 64 idle cycles or 4,096 cycles. -/
  | routerRemove (site : Fin 25600)
  /-- A region's self-test ends and Tirix writes its fence-map entries and counts. -/
  | selfTestDone (r : Fin 25) (cores : BitVec 1024) (routers : BitVec 1024)
  /-- A stock device finishes training or fails and is retried once. -/
  | stockTrainingDone (dev : Fin 32) (passed : Bool)
  /-- A Decler port completes training, enters HELLO and sends its hello record. -/
  | portTrained (p : Fin 24)
  /-- A port not trained 4 s after LINK power-up goes to DOWN and retries every 4 s. -/
  | portTrainingTimeout (p : Fin 24)
  /-- A port resends its hello record on change and every 64 marks. -/
  | helloSend (p : Fin 24)
  /-- A received hello is checked; the port enters UP or ISOLATED. -/
  | helloReceived (p : Fin 24) (hrec : List Byte)
  /-- A port leaves UP on lost lock, eight failures of one flit or 10 µs without a valid flit. -/
  | portDown (p : Fin 24) (cause : PortLoss)
  /-- A Decler flit is accepted or discarded by CRC and sequence, triggering RETRY when out of order. -/
  | flitReceive (p : Fin 24) (flit : List Byte) (fec : Bool)
  /-- A received RETRY makes the sender resend sequenced flits in order from the named SEQ. -/
  | retry (p : Fin 24) (seq : BitVec 12)
  /-- A received MARK flit gives Tirix the neighbour's offset estimate for trim and alignment. -/
  | markFlit (p : Fin 24) (txStick : W64) (echoTx : W64) (echoRx : W64) (arrival : W64)
  /-- A received link-state, gang-end or pre-emption notice updates REACH or clamp words and is flooded on. -/
  | notice (p : Fin 24) (n : NoticeIn)
  /-- A neighbour's challenge nonce is answered with the certificate and signature, or NOT_READY. -/
  | challengeReceived (p : Fin 24) (nonce : List Byte) (serial : W64)
  /-- A port pending verification repeats its challenge every 1 s. -/
  | challengeRetry (p : Fin 24)
  /-- A REMOTE message taken from its gateway is assigned a line port by the port switch. -/
  | linkEgress (p : Fin 24) (link : Fin 4)
  /-- An intermediate module forwards a message cut-through toward its destination, or drops it with no route. -/
  | messageForward (p : Fin 24)
  /-- After its last flit is accepted, an arriving message is injected at its gateway link, or discarded if aborted. -/
  | ingressInject (p : Fin 24)
  /-- Tirix reads a plugged cable or module's CMIS identity and power class and adds it to the LINK charge. -/
  | plugInsert (p : Fin 24) (watts : BitVec 5)
  /-- Tirix puts a region with no gang and no route to SLEEP. -/
  | regionSleep (r : Fin 25)
  /-- A region asleep for 1 s is switched off. -/
  | regionOff (r : Fin 25)
  /-- A region finishes waking from SLEEP or OFF. -/
  | regionWake (r : Fin 25)
  /-- PWRGD_AUX asserted samples straps and starts the 1 ms reference measurement. -/
  | pwrgdAuxAssert (x8 : Bool) (smb : BitVec 2)
  /-- At the end of the 1 ms measurement the reference is selected and the module enters AUX with the stick at 0. -/
  | auxEntry (external : Bool)
  /-- The safe-hold controller stops clocks, issue, PCIe writes and links and puts stock in self-refresh. -/
  | safeHoldEntry (cause : Byte)
  /-- PERST_N resets only the PCIe host function, leaving module state intact. -/
  | perstN (asserted : Bool) (clockA : Bool) (clockB : Bool)
  /-- The narrow-page area of a trained stock edge finishes its set-up, about 0.5 s after the first edge is trained. -/
  | narrowPageAreaSetUp (east : Bool)
  /-- A request posted with a REQ_COMMAND outside Table 14.7 is answered with E_UNKNOWN_COMMAND and changes no state. -/
  | mailboxUnknownCommand (code : W16) (q : Req)
  /-- At each region cycle edge the local view advances by the view ratio up to the R43 cap, and a minimum gauge code between GAUGE_STRETCH and GAUGE_WARN counts a warning. -/
  | cycleEdge (r : Fin 25) (gauge : BitVec 6)
  /-- At each 50 MHz reference cycle the story-stick master advances by 45 ticks, and a region whose clock is stopped for a step change advances its view likewise. -/
  | referenceCycle (sync : Bool)
  /-- A BAR2 access that woke stock from STANDBY completes once MEMW and MEME have left self-refresh. -/
  | bar2AccessComplete
  /-- Every 1,024 reference cycles the mark generator applies trim, broadcasts stick, mark number and span, and resets local views. -/
  | mark
  /-- A rising SYNC_IO edge becomes a mark, is acquired, ignored and counted, or triggers a trace. -/
  | syncIoEdge
  /-- HEARTBEAT unchanged for 16 marks while Tirix runs enters safe hold cause 0x07. -/
  | heartbeatLost
  /-- 40 ms after AUX the ROM self-check completes and the module enters BOOT. -/
  | bootEntry
  /-- Firmware verification fails back to BOOT or succeeds and starts Tirix. -/
  | verifyDone
  /-- Tirix sets TIRIX_RUNNING and begins the bring-up tasks. -/
  | tirixRunning
  /-- With no gang and every region asleep or off the module enters STANDBY and stock self-refreshes. -/
  | standbyEntry
  /-- PWRGD_MAIN asserted allows the sequencer to power region, stock and link domains. -/
  | pwrgdMainAssert
  /-- PWRGD_MAIN low for 2 µs after its first assertion enters safe hold cause 0x04. -/
  | pwrgdMainDeassert
  /-- Main input below 350 V for 100 µs enters safe hold. -/
  | mainUndervoltage
  /-- Main input above 370 V starts pre-charge of the input capacitance at limited current. -/
  | precharge
  /-- FLOW_OK deasserted for 5 ms enters safe hold cause 0x03. -/
  | flowLoss
  /-- HOLD_IN_N asserted for 1 µs enters safe hold cause 0x01. -/
  | holdIn
  /-- The selected reference leaving its window or missing four edges enters safe hold. -/
  | referenceLost
  /-- An uncorrectable error in CTRL or AON memory enters safe hold cause 0x08. -/
  | ctrlMemoryUncorrectable
  /-- Auxiliary input removed or PWRGD_AUX deasserted takes the module to OFF. -/
  | auxPowerLoss
  /-- The FLOW_OK input is asserted again, updating PINS and starting the 1 s unbroken interval that clears cause 0x03. -/
  | flowOkAssert
  /-- HOLD_IN_N is deasserted, updating PINS and removing cause 0x01 so that SAFE_HOLD_CLEAR may succeed. -/
  | holdInRelease
  /-- The selected 50 MHz reference returns within its window, starting the 1 ms interval that clears cause 0x05. -/
  | referenceRestored
  deriving DecidableEq, Repr

end Sys2Proof
end

