-- ==== Sys2Proof/Decode.lean ====
section
/-!
DEFINITION. Decode.lean: the commands that a word spells by the bits of spec/opcode_table.json. That table gives no row any
bits (the block's commands are events, not encoded words), so no word spells one.
-/

namespace Sys2Proof

/-- The command a word spells: none, for the table gives no row bits. -/
def decodeTableWord (_nbits _w : Nat) : Option Instr := none

end Sys2Proof
end

