-- ==== Sys2Proof/Machine/Bits.lean ====
section
/-!
DEFINITION. Machine/Bits.lean: bit fields, little-endian byte lists, lanes and the counters of the records
(spec/00_scope.md R5, R6, R13; spec/02_story_stick.md R75).
-/

namespace Sys2Proof.Machine

open Sys2Proof

/-- The field `x[hi:lo]` as a number (R5). -/
def sel {n : Nat} (x : BitVec n) (hi lo : Nat) : Nat := (x.toNat >>> lo) % 2 ^ (hi + 1 - lo)

/-- Bit `i` of `x` (R5). -/
def bit {n : Nat} (x : BitVec n) (i : Nat) : Bool := x.getLsbD i

/-- A Boolean as the number 0 or 1. -/
def b2n (b : Bool) : Nat := if b then 1 else 0

/-- Field `v` placed at bit `lo`. -/
def at_ (v lo : Nat) : Nat := v <<< lo

/-- `x` with its field `[hi:lo]` replaced by `v` (R5). -/
def put {n : Nat} (x : BitVec n) (hi lo v : Nat) : BitVec n :=
  let w := hi + 1 - lo
  let m := ((2 ^ w - 1) <<< lo)
  BitVec.ofNat n ((x.toNat - (x.toNat &&& m)) + ((v % 2 ^ w) <<< lo))

/-- `v` as `k` bytes, least significant first (R6). -/
def le : Nat → Nat → List Byte
  | 0, _ => []
  | k + 1, v => BitVec.ofNat 8 v :: le k (v / 256)

/-- The number a little-endian byte list spells (R6). -/
def leNat : List Byte → Nat
  | [] => 0
  | b :: bs => b.toNat + 256 * leNat bs

/-- `k` zero bytes: a reserved run of a record (R7). -/
def zeros (k : Nat) : List Byte := List.replicate k 0

/-- The `k`-byte field at offset `o` of a byte list, bytes beyond the list reading as zero (R6). -/
def fld (bs : List Byte) (o k : Nat) : Nat := leNat ((bs.drop o).take k)

/-- `k` bytes at offset `o` of a byte list, padded with zeros. -/
def slice (bs : List Byte) (o k : Nat) : List Byte :=
  let t := (bs.drop o).take k
  t ++ zeros (k - t.length)

/-- The bytes of a word (R6). -/
def bytesOf {n : Nat} (x : BitVec n) (k : Nat) : List Byte := le k x.toNat

/-- The word a byte list spells (R6). -/
def wordOf (n : Nat) (bs : List Byte) : BitVec n := BitVec.ofNat n (leNat bs)

/-- Element `i` of width `w` of a wide word. -/
def elem {n : Nat} (w : Nat) (x : BitVec n) (i : Nat) : BitVec w := x.extractLsb' (w * i) w

/-- The wide word whose element `i` of width `w`, for `i` below `k`, is `f i`. -/
def packNat (w : Nat) (f : Nat → BitVec w) : Nat → Nat
  | 0 => 0
  | k + 1 => packNat w f k + ((f k).toNat <<< (w * k))

/-- 256 lanes of 32 bits built lane by lane (R156). -/
def vecOf (f : Nat → W32) : Vec := BitVec.ofNat 8192 (packNat 32 f 256)

/-- Lane `i` of a vector (R156). -/
def lane (v : Vec) (i : Nat) : W32 := elem 32 v i

/-- A 512-byte row built byte by byte (R250). -/
def rowOf (f : Nat → Byte) : Row := BitVec.ofNat 4096 (packNat 8 f 512)

/-- Byte `i` of a row. -/
def rbyte (r : Row) (i : Nat) : Byte := elem 8 r i

/-- The row of 128 words of 32 bits (R435). -/
def row32 (f : Nat → W32) : Row := BitVec.ofNat 4096 (packNat 32 f 128)

/-- Sign extension of an `n`-bit field to an integer. -/
def sext (n v : Nat) : Int := if v % 2 ^ n < 2 ^ (n - 1) then ((v % 2 ^ n : Nat) : Int) else ((v % 2 ^ n : Nat) : Int) - (2 ^ n : Nat)

/-- A 48-bit counter advanced by `k`: the count in bits [47:0], bit 63 set at the first wrap (R75). -/
def bump48 (c : W64) (k : Nat) : W64 :=
  let t := c.toNat % 2 ^ 48 + k
  BitVec.ofNat 64 (t % 2 ^ 48 + (if bit c 63 || t ≥ 2 ^ 48 then 2 ^ 63 else 0))

/-- A 32-bit counter advanced by `k`, wrapping with no flag (R75). -/
def bump32 (c : W32) (k : Nat) : W32 := c + BitVec.ofNat 32 k

/-- The larger of a 32-bit maximum and a number, saturating at 0xFFFF_FFFF. -/
def max32 (c : W32) (k : Nat) : W32 := BitVec.ofNat 32 (max c.toNat (min k (2 ^ 32 - 1)))

/-- Bit `i` of a sticky word set. -/
def sticky {n : Nat} (x : BitVec n) (i : Nat) : BitVec n := x ||| (BitVec.ofNat n (2 ^ i))

/-- A first-event word: the value is taken only while VALID, bit 31, is clear. -/
def firstOf (old new : W32) : W32 := if bit old 31 then old else new

end Sys2Proof.Machine
end

