-- ==== Sys2Proof/Machine/Crypto.lean ====
section
/-!
DEFINITION. Machine/Crypto.lean: SHA-512, RSASSA-PSS verification with SHA-512 and CRC-32, as the standards the spec names
define them (PRESUMED, log entry 13; spec/15_bringup.md R561 to R570; spec/10_decler_links.md R386, R410).
-/

namespace Sys2Proof.Machine

open Sys2Proof

/-! ### SHA-512 -/

/-- The round constants. -/
def shaK : List Nat :=
  [0x428A2F98D728AE22, 0x7137449123EF65CD, 0xB5C0FBCFEC4D3B2F, 0xE9B5DBA58189DBBC,
   0x3956C25BF348B538, 0x59F111F1B605D019, 0x923F82A4AF194F9B, 0xAB1C5ED5DA6D8118,
   0xD807AA98A3030242, 0x12835B0145706FBE, 0x243185BE4EE4B28C, 0x550C7DC3D5FFB4E2,
   0x72BE5D74F27B896F, 0x80DEB1FE3B1696B1, 0x9BDC06A725C71235, 0xC19BF174CF692694,
   0xE49B69C19EF14AD2, 0xEFBE4786384F25E3, 0x0FC19DC68B8CD5B5, 0x240CA1CC77AC9C65] ++
  [0x2DE92C6F592B0275, 0x4A7484AA6EA6E483, 0x5CB0A9DCBD41FBD4, 0x76F988DA831153B5,
   0x983E5152EE66DFAB, 0xA831C66D2DB43210, 0xB00327C898FB213F, 0xBF597FC7BEEF0EE4,
   0xC6E00BF33DA88FC2, 0xD5A79147930AA725, 0x06CA6351E003826F, 0x142929670A0E6E70,
   0x27B70A8546D22FFC, 0x2E1B21385C26C926, 0x4D2C6DFC5AC42AED, 0x53380D139D95B3DF,
   0x650A73548BAF63DE, 0x766A0ABB3C77B2A8, 0x81C2C92E47EDAEE6, 0x92722C851482353B] ++
  [0xA2BFE8A14CF10364, 0xA81A664BBC423001, 0xC24B8B70D0F89791, 0xC76C51A30654BE30,
   0xD192E819D6EF5218, 0xD69906245565A910, 0xF40E35855771202A, 0x106AA07032BBD1B8,
   0x19A4C116B8D2D0C8, 0x1E376C085141AB53, 0x2748774CDF8EEB99, 0x34B0BCB5E19B48A8,
   0x391C0CB3C5C95A63, 0x4ED8AA4AE3418ACB, 0x5B9CCA4F7763E373, 0x682E6FF3D6B2B8A3,
   0x748F82EE5DEFB2FC, 0x78A5636F43172F60, 0x84C87814A1F0AB72, 0x8CC702081A6439EC] ++
  [0x90BEFFFA23631E28, 0xA4506CEBDE82BDE9, 0xBEF9A3F7B2C67915, 0xC67178F2E372532B,
   0xCA273ECEEA26619C, 0xD186B8C721C0C207, 0xEADA7DD6CDE0EB1E, 0xF57D4F7FEE6ED178,
   0x06F067AA72176FBA, 0x0A637DC5A2C898A6, 0x113F9804BEF90DAE, 0x1B710B35131C471B,
   0x28DB77F523047D84, 0x32CAAB7B40C72493, 0x3C9EBE0A15C9BEBC, 0x431D67C49C100D4C,
   0x4CC5D4BECB3E42B6, 0x597F299CFC657E2A, 0x5FCB6FAB3AD6FAEC, 0x6C44198C4A475817]

/-- The initial hash value. -/
def shaH0 : List W64 := ([0x6A09E667F3BCC908, 0xBB67AE8584CAA73B, 0x3C6EF372FE94F82B, 0xA54FF53A5F1D36F1,
   0x510E527FADE682D1, 0x9B05688C2B3E6C1F, 0x1F83D9ABFB41BD6B, 0x5BE0CD19137E2179] : List Nat).map (BitVec.ofNat 64)

def ror (x : W64) (n : Nat) : W64 := (x >>> n) ||| (x <<< (64 - n))

/-- A big-endian number of a byte list. -/
def beNat (bs : List Byte) : Nat := bs.foldl (fun a b => a * 256 + b.toNat) 0

/-- `v` as `k` bytes, most significant first. -/
def be (k v : Nat) : List Byte := (le k v).reverse

/-- A message padded to whole blocks of 128 bytes. -/
def shaPad (m : List Byte) : List Byte :=
  let z := (239 - m.length % 128) % 128
  m ++ [0x80#8] ++ zeros z ++ be 16 (8 * m.length)

/-- The message schedule, oldest word first. -/
def shaExpand : Nat → List W64 → List W64
  | 0, w => w
  | n + 1, w =>
    let g (i : Nat) : W64 := w.getD (w.length - i) 0
    let a := g 15
    let b := g 2
    let s0 := ror a 1 ^^^ ror a 8 ^^^ (a >>> 7)
    let s1 := ror b 19 ^^^ ror b 61 ^^^ (b >>> 6)
    shaExpand n (w ++ [g 16 + s0 + g 7 + s1])

/-- One round. -/
def shaRound (h : List W64) (k : Nat × W64) : List W64 :=
  let g (i : Nat) : W64 := h.getD i 0
  let e := g 4
  let a := g 0
  let t1 := g 7 + (ror e 14 ^^^ ror e 18 ^^^ ror e 41) + ((e &&& g 5) ^^^ (~~~e &&& g 6)) + BitVec.ofNat 64 k.1 + k.2
  let t2 := (ror a 28 ^^^ ror a 34 ^^^ ror a 39) + ((a &&& g 1) ^^^ (a &&& g 2) ^^^ (g 1 &&& g 2))
  [t1 + t2, a, g 1, g 2, g 3 + t1, e, g 5, g 6]

/-- One block. -/
def shaBlock (h : List W64) (b : List Byte) : List W64 :=
  let w := shaExpand 64 ((List.range 16).map (fun i => BitVec.ofNat 64 (beNat ((b.drop (8 * i)).take 8))))
  let h' := (shaK.zip w).foldl shaRound h
  (h.zip h').map (fun x => x.1 + x.2)

def shaBlocks : Nat → List W64 → List Byte → List W64
  | 0, h, _ => h
  | n + 1, h, bs => shaBlocks n (shaBlock h (bs.take 128)) (bs.drop 128)

/-- SHA-512 of a byte list, 64 bytes. -/
def sha512 (m : List Byte) : List Byte :=
  let p := shaPad m
  (shaBlocks (p.length / 128) shaH0 p).flatMap (fun w => be 8 w.toNat)

/-- Bytes 0 to 7 of a message's SHA-512, as a 64-bit field holds them (Table 15.12). -/
def digestPrefix (m : List Byte) : Nat := fld (sha512 m) 0 8

/-! ### RSASSA-PSS with SHA-512, RSA-4096 -/

/-- `b^e mod n`, by the `k` low bits of the exponent. -/
def powMod (n : Nat) : Nat → Nat → Nat → Nat
  | 0, _, _ => 1 % n
  | k + 1, b, e =>
    let r := powMod n k (b * b % n) (e / 2)
    if e % 2 = 1 then r * b % n else r

/-- MGF1. -/
def mgf1 (seed : List Byte) (len : Nat) : List Byte :=
  ((List.range ((len + 63) / 64)).flatMap (fun i => sha512 (seed ++ be 4 i))).take len

/-- Whether an encoded message of 4,095 bits, with a salt of 64 bytes, is one of a message. -/
def pssOk (em msg : List Byte) : Bool :=
  let h := (em.drop 447).take 64
  let masked := em.take 447
  let db := (masked.zip (mgf1 h 447)).map (fun x => x.1 ^^^ x.2)
  let db := (db.take 1).map (fun b => b &&& 0x7F#8) ++ db.drop 1
  let salt := db.drop 383
  em.length == 512 && em.getLast? == some 0xBC#8 && (masked.take 1).all (fun b => decide (b.toNat < 128)) &&
    (db.take 382).all (· == 0) && db[382]? == some 1#8 && sha512 (zeros 8 ++ sha512 msg ++ salt) == h

/-- Whether a signature of 512 bytes over a message verifies under a public key; the signature is a big-endian string. -/
def pssVerify (exponent modulus : Nat) (msg sig : List Byte) : Bool :=
  let s := beNat sig
  sig.length == 512 && decide (s < modulus) && pssOk (be 512 (powMod modulus 32 s exponent)) msg

/-! ### CRC-32 (R386) -/

def crc32Bits : Nat → W32 → W32
  | 0, r => r
  | n + 1, r => crc32Bits n (if bit r 0 then (r >>> 1) ^^^ 0xEDB88320#32 else r >>> 1)

/-- The frame check sequence of IEEE 802.3. -/
def crc32 (bs : List Byte) : W32 :=
  (bs.foldl (fun r b => crc32Bits 8 (r ^^^ b.setWidth 32)) 0xFFFFFFFF#32) ^^^ 0xFFFFFFFF#32

end Sys2Proof.Machine
end

