-- ==== Sys2Proof/Machine/Float.lean ====
section
/-!
DEFINITION. Machine/Float.lean: exact values of the module's number formats, their rounding and their arithmetic
(spec/04_array.md R122, R127 to R129, the round_sr pseudocode; spec/05_vector.md R167, R173 to R175; spec/00_scope.md R14).
-/

namespace Sys2Proof.Machine

open Sys2Proof

/-- A value of a number format, held exactly: NaN, an infinity, or (−1)^neg · m · 2^e. -/
inductive Fv where
  | nan
  | inf (neg : Bool)
  | fin (neg : Bool) (m : Nat) (e : Int)
  deriving DecidableEq, Repr

/-- A rounding: to nearest-even, toward zero, or stochastic with 32 random bits (section "Stochastic rounding"). -/
inductive Rnd where
  | rne
  | tz
  | sr (r : Nat)
  deriving DecidableEq, Repr

/-- A narrow format: exponent bits, mantissa bits, bias. -/
structure Fmt where
  eb : Nat
  mb : Nat
  bias : Nat
  deriving DecidableEq, Repr

def fmtF32 : Fmt := ⟨8, 23, 127⟩
def fmtBF16 : Fmt := ⟨8, 7, 127⟩
def fmtE4M3 : Fmt := ⟨4, 3, 7⟩
def fmtE5M2 : Fmt := ⟨5, 2, 15⟩
def fmtE3M2 : Fmt := ⟨3, 2, 3⟩
def fmtE2M3 : Fmt := ⟨2, 3, 1⟩
def fmtE2M1 : Fmt := ⟨2, 1, 1⟩

/-- The exponent of a format's smallest subnormal. -/
def Fmt.qmin (f : Fmt) : Int := 1 - (f.bias : Int) - (f.mb : Int)

/-- The finite value of an encoding that is no special one; subnormals keep their values (R122). -/
def Fmt.decFin (f : Fmt) (x : Nat) : Fv :=
  let m := x % 2 ^ f.mb
  let e := (x >>> f.mb) % 2 ^ f.eb
  let s := (x >>> (f.mb + f.eb)) % 2 == 1
  if e = 0 then .fin s m f.qmin else .fin s (2 ^ f.mb + m) ((e : Int) - 1 + f.qmin)

/-- A format with infinities and NaN in its top exponent: FP32, BF16, E5M2. -/
def Fmt.decIeee (f : Fmt) (x : Nat) : Fv :=
  let m := x % 2 ^ f.mb
  let e := (x >>> f.mb) % 2 ^ f.eb
  let s := (x >>> (f.mb + f.eb)) % 2 == 1
  if e = 2 ^ f.eb - 1 then (if m = 0 then .inf s else .nan) else f.decFin x

def decF32 (w : W32) : Fv := fmtF32.decIeee w.toNat
def decBF16 (x : Nat) : Fv := fmtBF16.decIeee (x % 65536)
def decE5M2 (x : Nat) : Fv := fmtE5M2.decIeee (x % 256)
/-- E4M3 has NaN and no infinity (R122). -/
def decE4M3 (x : Nat) : Fv := if x % 128 = 127 then .nan else fmtE4M3.decFin (x % 256)
def decE3M2 (x : Nat) : Fv := fmtE3M2.decFin (x % 64)
def decE2M3 (x : Nat) : Fv := fmtE2M3.decFin (x % 64)
def decE2M1 (x : Nat) : Fv := fmtE2M1.decFin (x % 16)
/-- An E8M0 scale; 0xFF is NaN (R122). -/
def decE8M0 (x : Nat) : Fv := if x % 256 = 255 then .nan else .fin false 1 ((x % 256 : Nat) - 127)
/-- An integer as an exact value. -/
def ofIntV (z : Int) : Fv := .fin (z < 0) z.natAbs 0

/-- Number of bits of `n`. -/
def bitLen (n : Nat) : Nat := if n = 0 then 0 else n.log2 + 1

/-- `m · 2^e / 2^q` as an integer part, a fraction numerator and the fraction's denominator exponent. -/
def splitAt (m : Nat) (e q : Int) : Nat × Nat × Nat :=
  if e ≥ q then (m <<< (e - q).toNat, 0, 0)
  else let k := (q - e).toNat; (m >>> k, m % 2 ^ k, k)

/-- A positive magnitude rounded to precision `p` with smallest quantum `2^qmin`: `(n, q)` stands for `n · 2^q`. For a
negative value the stochastic fraction is measured from below, as round_sr states. -/
def roundMag (p : Nat) (qmin : Int) (r : Rnd) (neg : Bool) (m : Nat) (e : Int) : Nat × Int :=
  let q := max qmin (e + (bitLen m : Int) - (p : Int))
  let (n, fr, k) := splitAt m e q
  if fr = 0 then (n, q) else
  match r with
  | .tz => (n, q)
  | .rne =>
    let h := 2 ^ k
    if 2 * fr > h || (2 * fr = h && n % 2 = 1) then (n + 1, q) else (n, q)
  | .sr rb =>
    if neg then
      let t := ((2 ^ k - fr) <<< 32) >>> k
      if rb < t then (n, q) else (n + 1, q)
    else
      let t := (fr <<< 32) >>> k
      if rb < t then (n + 1, q) else (n, q)

/-- The magnitude bits of `n · 2^q` in a format; values above the format's range give larger numbers. -/
def Fmt.encMag (f : Fmt) (n : Nat) (q : Int) : Nat :=
  if n < 2 ^ f.mb then n else ((q - f.qmin + 1).toNat <<< f.mb) + (n - 2 ^ f.mb)

/-- The magnitude bits of an exact finite value rounded to a format. -/
def Fmt.roundBits (f : Fmt) (r : Rnd) (neg : Bool) (m : Nat) (e : Int) : Nat :=
  if m = 0 then 0 else
  let (n, q) := roundMag (f.mb + 1) f.qmin r neg m e
  f.encMag n q

/-- The canonical NaN (R130, R167). -/
def nan32 : W32 := 0x7FC00000#32

/-- An exact value rounded once to FP32; beyond the largest finite value it is the infinity of its sign. -/
def encF32 (r : Rnd) : Fv → W32
  | .nan => nan32
  | .inf s => if s then 0xFF800000#32 else 0x7F800000#32
  | .fin s m e =>
    let b := min (fmtF32.roundBits r s m e) 0x7F800000
    BitVec.ofNat 32 (b + (if s then 2 ^ 31 else 0))

/-- An exact value rounded once to bfloat16, non-saturating (half-width running sums, R136). -/
def encBF16 (r : Rnd) : Fv → Nat
  | .nan => 0x7FC0
  | .inf s => if s then 0xFF80 else 0x7F80
  | .fin s m e => min (fmtBF16.roundBits r s m e) 0x7F80 + (if s then 2 ^ 15 else 0)

def Fv.isNan : Fv → Bool
  | .nan => true
  | _ => false

def Fv.isInf : Fv → Bool
  | .inf _ => true
  | _ => false

def Fv.isFin : Fv → Bool
  | .fin _ _ _ => true
  | _ => false

def Fv.isZero : Fv → Bool
  | .fin _ m _ => m == 0
  | _ => false

def Fv.isNegZero : Fv → Bool
  | .fin s m _ => s && m == 0
  | _ => false

def Fv.neg : Fv → Fv
  | .nan => .nan
  | .inf s => .inf (!s)
  | .fin s m e => .fin (!s) m e

/-- The exact product; an infinity times zero is NaN. -/
def Fv.mul : Fv → Fv → Fv
  | .nan, _ => .nan
  | _, .nan => .nan
  | .inf s, .inf t => .inf (s ^^ t)
  | .inf s, .fin t m _ => if m = 0 then .nan else .inf (s ^^ t)
  | .fin s m _, .inf t => if m = 0 then .nan else .inf (s ^^ t)
  | .fin s m e, .fin t n f => .fin (s ^^ t) (m * n) (e + f)

/-- A finite value as an integer multiple of `2^q`, for `q` at or below its exponent. -/
def Fv.scaled (q : Int) : Fv → Int
  | .fin s m e => let v : Int := ((m <<< (e - q).toNat : Nat) : Int); if s then -v else v
  | _ => 0

def Fv.expo : Fv → Int
  | .fin _ m e => if m = 0 then 0 else e
  | _ => 0

/-- The exact sum of a list of terms, decided in the order of R129: NaN, opposed infinities, an infinity, zero (−0 only
when every term is −0), the exact value. -/
def sumExact (ts : List Fv) : Fv :=
  if ts.any Fv.isNan then .nan
  else if ts.any (· == .inf false) then (if ts.any (· == .inf true) then .nan else .inf false)
  else if ts.any (· == .inf true) then .inf true
  else
    let q : Int := ts.foldl (fun (a : Int) t => min a t.expo) 0
    let s : Int := ts.foldl (fun (a : Int) t => a + t.scaled q) 0
    if s = 0 then .fin (ts.all Fv.isNegZero && !ts.isEmpty) 0 0 else .fin (s < 0) s.natAbs q

/-- The order of two finite or infinite values; NaN compares with nothing. -/
def Fv.lt : Fv → Fv → Bool
  | .nan, _ => false
  | _, .nan => false
  | .inf s, .inf t => s && !t
  | .inf s, .fin _ _ _ => s
  | .fin _ _ _, .inf t => !t
  | .fin s m e, .fin t n f =>
    let q := min (if m = 0 then f else e) (if n = 0 then e else f)
    decide ((Fv.fin s m (max e q)).scaled q < (Fv.fin t n (max f q)).scaled q)

/-- Equality of values: −0 equals +0, NaN equals nothing. -/
def Fv.eqv (a b : Fv) : Bool := !a.isNan && !b.isNan && !a.lt b && !b.lt a

/-- FP32 arithmetic with one rounding to nearest-even (R167, R447). -/
def addF (a b : W32) : W32 := encF32 .rne (sumExact [decF32 a, decF32 b])
def subF (a b : W32) : W32 := encF32 .rne (sumExact [decF32 a, (decF32 b).neg])
def mulF (a b : W32) : W32 := encF32 .rne ((decF32 a).mul (decF32 b))
def fmaF (a b c : W32) : W32 := encF32 .rne (sumExact [(decF32 a).mul (decF32 b), decF32 c])
def sumF (ts : List W32) : W32 := encF32 .rne (sumExact (ts.map decF32))

/-- F32 maximum: NaN when either is NaN, −0 below +0 (R168). -/
def maxF (a b : W32) : W32 :=
  let x := decF32 a; let y := decF32 b
  if x.isNan || y.isNan then nan32
  else if x.lt y then b else if y.lt x then a else if x.isNegZero then b else a

/-- F32 minimum: NaN when either is NaN, −0 below +0 (R168). -/
def minF (a b : W32) : W32 :=
  let x := decF32 a; let y := decF32 b
  if x.isNan || y.isNan then nan32
  else if x.lt y then a else if y.lt x then b else if x.isNegZero then a else b

def isNanF (w : W32) : Bool := (decF32 w).isNan
def isInfF (w : W32) : Bool := (decF32 w).isInf
def isFinF (w : W32) : Bool := (decF32 w).isFin

/-- f32() of a natural number, to nearest-even (R457). -/
def f32OfNat (n : Nat) : W32 := encF32 .rne (.fin false n 0)

def one32 : W32 := 0x3F800000#32
def half32 : W32 := 0x3F000000#32

end Sys2Proof.Machine
end

