-- ==== Sys2Proof/Config.lean ====
section
/-!
DEFINITION. Config.lean: what one module fixes and the spec does not: the free values.
Each opaque constant has no body, so no statement can rest on a value of it (log entries 7, 9, 10, 11, 12).
-/

namespace Sys2Proof.Config

open Sys2Proof

/-- Undefined contents of a memory cell: `undefined w n k` is what cell `k` of a memory of width `w` holds after
the `n`-th event that leaves memory contents undefined (R285, R132, R324, R550; log entry 7). -/
opaque undefined (w n k : Nat) : BitVec w

/-- The `n`-th fresh nonce the module draws, as `len` bytes (R410, R509, R567, R570; log entry 10). -/
opaque nonce (n len : Nat) : List Byte

/-- The signature the identity key makes over a message (R562, R567, R568; log entry 11). -/
opaque identitySign (keySeed : List Byte) (msg : List Byte) : List Byte

/-- The bytes DSP0274 gives the module's `n`-th SPDM response message (R565; log entry 23). -/
opaque spdmMessage (n : Nat) : List Byte

/-- The bytes DSP0274 has the module sign at its `n`-th signed SPDM response (R567, R568; log entry 23). -/
opaque spdmTranscript (n : Nat) : List Byte

/-- Whether an X.509 certificate chain parses and holds the public key that matches the module's identity key
(R564; log entry 12). -/
opaque certMatches (keySeed : List Byte) (cert : List Byte) : Bool

/-- Whether a certificate is signed, directly or through its chain, up to the trust anchor with this digest
(R411, R564; log entry 12). -/
opaque certChains (anchor : List Byte) (cert : List Byte) : Bool

/-- The serial number a certificate carries (R563; log entry 12). -/
opaque certSerial (cert : List Byte) : BitVec 64

/-- Whether a signature over a message verifies under the public key of a certificate (R411; log entry 12). -/
opaque certVerifies (cert msg sig : List Byte) : Bool

/-- ROOT_DIGEST and ROM_MIN_SVN, fixed in the mask ROM of stepping B0 (`true`) or A1 (R547; log entry 38). -/
opaque rootDigest (b0 : Bool) : List Byte
opaque romMinSvn (b0 : Bool) : BitVec 16

/-- The flit buffers a Decler port's neighbour keeps for one link channel beyond the one without which no flit could pass, and
all of them (R400; log entry 33). -/
opaque moreLinkBuffers : Nat

def linkBuffers : Nat := moreLinkBuffers + 1

end Sys2Proof.Config
end

