-- ==== Sys2Proof/Machine/Tab.lean ====
section
/-!
DEFINITION. Machine/Tab.lean: the containers State is built from: sparse tables sorted by key, and memories in one
canonical form (log entry 7 says what an unlisted cell holds).
-/

namespace Sys2Proof.Machine

open Sys2Proof

/-- A sparse table: entries by strictly rising key. -/
abbrev Tab (α : Type) := List (Nat × α)

/-- The entry at a key, if any. -/
def Tab.find {α : Type} : Tab α → Nat → Option α
  | [], _ => none
  | (j, v) :: t, k => if j = k then some v else Tab.find t k

/-- The entry at a key, or a default. -/
def Tab.get {α : Type} (t : Tab α) (k : Nat) (d : α) : α := (Tab.find t k).getD d

/-- The table with the entry at `k` set to `v`, in order. -/
def Tab.set {α : Type} : Tab α → Nat → α → Tab α
  | [], k, v => [(k, v)]
  | (j, w) :: t, k, v => if k < j then (k, v) :: (j, w) :: t else if k = j then (k, v) :: t else (j, w) :: Tab.set t k v

/-- The table without the entry at `k`. -/
def Tab.erase {α : Type} (t : Tab α) (k : Nat) : Tab α := t.filter (fun p => p.1 != k)

/-- The entry at `k` changed by `f`, starting from the default. -/
def Tab.upd {α : Type} (t : Tab α) (k : Nat) (d : α) (f : α → α) : Tab α := Tab.set t k (f (Tab.get t k d))

/-- Every listed entry changed by `f`. -/
def Tab.mapVals {α : Type} (t : Tab α) (f : Nat → α → α) : Tab α := t.map (fun p => (p.1, f p.1 p.2))

/-- An element placed before the first one that it does not follow. -/
def insertBy {α : Type} (le : α → α → Bool) (a : α) : List α → List α
  | [] => [a]
  | b :: t => if le a b then a :: b :: t else b :: insertBy le a t

/-- A list in rising order, elements that compare equal keeping their order. -/
def sortBy {α : Type} (le : α → α → Bool) : List α → List α
  | [] => []
  | a :: t => insertBy le a (sortBy le t)

/-- The keys of a table rise strictly. -/
def Tab.sorted {α : Type} : Tab α → Bool
  | [] => true
  | [_] => true
  | (j, _) :: (k, v) :: t => decide (j < k) && Tab.sorted ((k, v) :: t)

/-- A memory of `w`-bit cells. `base = none`: an unlisted cell reads as zero. `base = some n`: it holds the undefined
contents of the `n`-th such event, a free value (log entry 7). -/
structure Mem (w : Nat) where
  base : Option Nat := none
  cells : Tab (BitVec w) := []
  deriving DecidableEq, Repr

/-- What an unlisted cell reads as. -/
def Mem.dflt {w : Nat} (m : Mem w) (k : Nat) : BitVec w :=
  match m.base with
  | none => 0
  | some n => Config.undefined w n k

/-- Reading one cell. -/
def Mem.get {w : Nat} (m : Mem w) (k : Nat) : BitVec w :=
  match Tab.find m.cells k with
  | some v => v
  | none => m.dflt k

/-- Writing one cell, keeping the canonical form: with zero as the unlisted value, a zero written is an entry removed. -/
def Mem.set {w : Nat} (m : Mem w) (k : Nat) (v : BitVec w) : Mem w :=
  if m.base = none ∧ v = 0 then { m with cells := Tab.erase m.cells k } else { m with cells := Tab.set m.cells k v }

/-- The canonical form: keys rising, and no listed zero where an unlisted cell reads as zero. -/
def Mem.wf {w : Nat} (m : Mem w) : Bool :=
  Tab.sorted m.cells && (m.base.isSome || m.cells.all (fun p => p.2 != 0))

/-- A memory of zeros. -/
def Mem.zero {w : Nat} : Mem w := { base := none, cells := [] }

/-- A memory of undefined contents. -/
def Mem.undef {w : Nat} (n : Nat) : Mem w := { base := some n, cells := [] }

end Sys2Proof.Machine
end

