-- ==== Sys2Proof/Machine/CoreState.lean ====
section
/-!
DEFINITION. Machine/CoreState.lean: everything one core holds (spec/03 to spec/05, spec/07, spec/09, spec/11, spec/13):
queues, counters, comparators, predicates, word store, array, accumulators, vector engines, scratchpad, NI, update unit,
digest and the counter records.
-/

namespace Sys2Proof.Machine

open Sys2Proof

/-- One queue entry in reservation order (R84, R85): its bits, its reservation's place (16 · cycle + slot), the cycle from
which it may be visible, and whether it is. -/
structure QEntry where
  data : Vec := 0
  res : Nat := 0
  due : Nat := 0
  vis : Bool := false
  deriving DecidableEq, Repr

/-- One queue: its entries, oldest first, and whether the executing cycle has popped the head (R86). -/
structure Queue where
  entries : List QEntry := []
  popped : Bool := false
  deriving DecidableEq, Repr

/-- A comparator: its reference and relation code (R92). -/
structure Cmp where
  ref : W32 := 0
  rel : Fin 6 := 0
  deriving DecidableEq, Repr

/-- Counters C0 to C7, comparators K0 to K3 and predicates P0 to P7 (R91 to R93). -/
structure CcRegs where
  ctr : Vector W32 8 := Vector.replicate 8 0
  cmp : Vector Cmp 4 := Vector.replicate 4 { ref := 0, rel := 0 }
  pred : BitVec 8 := 0
  deriving DecidableEq, Repr

/-- A word that a CURVE or STEP writes and that CC operations read from a position on (R224, R226). -/
structure FutureWord where
  word : Nat
  pos : Nat
  val : W64
  deriving DecidableEq, Repr

/-- The CC unit: register values by the position that wrote them, newest first (R95, R96), the word store, the clamp
words' shadow records (Table 9.8), and the values of SR_SEED by the position from which each is read (R139). -/
structure CcState where
  hist : List (Nat × CcRegs) := []
  seed : List (Nat × W64) := []
  words : Mem 64 := Mem.zero
  shadow : Mem 128 := Mem.zero
  future : List FutureWord := []
  deriving DecidableEq, Repr

/-- One plane of the array (R112): the format it was loaded in (Table 6.4, 0 when not loaded in this gang), whether
WLOADT loaded it, its rows by load index, and its four scale parts (R115). -/
structure Plane where
  fmt : Nat := 0
  trans : Bool := false
  rows : Mem 4096 := Mem.zero
  scales : Mem 4096 := Mem.zero
  deriving DecidableEq, Repr

/-- A plane load in progress (R116): its format, its orientation once set, the indices and scale parts written. -/
structure PlaneLoad where
  fmt : Nat
  trans : Option Bool
  idx : BitVec 256
  parts : BitVec 4
  deriving DecidableEq, Repr

/-- The slices an MMUL leaves for the AC slot of its bundle (R133): one or two lists of 256 exact columns. -/
structure SliceLatch where
  cols : List (List Fv)
  bf16 : Bool
  deriving DecidableEq, Repr

/-- An accumulation under way (R136, R137). -/
structure PendAcc where
  due : Nat
  row : Nat
  vals : Vec
  replace : Bool
  sumSr : Bool
  seed : W64
  slice : W32
  deriving DecidableEq, Repr

/-- The core array record's counters (Table 4.6). -/
structure ArrayRec where
  slices : W64 := 0
  planeSwaps : W64 := 0
  planeRestarts : W64 := 0
  nonfiniteSlices : W64 := 0
  overflowSums : W64 := 0
  nanSums : W64 := 0
  slicesDiscarded : W64 := 0
  formatMismatches : W64 := 0
  sticky : W32 := 0
  firstNonfinite : W32 := 0
  deriving DecidableEq, Repr

/-- The matrix array and the accumulators (spec/04). -/
structure ArrayState where
  plane0 : Plane := {}
  plane1 : Plane := {}
  active : Bool := false
  swapCycle : Option Nat := none
  load : Option PlaneLoad := none
  complete : Bool := true
  completeDue : Option Nat := none
  latch : Option SliceLatch := none
  acc : Mem 8192 := Mem.zero
  sliceCnt : Mem 32 := Mem.zero
  inflight : Tab Nat := []
  pend : List PendAcc := []
  cnt : ArrayRec := {}
  deriving DecidableEq, Repr

/-- A tile-row result not yet visible (R158, R159). -/
structure PendTile where
  due : Nat
  img : Nat
  exec : Nat
  key : Nat
  val : Vec
  deriving DecidableEq, Repr

/-- One vector engine (spec/05): tile rows keyed 64·t + r, chain registers, pack buffer, conversion counter. -/
structure VEng where
  tiles : Mem 8192 := Mem.zero
  pend : List PendTile := []
  chain : Vector W64 4 := Vector.replicate 4 0
  pack : BitVec 2048 := 0
  cvt : W32 := 0
  deriving DecidableEq, Repr

/-- The core vector record's counters (Table 5.9). -/
structure VecRec where
  v0Ops : W64 := 0
  v1Ops : W64 := 0
  nanResults : W64 := 0
  infResults : W64 := 0
  cvtSaturations : W64 := 0
  intWraps : W64 := 0
  intSaturations : W64 := 0
  sticky : W32 := 0
  firstNan : W32 := 0
  deriving DecidableEq, Repr

/-- One drawer slot's guard state (R260). -/
structure SlotSt where
  gen : W16 := 0
  reads : W16 := 0
  fill : Nat := 0
  written : BitVec 2048 := 0
  deriving DecidableEq, Repr

/-- A row of a slot that a write marks written (R261). -/
structure RowMark where
  drawer : Nat
  slot : Nat
  gen : W16
  off : Nat
  deriving DecidableEq, Repr

/-- A scratchpad row written and not yet readable (R261, Table 3.5). -/
structure PendRow where
  due : Nat
  row : Nat
  val : Option Row
  mark : Option RowMark
  deriving DecidableEq, Repr

/-- A write waiting in the landing buffer (R254), with the descriptor and transfer it belongs to. -/
structure LandReq where
  row : Nat
  val : Row
  mark : Option RowMark
  src : Option (Nat × Nat) := none
  waited : Nat := 0
  deriving DecidableEq, Repr

/-- The core scratchpad record's counters (Table 7.3). -/
structure ScratchRec where
  correctedWords : W64 := 0
  landingRows : W64 := 0
  landingYieldCycles : W64 := 0
  landingWaitMax : W32 := 0
  landingFullCycles : W32 := 0
  gatedAccesses : W32 := 0
  handleErrors : W32 := 0
  offsetErrors : W32 := 0
  uncorrectableRow : W32 := 0
  sticky : W32 := 0
  firstError : W32 := 0
  firstErrorHandle : W32 := 0
  deriving DecidableEq, Repr

/-- The scratchpad (spec/07): rows, slot state keyed 1024·drawer + slot, writes not yet readable, the landing buffer,
the banks and landing accesses used in the executing cycle (R252, R253), and the program ports of the bundle at execution
that have been served, as unit and bank (R105). -/
structure ScratchState where
  rows : Mem 4096 := Mem.zero
  slots : Tab SlotSt := []
  drains : List RowMark := []
  pend : List PendRow := []
  landing : List LandReq := []
  progBanks : List Nat := []
  early : List (Nat × Nat) := []
  landBanks : List Nat := []
  landUsed : Nat := 0
  cnt : ScratchRec := {}
  deriving DecidableEq, Repr

/-- A message in a core's transmit list (R342): header, payload of a row queue, or the slot it is read from; the cycle from which
it may leave (Table 3.5), and whether its flits are leaving. -/
structure TxMsg where
  hdr : W128
  row : Option Row
  rows : List Row
  handle : Option W32
  addr : Nat
  due : Nat := 0
  leaving : Bool := false
  deriving DecidableEq, Repr

/-- An inbox ring's offsets (R357). -/
structure Ring where
  w : Nat := 0
  r : Nat := 0
  m : Nat := 0
  deriving DecidableEq, Repr

/-- A RECV request (R360) and how many of its message's pushes are made. -/
structure RecvReq where
  entry : Nat
  rq : Nat
  hen : Bool
  nq : Nat
  begun : Bool := false
  sent : Nat := 0
  deriving DecidableEq, Repr

/-- Where the decision of R351 sent an arriving message: a stray write with its reason, a MESSAGE_ERROR with its cause, or a
target. -/
inductive RxDest where
  | undecided
  | stray (reason : Nat)
  | error (cause : Nat)
  | clamp (word : Nat)
  | window (handle : W32)
  | ring (entry : Nat)
  | update (entry : Nat)
  deriving DecidableEq, Repr

/-- A message at the destination NI: its number in the mesh, the gang it is for, header, payload rows, the rows the NI may
pass on, how many it has passed on, whether its last flit has come, and its destination. -/
structure RxMsg where
  msg : Nat := 0
  gang : Nat := 0
  hdr : W128
  rows : List Row
  complete : Bool := false
  got : Nat := 0
  done : Nat := 0
  remote : Bool := false
  parity : Bool := false
  arrival : W64 := 0
  dest : RxDest := .undecided
  deriving DecidableEq, Repr

/-- The core message record's counters (Table 9.10), channels 0 to 3. -/
structure MsgRec where
  sent : Vector W32 4 := Vector.replicate 4 0
  received : Vector W32 4 := Vector.replicate 4 0
  txStall : Vector W32 4 := Vector.replicate 4 0
  collisions : Vector W32 4 := Vector.replicate 4 0
  stray : Vector W32 4 := Vector.replicate 4 0
  messageErrors : W32 := 0
  clampFaults : W32 := 0
  parityErrors : W32 := 0
  ringWaitCycles : W32 := 0
  debugDrops : W32 := 0
  firstStray : W32 := 0
  firstStraySrc : W32 := 0
  firstMsgError : W32 := 0
  deriving DecidableEq, Repr

/-- A monitor wait on a clamp word (R367): its word, relation code and value, and how it was released, `true` when by FAULT
or ABANDONED. -/
structure Monitor where
  word : Nat
  rel : Nat
  val : Nat
  released : Option Bool := none
  deriving DecidableEq, Repr

/-- The network interface (spec/09): open windows by tag-table entry, rings, transmit list, RECV requests, the landing
token buffer (R312) and the SEND tokens waiting for room in it, the receive buffer, the updates of clamp words that fall in
the next cycle (R364), and the monitor wait under way. -/
structure NiState where
  windows : Tab W32 := []
  rings : Tab Ring := []
  tx : List TxMsg := []
  moved : Bool := false
  recvs : List RecvReq := []
  tokens : List W128 := []
  rx : List RxMsg := []
  clampPend : List (Nat × Int) := []
  monitor : Option Monitor := none
  tokWait : List W128 := []
  cnt : MsgRec := {}
  deriving DecidableEq, Repr

/-- What the update unit samples when a message or UPD begins (R440). -/
structure UpdSample where
  eta : W32
  beta : W32
  lambda : W32
  clip : W32
  control : W64
  copyHandle : W32
  tmpl0 : W128
  tmpl1 : W128
  step : W32
  seed : W64
  deriving DecidableEq, Repr

/-- A message or UPD in the update unit: source, rows, progress, sampled values, and the copies still to be made. -/
structure UpdJob where
  upd : Bool
  entry : Nat
  handle : W32
  group : Nat
  arg : Nat
  rows : List Row
  pos : Nat
  next : Nat := 0
  begun : Bool := false
  fin : Bool := false
  acked : Bool := false
  sample : Option UpdSample := none
  dm : W32 := 0
  dp : W32 := 0
  narrow : List Row := []
  scales : List (List Byte) := []
  copied : Nat := 0
  replicas : Nat := 0
  deriving DecidableEq, Repr

/-- The core update record's counters (Table 11.7). -/
structure UpdRec where
  rowsApplied : W64 := 0
  messagesApplied : W64 := 0
  lazyEntries : W64 := 0
  copyRows : W64 := 0
  busyCycles : W64 := 0
  nonfiniteRows : W32 := 0
  updRefused : W32 := 0
  lazyRepeats : W32 := 0
  inputFullCycles : W32 := 0
  firstUpdError : W32 := 0
  sticky : W32 := 0
  deriving DecidableEq, Repr

/-- The update unit (spec/11): its jobs, oldest first, and its record. -/
structure UpdState where
  jobs : List UpdJob := []
  cnt : UpdRec := {}
  deriving DecidableEq, Repr

/-- The core stall record (Table 3.6). -/
structure StallRec where
  gangHeld : W32 := 0
  emptyPop : W32 := 0
  fullPush : W32 := 0
  bankConflict : W32 := 0
  drawerGuard : W32 := 0
  landingWait : W32 := 0
  wordWait : W32 := 0
  drainHold : W32 := 0
  swapHold : W32 := 0
  bankConflicts : W32 := 0
  holdLast : W32 := 0
  leftover : W32 := 0
  deriving DecidableEq, Repr

/-- The digest register and row count of the open interval (R473), and the closed intervals whose records are not yet
written, by the position of the boundary that closed them (R475). -/
structure DigestState where
  r : W64 := 0xFFFFFFFFFFFFFFFF#64
  n : W64 := 0
  closed : List (Nat × W64 × W64) := []
  deriving DecidableEq, Repr

/-- An unmet interlock condition (Table 3.4a): its cause code (Table 3.7), queue, slot and ready cycle where it is
internal. -/
structure Hold where
  cause : Nat
  queue : Nat := 0
  slot : Nat := 0
  ready : Option Nat := none
  deriving DecidableEq, Repr

/-- One core. `pos` is one above the position of the last bundle whose slot executed. -/
structure Core where
  queues : Tab Queue := []
  cc : CcState := {}
  arr : ArrayState := {}
  v0 : VEng := {}
  v1 : VEng := {}
  vrec : VecRec := {}
  sp : ScratchState := {}
  ni : NiState := {}
  upd : UpdState := {}
  dig : DigestState := {}
  stall : StallRec := {}
  waits : List Hold := []
  pos : Nat := 0
  deriving DecidableEq, Repr

/-- A core with the memory contents a power-up from off leaves, free values of the `n`-th such event (R285, R132). -/
def Core.powerUp (n : Nat) : Core :=
  { sp := { rows := Mem.undef n }, arr := { acc := Mem.undef n }, cc := { words := Mem.undef n } }

end Sys2Proof.Machine
end

