-- ==== Sys2Proof/Machine/RegionState.lean ====
section
/-!
DEFINITION. Machine/RegionState.lean: everything one region holds beside its cores: power state, clock and local view,
sequencer and stores, issue pipeline, stock engine, digest combiner, the declarations of the gang it runs and its records
(spec/02, spec/06, spec/08, spec/13, spec/16).
-/

namespace Sys2Proof.Machine

open Sys2Proof

/-- A drawer declaration (Table 7.2). -/
structure DrawerDecl where
  digest : Bool := false
  base : Nat := 0
  slotRows : Nat := 1
  slotCount : Nat := 1
  drainReads : Nat := 0
  deriving DecidableEq, Repr

/-- A tag-table declaration (Table 9.3). -/
structure TagDecl where
  kind : Nat := 0
  tag : W16 := 0
  targ0 : W16 := 0
  targ1 : W16 := 0
  tparam : W64 := 0
  deriving DecidableEq, Repr

/-- A clamp-word declaration (Table 9.7). -/
structure ClampDecl where
  word : Nat
  sigKind : Nat
  sigPart : Nat
  init : Nat
  deriving DecidableEq, Repr

/-- An energy-table entry (Table 16.2). -/
structure EnergyEntry where
  interval : Nat
  ticks : Bool
  energy : List Nat
  deriving DecidableEq, Repr

/-- What a region part declares (Table 6.18) and its sections. -/
structure PartDecl where
  part : Nat := 0
  floor : Nat := 0
  cores : Nat := 0
  halfWidth : Bool := false
  gateLo : Bool := false
  gateHi : Bool := false
  gateGroups : BitVec 8 := 0
  zeroFill : Bool := false
  entry : Nat := 0
  bundleCount : Nat := 0
  firstInterval : Nat := 0
  firstTicks : Bool := false
  firstEclass : Nat := 0
  energy : List EnergyEntry := []
  drawers : Tab DrawerDecl := []
  tags : Tab TagDecl := []
  clamps : List ClampDecl := []
  bundles : Mem 512 := Mem.zero
  knots : Mem 128 := Mem.zero
  deriving DecidableEq, Repr

/-- The region time record's counters (Table 2.5). -/
structure TimeRec where
  kerfCount : W64 := 0
  kerfOverruns : W64 := 0
  kerfOverrunMax : W32 := 0
  shimHalf : W64 := 0
  shimFull : W64 := 0
  gaugeWarnCount : W64 := 0
  launchLate : W64 := 0
  kerfWait : W64 := 0
  launchWait : W64 := 0
  stepHold : W32 := 0
  splineFull : W32 := 0
  deriving DecidableEq, Repr

/-- The sequencer record's counters (Table 6.21). -/
structure SeqRec where
  branches : W32 := 0
  issued : W64 := 0
  held : W64 := 0
  stockHold : W32 := 0
  preemptions : W32 := 0
  deriving DecidableEq, Repr

/-- A kerf interval under way (R50): its form, length, target and energy class. -/
structure Interval where
  ticks : Bool
  len : Nat
  target : Nat
  eclass : Nat
  deriving DecidableEq, Repr

/-- What the sequencer waits for before it issues the bundle at its address; `ready` says a LAUNCH has been released. -/
inductive Wait where
  | none
  | first
  | kerf
  | launch (target : Nat)
  | ready
  | stock
  | digest
  | preempt
  deriving DecidableEq, Repr

/-- A bundle issued and not yet executed: its address, position, contents, scheduled cycle, and the ready cycle its
check found (R98 to R101): `some none` while unknown. -/
structure Issued where
  addr : Nat
  pos : Nat
  bundle : Bundle
  sched : Nat
  ready : Option (Option Nat) := none
  deriving DecidableEq, Repr

/-- The sequencer (Table 6.1) and its issue state. -/
structure Seq where
  g : W64 := 0
  pos : Nat := 0
  addr : Nat := 0
  kerfBase : Nat := 0
  loops : Vector W32 8 := Vector.replicate 8 0
  interval : Option Interval := none
  wait : Wait := .none
  repDone : Nat := 0
  pipe : List Issued := []
  lastMmulBf16 : Option Nat := none
  stopping : Option Nat := none
  resumeIssue : Bool := false
  cnt : SeqRec := {}
  deriving DecidableEq, Repr

/-- A descriptor in the queue to the stock engine (R222, R300): its bundle-store address, contents, loop value, and the
position of its STOCK bundle. -/
structure DescIn where
  addr : Nat
  desc : Bundle
  v : W32
  exec : Nat
  deriving DecidableEq, Repr

/-- A descriptor taken (R303): what it moves, and for each core the rows left, the rows moved and the status so far (R308);
`pending` lists the cores whose token is not placed. -/
structure DescJob where
  id : Nat
  addr : Nat
  store : Bool
  tmode : Bool
  row0 : Nat
  handle : W32
  key : W32
  exec : Nat
  kind : Nat := 1
  left : Tab Nat := []
  rows : Tab Nat := []
  status : Tab Nat := []
  pending : List Nat := []
  deriving DecidableEq, Repr

/-- A transfer of at most 128 rows (R304): the pieces it is merged from, each a descriptor, a core set and a row range. -/
structure XferPiece where
  desc : Nat
  core : Nat
  count : Nat
  row : Nat
  rows : Nat
  deriving DecidableEq, Repr

/-- A transfer: its direction, first stock address, pieces, whether it holds a tag and since which tick, the rows still to
be moved counted once per core, the rows a STORE has read, and whether a chunk of it has waited for a page. -/
structure Xfer where
  id : Nat
  store : Bool
  sa : Nat
  cstride : Nat
  pieces : List XferPiece
  left : Nat
  read : Nat := 0
  tagged : Bool := false
  tick0 : Nat := 0
  held : Bool := false
  deriving DecidableEq, Repr

/-- A row on its way to a core from the stock engine (R307). -/
structure LandRow where
  desc : Nat
  xfer : Nat
  core : Nat
  idx : Nat
  val : Row
  deriving DecidableEq, Repr

/-- A row a STORE has read and not yet written (R309). -/
structure StoreRow where
  xfer : Nat
  sa : Nat
  val : Row
  deriving DecidableEq, Repr

/-- The stock engine record's counters (Table 8.7). -/
structure EngRec where
  descriptors : W64 := 0
  transfers : W64 := 0
  merges : W64 := 0
  bytesLoaded : W64 := 0
  bytesStored : W64 := 0
  latencyMax : W32 := 0
  tagsMax : W32 := 0
  descErrors : W32 := 0
  edcRetries : W32 := 0
  uncorrectable : W32 := 0
  pageWaits : W32 := 0
  tokenFull : W32 := 0
  tokensDiscarded : W32 := 0
  firstDescError : W32 := 0
  hostSteals : W32 := 0
  deriving DecidableEq, Repr

/-- A region's stock engine (spec/08). -/
structure Engine where
  queue : List DescIn := []
  jobs : List DescJob := []
  xfers : List Xfer := []
  landing : List LandRow := []
  stores : List StoreRow := []
  nextId : Nat := 0
  cnt : EngRec := {}
  deriving DecidableEq, Repr

/-- A digest boundary whose records are not yet written (R474 to R476). -/
structure Snapshot where
  layer : W64
  pos : Nat
  final : Bool
  g : W64
  stick : W64
  flags : Byte
  deriving DecidableEq, Repr

/-- The digest combiner and state record (R476, Table 13.5). -/
structure Combiner where
  boundaries : W32 := 0
  pending : List Snapshot := []
  recordsWritten : W32 := 0
  holdCycles : W32 := 0
  traceEnded : Bool := false
  layerBase : W64 := 0
  deriving DecidableEq, Repr

/-- The occurrences of one event counted in the current mark, the gang of the first, and the details of the first (or largest)
(R601, Table 14.17). -/
structure EvCount where
  count : Nat := 0
  gang : Nat := 0
  d0 : Nat := 0
  d : Nat := 0
  deriving DecidableEq, Repr

/-- The states of a region domain (R576). -/
inductive DomState where
  | off
  | selfTest
  | awake
  | sleep
  deriving DecidableEq, Repr

/-- Trace capture of a region's taps (R527). -/
structure Trace where
  on : Bool := false
  tap : Nat := 0
  core : Nat := 0
  ring : Nat := 0
  bytes : Nat := 0
  trigger : Nat := 0
  armed : Bool := false
  session : Nat := 0
  written : Nat := 0
  deriving DecidableEq, Repr

/-- The gang a region runs, or last ran. -/
structure Run where
  gang : Nat := 0
  session : Nat := 0
  part : Nat := 0
  running : Bool := false
  ended : Bool := false
  settled : Bool := true
  status : Nat := 0
  preempting : Bool := false
  tickVoid : Bool := false
  cycleVoid : Bool := false
  interlocked : Option Nat := none
  admitted : Nat := 0
  heldMarks : Nat := 0
  stalled : Bool := false
  issuedThisMark : Bool := false
  widthHalf : Bool := false
  ever : Bool := false
  deriving DecidableEq, Repr

/-- One region. -/
structure Region where
  dom : DomState := .off
  step : Nat := 0
  stagedStep : Option Nat := none
  pendingChange : Bool := false
  pendChange : BitVec 3 := 0
  pendValue : BitVec 3 := 0
  ack : Bool := false
  switching : Nat := 0
  reprMode : Bool := false
  digestOn : Bool := false
  accNearest : Bool := false
  view : Nat := 0
  viewValid : Bool := false
  viewCap : Nat := 0
  cycle : Nat := 0
  gaugeWarn : Nat := 12
  gaugeStretch : Nat := 6
  shimHalfLen : Bool := false
  gaugeMin : Nat := 63
  shimsThisMark : Nat := 0
  warnInterval : Nat := 0
  cyclesInterval : Nat := 0
  tmaxInterval : Nat := 0
  time : TimeRec := {}
  seq : Seq := {}
  decl : PartDecl := {}
  site : List Nat := []
  run : Run := {}
  eng : Engine := {}
  dig : Combiner := {}
  trace : Trace := {}
  ev : Tab EvCount := []
  declOverruns : W32 := 0
  declMismatches : W32 := 0
  undef : Nat := 0
  deriving DecidableEq, Repr

/-- A region whose domain has lost its contents, with the modes in force, the change staged for it and the gauge settings, which
AON and Tirix hold (R285, R576; Table 16.1). -/
def Region.cleared (g : Region) (undef : Nat) : Region :=
  { stagedStep := g.stagedStep, pendingChange := g.pendingChange, pendChange := g.pendChange, pendValue := g.pendValue
    ack := g.ack, reprMode := g.reprMode, digestOn := g.digestOn, accNearest := g.accNearest, gaugeWarn := g.gaugeWarn
    gaugeStretch := g.gaugeStretch, shimHalfLen := g.shimHalfLen, undef := undef }

end Sys2Proof.Machine
end

