-- ==== Sys2Proof/Machine/CoreOps.lean ====
section
/-!
DEFINITION. Machine/CoreOps.lean: the named operations on one core: register reads by position, words, queues, drawers,
memory rows and the records of errors (spec/03, spec/07). Every slot operation is written over these.
-/

namespace Sys2Proof.Machine

open Sys2Proof

/-- What a slot operation sees of its surroundings: the region's cycle and local view, the bundle's position and address,
the gang's declarations, the logical core, the modes applied, the latencies in force, the queues that the executing
bundle pops (R88), and which destinations exist (Table 9.2). -/
structure Ctx where
  cycle : Nat
  view : Nat
  pos : Nat
  addr : Nat
  decl : PartDecl
  core : Nat
  accNearest : Bool
  digestOn : Bool
  b0 : Bool
  img : Option Nat
  pops : List Nat
  bounds : List Nat
  parts : Tab Nat
  modules : List Nat
  draining : List (Nat × Nat) := []
  deriving DecidableEq, Repr

/-- An event an operation adds to its region's counts of the mark: code, DETAIL0 and DETAIL (Table 14.18). -/
structure EvOut where
  code : Nat
  d0 : Nat := 0
  d : Nat := 0
  deriving DecidableEq, Repr

/-- What an operation leaves: the core, the events of its mark, and whether an uncorrectable error stops the gang. -/
structure Eff where
  core : Core
  ev : List EvOut := []
  sramStop : Bool := false
  deriving DecidableEq, Repr

/-- The effects of one operation followed by another's. -/
def Eff.bind (e : Eff) (f : Core → Eff) : Eff :=
  let x := f e.core
  { core := x.core, ev := e.ev ++ x.ev, sramStop := e.sramStop || x.sramStop }

/-! ### Registers, predicates and words by position -/

/-- The registers as left by the operations at positions up to `p` (R95, R96). -/
def regsAt (h : List (Nat × CcRegs)) (p : Int) : CcRegs :=
  match h.find? (fun x => decide ((x.1 : Int) ≤ p)) with
  | some x => x.2
  | none => {}

/-- What a slot of unit `u` at position `n` reads: CC sees positions up to n − 1, every other slot up to n − 7. -/
def slotRegs (c : Core) (u : Nat) (n : Nat) : CcRegs := regsAt c.cc.hist (if u = 9 then (n : Int) - 1 else (n : Int) - 7)

/-- The history kept after a write at position `n`: one entry at or before n − 40 suffices for every later reader. -/
def trimHist {α : Type} (n : Nat) : List (Nat × α) → List (Nat × α)
  | [] => []
  | x :: t => if x.1 + 40 ≤ n then [x] else x :: trimHist n t

/-- The core with its registers changed by the CC operation at position `n`. -/
def writeRegs (c : Core) (n : Nat) (f : CcRegs → CcRegs) : Core :=
  let r := f (regsAt c.cc.hist n)
  let rest := c.cc.hist.filter (fun x => x.1 != n)
  { c with cc := { c.cc with hist := (n, r) :: trimHist n rest } }

/-- Whether a slot executes: PRED 0 always, 0b1ppp when Pp is 1 (R206). -/
def slotEnabled (c : Core) (u n : Nat) (w : SlotWord) : Bool :=
  let p := sel w 43 40
  p = 0 || (p ≥ 8 && bit (slotRegs c u n).pred (p % 8))

/-- The value a CNT field adds (R207). -/
def cntVal (r : CcRegs) (cnt : Nat) : Nat := if cnt ≥ 8 then (r.ctr[cnt % 8]?.getD 0).toNat else 0

/-- A word that CURVE or STEP will write entered in order of the position that first reads it (R224, R226). -/
def insertFuture (f : FutureWord) : List FutureWord → List FutureWord
  | [] => [f]
  | x :: t => if f.pos < x.pos then f :: x :: t else x :: insertFuture f t

/-- Words that CURVE and STEP have written and that an operation at position `p` reads (R224, R226). -/
def settleWords (c : Core) (p : Nat) : Core :=
  let due := c.cc.future.filter (fun f => decide (f.pos ≤ p))
  { c with cc := { c.cc with
      words := due.foldl (fun m f => m.set f.word f.val) c.cc.words
      seed := due.foldl (fun s f => if f.word = 0x7FD then (f.pos, f.val) :: s.filter (fun x => x.1 != f.pos) else s) c.cc.seed
      future := c.cc.future.filter (fun f => decide (p < f.pos)) } }

/-- SR_SEED, word 0x7FD, as written at positions up to n − 7 (R139). -/
def seedAt (c : Core) (n : Nat) : W64 :=
  match c.cc.seed.find? (fun x => decide (x.1 ≤ n)) with
  | some x => x.2
  | none => c.cc.words.get 0x7FD

/-- The word store with word `a` written at position `n`; a write of SR_SEED also enters its history. -/
def writeWord (c : Core) (n a : Nat) (v : W64) : Core :=
  let a := a % 2048
  let seed := if a = 0x7FD then (n + 7, v) :: trimHist n (c.cc.seed.filter (fun x => x.1 != n + 7)) else c.cc.seed
  { c with cc := { c.cc with words := c.cc.words.set a v, seed := seed } }

/-! ### Queues -/

/-- The depth of a queue (Table 3.2). -/
def qDepth (q : Nat) : Nat := if q < 8 then 8 else if q < 16 then 4 else if q < 28 then 16 else 32

def Core.queue (c : Core) (q : Nat) : Queue := Tab.get c.queues q {}

/-- The bits an operation pops or peeks at the head (R78). -/
def Core.head (c : Core) (q : Nat) : Vec := match (c.queue q).entries with
  | [] => 0
  | e :: _ => e.data

/-- The head marked popped; it leaves at the end of the cycle, so that other slots of the bundle see it (R86). -/
def Core.pop (c : Core) (q : Nat) (pop : Bool) : Core :=
  if pop then { c with queues := Tab.upd c.queues q {} (fun x => { x with popped := true }) } else c

/-- An entry placed after every entry reserved before it (R85). -/
def insertRes (e : QEntry) : List QEntry → List QEntry
  | [] => [e]
  | x :: t => if e.res < x.res then e :: x :: t else x :: insertRes e t

/-- A push by slot `u` in cycle `cyc`, visible from cycle `due` on (R84). -/
def Core.push (c : Core) (q cyc u due : Nat) (v : Vec) : Core :=
  { c with queues := Tab.upd c.queues q {} (fun x =>
      { x with entries := insertRes { data := v, res := 16 * cyc + u, due := due, vis := false } x.entries }) }

/-- A push by an external producer, visible at once (R83). -/
def Core.pushExt (c : Core) (q cyc : Nat) (v : Vec) : Core :=
  { c with queues := Tab.upd c.queues q {} (fun x =>
      { x with entries := insertRes { data := v, res := 16 * cyc + 15, due := cyc, vis := true } x.entries }) }

/-- Whether a push finds space: visible and reserved entries less the pops of the cycle are below the depth (R88). -/
def hasSpace (c : Core) (q : Nat) (pops : List Nat) : Bool :=
  let x := c.queue q
  decide (x.entries.length - (if x.popped || pops.contains q then 1 else 0) < qDepth q)

/-- The empty-queue condition of a pop or peek at cycle `cyc`: met when the head is visible, or reserved to be visible by
then when `strict` is off (Table 3.4a). -/
def popHold (c : Core) (q u cyc : Nat) (strict : Bool) : List Hold :=
  match (c.queue q).entries with
  | [] => [{ cause := 1, queue := q, slot := u }]
  | e :: _ => if e.vis || (!strict && decide (e.due ≤ cyc)) then []
              else [{ cause := 1, queue := q, slot := u, ready := some (max e.due cyc) }]

/-- The full-queue condition of a push (Table 3.4a). -/
def pushHold (c : Core) (q u : Nat) (pops : List Nat) : List Hold :=
  if hasSpace c q pops then [] else [{ cause := 2, queue := q, slot := u }]

/-! ### Drawers and handles -/

def hDrawer (h : W32) : Nat := sel h 31 26
def hSlot (h : W32) : Nat := sel h 25 16
def hGen (h : W32) : Nat := sel h 15 0

/-- A handle from its fields (R263). -/
def mkHandle (d s g : Nat) : W32 := BitVec.ofNat 32 (((d % 64) <<< 26) + ((s % 1024) <<< 16) + g % 65536)

def slotKey (d s : Nat) : Nat := 1024 * d + s

def Core.slot (c : Core) (d s : Nat) : SlotSt := Tab.get c.sp.slots (slotKey d s) {}

/-- Check 1 of R270: the drawer is declared and the slot is within it. -/
def handleDecl (decl : PartDecl) (h : W32) : Option DrawerDecl :=
  match Tab.find decl.drawers (hDrawer h) with
  | some d => if hSlot h < d.slotCount then some d else none
  | none => none

/-- `(HANDLE.GEN − GEN) mod 65,536` (check 3 of R270). -/
def genDist (c : Core) (h : W32) : Nat := (hGen h + 65536 - (c.slot (hDrawer h) (hSlot h)).gen.toNat) % 65536

/-- The outcome of the checks of R270: a failing check's number, or the row addressed (R264). -/
def checkHandle (decl : PartDecl) (c : Core) (h : W32) (f : Nat) : Nat × Nat :=
  match handleDecl decl h with
  | none => (1, 0)
  | some d =>
    if f ≥ d.slotRows then (2, 0)
    else if genDist c h ≥ 32768 then (3, 0)
    else (0, (d.base + hSlot h * d.slotRows + f) % 16384)

/-- The leading rows written of a slot, counted from offset 0 (R260). -/
def fillFrom (w : BitVec 2048) : Nat → Nat → Nat
  | 0, k => k
  | n + 1, k => if bit w k then fillFrom w n (k + 1) else k

/-- A row marked written in its slot, when the generation is still the slot's, raising FILL (R260, R261). -/
def markRow (c : Core) (m : RowMark) : Core :=
  let s := c.slot m.drawer m.slot
  if s.gen = m.gen then
    let w := s.written ||| BitVec.ofNat 2048 (2 ^ m.off)
    let s := { s with written := w, fill := fillFrom w 2048 s.fill }
    { c with sp := { c.sp with slots := Tab.set c.sp.slots (slotKey m.drawer m.slot) s } }
  else c

/-- A slot drained: its generation advances, FILL, READS and the written marks return to zero (R262). -/
def drainSlot (c : Core) (d s : Nat) : Core :=
  let x := c.slot d s
  { c with sp := { c.sp with slots := Tab.set c.sp.slots (slotKey d s) { gen := x.gen + 1, reads := 0, fill := 0, written := 0 } } }

/-- Whether a handle's slot still waits to be drained for it (R273, R274). A drain that the bundle itself completes lets its own
WR or WOPEN follow into the next generation, the bundle held one cycle for it (R275's paragraphs). -/
def writeGuarded (ctx : Ctx) (c : Core) (h : W32) : Bool :=
  genDist c h != 0 && !(genDist c h == 1 && ctx.draining.contains (hDrawer h, hSlot h))

/-- A slot to be drained at the end of the executing cycle (R262, R269). -/
def drainLater (c : Core) (d s : Nat) (g : W16) : Core :=
  { c with sp := { c.sp with drains := c.sp.drains ++ [{ drawer := d, slot := s, gen := g, off := 0 }] } }

/-! ### Gating and scratchpad rows -/

def bankOf (row : Nat) : Nat := row / 512

/-- Whether a row lies in a gated bank group (R278). -/
def rowGated (decl : PartDecl) (row : Nat) : Bool := bit decl.gateGroups (bankOf row / 4)

/-- The number of accumulator rows of the declared width (R131). -/
def accRows (decl : PartDecl) : Nat := if decl.halfWidth then 2048 else 1024

/-- Whether an accumulator row lies in a gated half (R132, R278). -/
def accGated (decl : PartDecl) (row : Nat) : Bool := if row < accRows decl / 2 then decl.gateLo else decl.gateHi

/-- Whether a row lies in a declared drawer (R276). -/
def inDrawer (decl : PartDecl) (row : Nat) : Bool :=
  decl.drawers.any (fun p => decide (p.2.base ≤ row) && decide (row < p.2.base + p.2.slotRows * p.2.slotCount))

/-- FIRST_ERROR's word (Table 7.3). -/
def firstErrWord (kind slot low : Nat) : W32 := BitVec.ofNat 32 (2 ^ 31 + (kind <<< 28) + (slot <<< 24) + low % 2 ^ 24)

/-- A gated access counted and recorded (R281). -/
def recGated (c : Core) (slot low : Nat) : Eff :=
  let r := c.sp.cnt
  let fresh := !bit r.firstError 31
  { core := { c with sp := { c.sp with cnt := { r with
      gatedAccesses := bump32 r.gatedAccesses 1, sticky := sticky r.sticky 0
      firstError := firstOf r.firstError (firstErrWord 4 slot low)
      firstErrorHandle := if fresh then 0 else r.firstErrorHandle } } }
    ev := [{ code := 5 }] }

/-- A failed handle check counted and recorded (R271, R275). -/
def recHandle (c : Core) (check slot low : Nat) (h : W32) : Core :=
  let r := c.sp.cnt
  let fresh := !bit r.firstError 31
  { c with sp := { c.sp with cnt := { r with
      handleErrors := if check = 2 ∧ slot ≠ 15 then r.handleErrors else bump32 r.handleErrors 1
      offsetErrors := if check = 2 ∧ slot ≠ 15 then bump32 r.offsetErrors 1 else r.offsetErrors
      sticky := sticky r.sticky (if check = 2 ∧ slot ≠ 15 then 2 else 1)
      firstError := firstOf r.firstError (firstErrWord check slot low)
      firstErrorHandle := if fresh then h else r.firstErrorHandle } } }

/-- The scratchpad's answer to a read: corrected words counted, an uncorrectable error recorded and stopping the gang with
its row never delivered (R283, R284). `space` is 0 for scratchpad, 1 for accumulator memory. -/
def recSram (c : Core) (ctx : Ctx) (space row : Nat) (err : SramErr) : Eff :=
  let r := c.sp.cnt
  match err with
  | .ok => { core := c }
  | .corrected n => { core := { c with sp := { c.sp with cnt := { r with correctedWords := bump48 r.correctedWords n.toNat } } } }
  | .uncorrectable =>
    let w := firstOf r.uncorrectableRow (BitVec.ofNat 32 (2 ^ 31 + (space <<< 30) + row % 16384))
    { core := { c with sp := { c.sp with cnt := { r with uncorrectableRow := w, sticky := sticky r.sticky 3 } } }
      ev := [{ code := 8, d0 := ctx.core, d := w.toNat }], sramStop := true }

/-- A scratchpad row made readable from cycle `due` on, with its slot row marked written then (R261). -/
def writeRow (c : Core) (due row : Nat) (v : Option Row) (mark : Option RowMark) : Core :=
  { c with sp := { c.sp with pend := c.sp.pend ++ [{ due := due, row := row, val := v, mark := mark }] } }

/-- A program port's access of the cycle (R252). -/
def useBank (c : Core) (row : Nat) : Core := { c with sp := { c.sp with progBanks := bankOf row :: c.sp.progBanks } }

/-- The bank-conflict condition of a program-port access (R105). -/
def bankHold (c : Core) (row u cyc : Nat) : List Hold :=
  if c.sp.progBanks.contains (bankOf row) then [{ cause := 3, slot := u, ready := some (cyc + 1) }] else []

/-! ### Message errors -/

/-- A send-side message error counted and recorded (R340, R352, R354, R360). -/
def recMsgErr (c : Core) (ctx : Ctx) (cause side low : Nat) : Eff :=
  let r := c.ni.cnt
  { core := { c with ni := { c.ni with cnt := { r with
      messageErrors := bump32 r.messageErrors 1
      firstMsgError := firstOf r.firstMsgError (BitVec.ofNat 32 (2 ^ 31 + (cause <<< 27) + (side <<< 26) + low % 2 ^ 24)) } } }
    ev := [{ code := 7, d0 := cause, d := ctx.core }] }

/-! ### Latency (Table 3.5, Table 5.2) -/

/-- A latency whose A1 and B0 values are given, in the stepping that applies. -/
def latOf (b0 : Bool) (a1 b : Nat) : Nat := if b0 then b else a1

/-- The image's own stepping in an interlocked run. -/
def Ctx.imgB0 (ctx : Ctx) : Bool := match ctx.img with
  | some t => t == 0x00B0
  | none => ctx.b0

/-- The cycle a result becomes visible: the later of what the module's latency and the image's give (R488). -/
def Ctx.due (ctx : Ctx) (a1 b : Nat) : Nat := ctx.cycle + max (latOf ctx.b0 a1 b) (latOf ctx.imgB0 a1 b)

/-- The cycle the image expects a result by (R489). -/
def Ctx.imgDue (ctx : Ctx) (a1 b : Nat) : Nat := ctx.cycle + latOf ctx.imgB0 a1 b

/-- The stall record after unmet conditions: HOLD_LAST names the lowest slot (Table 3.6). -/
def recHold (c : Core) (hs : List Hold) : Core :=
  match hs with
  | [] => c
  | h :: t =>
    let l := t.foldl (fun a b => if b.slot < a.slot then b else a) h
    { c with stall := { c.stall with holdLast := BitVec.ofNat 32 (2 ^ 31 + (l.queue <<< 16) + (l.slot <<< 12) + l.cause) } }

end Sys2Proof.Machine
end

