-- ==== Sys2Proof/Machine/Cc.lean ====
section
/-!
DEFINITION. Machine/Cc.lean: the CC slot: CSET, CINC, CLOAD, CMP, WAITW, INCW, DECW and WAITL, and the clamp words
(spec/03_core_row.md R91 to R97; spec/06_sequencer.md Table 6.13; spec/07 R265 to R269; spec/08 R314 to R316; spec/09
R362 to R369).
-/

namespace Sys2Proof.Machine

open Sys2Proof

/-- Whether a word is the cursor word of a declared drawer (R265, R267). -/
def isCursor (decl : PartDecl) (a : Nat) : Bool := 0x780 ≤ a && a < 0x7C0 && (Tab.find decl.drawers (a - 0x780)).isSome

/-- The word address of a CC slot: WADDR plus a counter, modulo 2,048. -/
def ccWord (r : CcRegs) (waddr cnt : Nat) : Nat := (waddr + cntVal r cnt) % 2048

/-! ### Clamp words -/

/-- A word's COUNT field (Table 9.6). -/
def clampCount (w : W64) : Nat := w.toNat % 2 ^ 48

/-- WAITW's relations (Table 6.13): 0 at least, 1 equal, 2 unequal. -/
def waitRel (rel count v : Nat) : Bool :=
  match rel with
  | 0 => decide (v ≤ count)
  | 1 => count == v
  | _ => count != v

/-- A refused update: FAULT set, counted, and an event of the mark (R365, R268). `fault` says whether the word takes FAULT. -/
def clampRefuse (ctx : Ctx) (a : Nat) (fault : Bool) (c : Core) : Eff :=
  let words := if fault then c.cc.words.set a (c.cc.words.get a ||| 0x4000000000000000#64) else c.cc.words
  { core := { c with cc := { c.cc with words := words }
                     ni := { c.ni with cnt := { c.ni.cnt with clampFaults := bump32 c.ni.cnt.clampFaults 1 } } }
    ev := [{ code := 4, d0 := ctx.core, d := a }] }

/-- A monitor wait released by what its word now shows (R367). -/
def releaseMonitor (a : Nat) (c : Core) : Core :=
  match c.ni.monitor with
  | some m =>
    if m.word = a ∧ m.released = none then
      let w := c.cc.words.get a
      let r := if waitRel m.rel (clampCount w) m.val then some false
        else if bit w 62 || bit w 61 then some true else none
      { c with ni := { c.ni with monitor := some { m with released := r } } }
    else c
  | none => c

/-- The shadow record after an applied update (Table 9.8): kind 1 local, 2 dowel, 3 CLAMP_SET. -/
def shadowLast (s : W128) (view kind : Nat) (remote : Bool) (part core : Nat) : W128 :=
  let s := put s 95 64 (view % 2 ^ 32)
  let s := put s 19 18 kind
  let s := put s 17 17 (b2n remote)
  put (put s 14 10 part) 9 0 core

/-- An update of a clamp word by `z`: applied when COUNT stays within 0 to 2^47 − 1, refused otherwise (R364 to R366,
R369). -/
def clampAdd (ctx : Ctx) (a : Nat) (z : Int) (kind : Nat) (remote : Bool) (part core : Nat) (c : Core) : Eff :=
  let w := c.cc.words.get a
  let n : Int := (clampCount w : Int) + z
  if n < 0 ∨ n > (2 ^ 47 : Nat) - 1 then
    let e := clampRefuse ctx a true c
    { e with core := releaseMonitor a e.core }
  else
    let c := { c with cc := { c.cc with
      words := c.cc.words.set a (put w 47 0 n.toNat)
      shadow := c.cc.shadow.set a (shadowLast (c.cc.shadow.get a) ctx.view kind remote part core) } }
    { core := releaseMonitor a c }

/-- The local INCW and DECW updates of the cycle that has ended, applied in the next (R364). -/
def clampEdge (ctx : Ctx) (c : Core) : Eff :=
  let us := c.ni.clampPend
  let c := { c with ni := { c.ni with clampPend := [] } }
  us.foldl (fun e u => e.bind (clampAdd ctx u.1 u.2 1 false ctx.decl.part ctx.core)) { core := c }

/-! ### Unmet conditions -/

/-- The queue a CLOAD form pops, if any, and the one it pushes (Table 6.13). -/
def cloadQueues (w : SlotWord) : Option Nat × Option Nat :=
  let m := sel w 11 9
  let n := sel w 30 28
  match sel w 33 31 with
  | 0 | 2 | 6 => (some (16 + m), none)
  | 3 => (none, some (16 + n))
  | 4 => (none, some (28 + n % 4))
  | 5 => (none, some (24 + n % 4))
  | _ => (none, none)

/-- The word, relation and value of a WAITW (Table 6.13). -/
def waitwArgs (r : CcRegs) (w : SlotWord) : Nat × Nat × Nat :=
  let v := if bit w 12 then (r.ctr[sel w 2 0]?.getD 0).toNat else sel w 11 0
  (ccWord r (sel w 27 17) (sel w 16 13), sel w 33 32, v)

/-- The word-wait condition of a monitor WAITW (R367). -/
def waitwHolds (ctx : Ctx) (w : SlotWord) (c : Core) : List Hold :=
  let (a, rel, v) := waitwArgs (slotRegs c 9 ctx.pos) w
  let x := c.cc.words.get a
  let met (x : W64) : Bool := waitRel rel (clampCount x) v || bit x 62 || bit x 61
  let rel? := match c.ni.monitor with
    | some m => m.word == a && m.released.isSome
    | none => false
  if bit w 31 || isCursor ctx.decl a || rel? || met x then []
  else
    let x' := (clampEdge ctx c).core.cc.words.get a
    [{ cause := 7, slot := 9, ready := if met x' then some (ctx.cycle + 1) else none }]

/-- The oldest token with a key (R314). -/
def tokenFor (c : Core) (key : W32) : Option W128 := c.ni.tokens.find? (fun t => t.setWidth 32 == key)

/-- The unmet conditions of a CC slot (Table 3.4a). -/
def ccHolds (ctx : Ctx) (strict : Bool) (w : SlotWord) (c : Core) : List Hold :=
  match sel w 39 34 with
  | 3 =>
    let (p, q) := cloadQueues w
    (match p with
      | some p => popHold c p 9 ctx.cycle strict
      | none => []) ++ (match q with
      | some q => pushHold c q 9 ctx.pops
      | none => [])
  | 5 => waitwHolds ctx w c
  | 8 =>
    let q := 28 + sel w 33 32
    let ph := popHold c q 9 ctx.cycle strict
    if ph ≠ [] then ph
    else if (tokenFor c ((c.head q).setWidth 32)).isSome then [] else [{ cause := 6, slot := 9 }]
  | _ => []

/-! ### The operations -/

def setCtr (i : Nat) (v : W32) (r : CcRegs) : CcRegs := { r with ctr := r.ctr.setIfInBounds i v }
def setPred (i : Nat) (b : Bool) (r : CcRegs) : CcRegs := { r with pred := put r.pred i i (b2n b) }

/-- CSET of a counter (R91). -/
def csetCounter (ctx : Ctx) (op : SlotOp) (c : Core) : Eff :=
  { core := writeRegs c ctx.pos (setCtr (sel op.word 32 30) (BitVec.ofNat 32 (sel op.word 29 0))) }

/-- CSET of a comparator (R92). -/
def csetComparator (ctx : Ctx) (op : SlotOp) (c : Core) : Eff :=
  let k : Cmp := { ref := BitVec.ofNat 32 (sel op.word 27 0), rel := Fin.ofNat 6 (sel op.word 30 28) }
  { core := writeRegs c ctx.pos (fun r => { r with cmp := r.cmp.setIfInBounds (sel op.word 32 31) k }) }

/-- CINC: a signed immediate added modulo 2^32 (R91). -/
def cincExec (ctx : Ctx) (op : SlotOp) (c : Core) : Eff :=
  let i := sel op.word 32 30
  let v := (slotRegs c 9 ctx.pos).ctr[i]?.getD 0
  { core := writeRegs c ctx.pos (setCtr i (v + BitVec.ofInt 32 (sext 30 (sel op.word 29 0)))) }

/-- CLOAD forms 0 and 2: a counter, or P7 to P0, from a scalar-queue entry. -/
def cloadQueue (ctx : Ctx) (op : SlotOp) (preds : Bool) (c : Core) : Eff :=
  let q := 16 + sel op.word 11 9
  let v := c.head q
  let c := c.pop q (bit op.word 27)
  { core := writeRegs c ctx.pos (if preds then fun r => { r with pred := v.setWidth 8 }
                                 else setCtr (sel op.word 30 28) (v.setWidth 32)) }

/-- The word a CLOAD names. -/
def cloadAddr (ctx : Ctx) (op : SlotOp) (c : Core) : Nat :=
  ccWord (slotRegs c 9 ctx.pos) (sel op.word 26 16) (sel op.word 15 12)

/-- CLOAD form 1: a counter from a word. -/
def cloadWord (ctx : Ctx) (op : SlotOp) (c : Core) : Eff :=
  let c := settleWords c ctx.pos
  { core := writeRegs c ctx.pos (setCtr (sel op.word 30 28) ((c.cc.words.get (cloadAddr ctx op c)).setWidth 32)) }

/-- CLOAD form 3: a word pushed to a scalar queue. -/
def cloadPushWord (ctx : Ctx) (op : SlotOp) (c : Core) : Eff :=
  let c := settleWords c ctx.pos
  { core := c.push (16 + sel op.word 30 28) ctx.cycle 9 (ctx.due 1 1) ((c.cc.words.get (cloadAddr ctx op c)).setWidth 8192) }

/-- The cursor after a take: the next slot, or slot 0 of the next generation (R266). -/
def cursorNext (d : DrawerDecl) (h : W32) : W32 :=
  if hSlot h + 1 < d.slotCount then mkHandle (hDrawer h) (hSlot h + 1) (hGen h) else mkHandle (hDrawer h) 0 (hGen h + 1)

/-- CLOAD form 4: a word's low half pushed as a handle, advancing a drawer's cursor (R266). -/
def cloadPushHandle (ctx : Ctx) (op : SlotOp) (c : Core) : Eff :=
  let c := settleWords c ctx.pos
  let a := cloadAddr ctx op c
  let h : W32 := (c.cc.words.get a).setWidth 32
  let c := c.push (28 + sel op.word 29 28) ctx.cycle 9 (ctx.due 1 1) (h.setWidth 8192)
  match (if isCursor ctx.decl a then Tab.find ctx.decl.drawers (a - 0x780) else none) with
  | some d => { core := writeWord c ctx.pos a ((cursorNext d h).setWidth 64) }
  | none => { core := c }

/-- CLOAD form 5: two words pushed as a descriptor, low word first (R337). -/
def cloadPushDescriptor (ctx : Ctx) (op : SlotOp) (c : Core) : Eff :=
  let c := settleWords c ctx.pos
  let a := cloadAddr ctx op c
  let v : Vec := BitVec.ofNat 8192 ((c.cc.words.get a).toNat + ((c.cc.words.get ((a + 1) % 2048)).toNat <<< 64))
  { core := c.push (24 + sel op.word 29 28) ctx.cycle 9 (ctx.due 1 1) v }

/-- CLOAD form 6: a scalar-queue entry written into a word; a cursor word keeps bits [63:32] zero (R265, R266). -/
def cloadWriteWord (ctx : Ctx) (op : SlotOp) (c : Core) : Eff :=
  let c := settleWords c ctx.pos
  let q := 16 + sel op.word 11 9
  let v : W64 := (c.head q).setWidth 64
  let a := cloadAddr ctx op c
  let v := if isCursor ctx.decl a then v &&& 0xFFFFFFFF#64 else v
  { core := writeWord (c.pop q (bit op.word 27)) ctx.pos a v }

/-- A comparator's relation over unsigned values (R92). -/
def cmpRel (rel : Nat) (x y : Nat) : Bool :=
  match rel with
  | 0 => x == y
  | 1 => x != y
  | 2 => decide (x < y)
  | 3 => decide (x ≤ y)
  | 4 => decide (y < x)
  | _ => decide (y ≤ x)

/-- CMP of a counter with a comparator (Table 3.4). -/
def cmpCounter (ctx : Ctx) (op : SlotOp) (c : Core) : Eff :=
  let r := slotRegs c 9 ctx.pos
  let k := r.cmp[sel op.word 26 25]?.getD {}
  let b := cmpRel k.rel.val (r.ctr[sel op.word 29 27]?.getD 0).toNat k.ref.toNat
  { core := writeRegs c ctx.pos (setPred (sel op.word 32 30) b) }

/-- CMP of two predicates: AND, OR, AND-NOT (Table 3.4). -/
def cmpPredicate (ctx : Ctx) (op : SlotOp) (c : Core) : Eff :=
  let p := (slotRegs c 9 ctx.pos).pred
  let x := bit p (sel op.word 27 25)
  let y := bit p (sel op.word 24 22)
  let b := match sel op.word 29 28 with
    | 0 => x && y
    | 1 => x || y
    | _ => x && !y
  { core := writeRegs c ctx.pos (setPred (sel op.word 32 30) b) }

/-- What a monitor WAITW that must wait leaves: ARMED set, one more wait begun in the shadow record (R367, R369). -/
def waitwArm (ctx : Ctx) (op : SlotOp) (c : Core) : Core :=
  let (a, rel, v) := waitwArgs (slotRegs c 9 ctx.pos) op.word
  match c.ni.monitor with
  | some _ => c
  | none =>
    let s := c.cc.shadow.get a
    { c with
      cc := { c.cc with words := c.cc.words.set a (c.cc.words.get a ||| 0x1000000000000000#64)
                        shadow := c.cc.shadow.set a (put s 111 96 (sel s 111 96 + 1)) }
      ni := { c.ni with monitor := some { word := a, rel := rel, val := v } } }

/-- WAITW in monitor form, once it waits no longer (R367, R268). -/
def waitwMonitor (ctx : Ctx) (op : SlotOp) (c : Core) : Eff :=
  let (a, rel, v) := waitwArgs (slotRegs c 9 ctx.pos) op.word
  let p := sel op.word 30 28
  if isCursor ctx.decl a then (clampRefuse ctx a false c).bind (fun c => { core := writeRegs c ctx.pos (setPred p true) })
  else
    match c.ni.monitor with
    | some m =>
      let c := { c with cc := { c.cc with words := c.cc.words.set a (put (c.cc.words.get a) 60 60 0) }
                        ni := { c.ni with monitor := none } }
      { core := writeRegs c ctx.pos (setPred p (m.released.getD false)) }
    | none =>
      { core := writeRegs c ctx.pos (setPred p (!waitRel rel (clampCount (c.cc.words.get a)) v)) }

/-- WAITW in poll form (R368, R268). -/
def waitwPoll (ctx : Ctx) (op : SlotOp) (c : Core) : Eff :=
  let (a, rel, v) := waitwArgs (slotRegs c 9 ctx.pos) op.word
  let p := sel op.word 30 28
  if isCursor ctx.decl a then (clampRefuse ctx a false c).bind (fun c => { core := writeRegs c ctx.pos (setPred p true) })
  else { core := writeRegs c ctx.pos (setPred p (waitRel rel (clampCount (c.cc.words.get a)) v)) }

/-- INCW and DECW: the change falls in the next cycle; a cursor word refuses it (R364, R268). -/
def incwExec (ctx : Ctx) (op : SlotOp) (dec : Bool) (c : Core) : Eff :=
  let a := ccWord (slotRegs c 9 ctx.pos) (sel op.word 33 23) (sel op.word 22 19)
  let z : Int := sel op.word 18 0
  if isCursor ctx.decl a then clampRefuse ctx a false c
  else { core := { c with ni := { c.ni with clampPend := c.ni.clampPend ++ [(a, if dec then -z else z)] } } }

/-- WAITL: the oldest token of the handle's key consumed, its slot drained where the drawer says so, the error predicate
written (R314 to R316, R269). -/
def waitlExec (ctx : Ctx) (op : SlotOp) (c : Core) : Eff :=
  let w := op.word
  let q := 28 + sel w 33 32
  let h : W32 := (c.head q).setWidth 32
  match tokenFor c h with
  | none => { core := c }
  | some t =>
    let c := { c.pop q (bit w 31) with ni := { c.ni with tokens := c.ni.tokens.erase t } }
    let c := match handleDecl ctx.decl h with
      | some d => if d.drainReads = 0 ∧ genDist c h = 0 then drainLater c (hDrawer h) (hSlot h) (c.slot (hDrawer h) (hSlot h)).gen else c
      | none => c
    { core := if bit w 30 then writeRegs c ctx.pos (setPred (sel w 29 27) (sel t 111 108 ≠ 0)) else c }

end Sys2Proof.Machine
end

