-- ==== Sys2Proof/Machine/NetSlots.lean ====
section
/-!
DEFINITION. Machine/NetSlots.lean: the NI slot: SEND, DOWEL, RECV, WOPEN, WCLOSE, UPD (spec/06_sequencer.md Table 6.12;
spec/09_messages.md R338 to R343, R352 to R354, R358, R360; spec/11_collectives_update.md R446, R460).
-/

namespace Sys2Proof.Machine

open Sys2Proof

/-! ### Header fields (Table 9.1) -/

def hdrKind (h : W128) : Nat := sel h 127 125
def hdrVc (h : W128) : Nat := sel h 124 123
def hdrRemote (h : W128) : Bool := bit h 122
def hdrDmod (h : W128) : Nat := sel h 121 110
def hdrDpart (h : W128) : Nat := sel h 109 105
def hdrDcore (h : W128) : Nat := sel h 104 95
def hdrTag (h : W128) : Nat := sel h 94 79
def hdrSpart (h : W128) : Nat := sel h 78 74
def hdrScore (h : W128) : Nat := sel h 73 64
def hdrLen (h : W128) : Nat := sel h 63 57
def hdrOfs (h : W128) : Nat := sel h 56 46
def hdrGroup (h : W128) : Nat := sel h 39 32
def hdrArg (h : W128) : Nat := sel h 31 0
def hdrValue (h : W128) : Nat := sel h 63 0

/-- A landing token (Table 8.5). -/
def mkToken (rows status kind desc view : Nat) (key : W32) : W128 :=
  BitVec.ofNat 128 (((rows % 65536) <<< 112) + (status <<< 108) + (kind <<< 104) + ((desc % 32768) <<< 81) +
    ((view % 2 ^ 32) <<< 32) + key.toNat)

/-- A token into the core's buffer of 64, or kept until an entry frees (R312, R313). -/
def placeToken (c : Core) (t : W128) : Core :=
  if c.ni.tokens.length < 64 ∧ c.ni.tokWait = [] then { c with ni := { c.ni with tokens := c.ni.tokens ++ [t] } }
  else { c with ni := { c.ni with tokWait := c.ni.tokWait ++ [t] } }

/-- The checks of Table 9.2, in order: 0, or a cause code and the token status. -/
def sendCheck (ctx : Ctx) (c : Core) (dowel sk : Bool) (h : W128) (hd : W32) : Nat × Nat :=
  let fmtBad := hdrKind h ≠ (if dowel then 2 else 1) ∨ (!hdrRemote h ∧ hdrDmod h ≠ 0) ∨ (!dowel ∧ sel h 45 40 ≠ 0)
  let lenBad := !dowel ∧ (hdrLen h = 0 ∨ hdrLen h > 64 ∨ (!sk ∧ hdrLen h ≠ 1))
  let dstBad := if hdrRemote h then !(ctx.modules.contains (hdrDmod h))
    else match Tab.find ctx.parts (hdrDpart h) with
      | some n => decide (n ≤ hdrDcore h)
      | none => true
  if fmtBad then (1, 6) else if lenBad then (2, 1) else if dstBad then (3, 2)
  else if sk then
    match handleDecl ctx.decl hd with
    | none => (4, 2)
    | some d => if hdrLen h > d.slotRows then (4, 2) else if genDist c hd ≠ 0 then (4, 4) else (0, 0)
  else (0, 0)

/-- SPART and SCORE written by the sending NI (R337). -/
def stampHdr (ctx : Ctx) (h : W128) : W128 := put (put h 78 74 ctx.decl.part) 73 64 ctx.core

/-- The full transmit list (R342). -/
def txHold (c : Core) (nq : Nat) : List Hold := if c.ni.tx.length ≥ 16 then [{ cause := 2, queue := 24 + nq, slot := 8 }] else []

/-- Rows waiting in the update unit's input (R443). -/
def updInputRows (c : Core) : Nat := c.upd.jobs.foldl (fun n j => n + (j.rows.length - j.next)) 0

/-- The window declaration of an entry: its drawer, if it is a window. -/
def windowDrawer (decl : PartDecl) (e : Nat) : Option Nat :=
  match Tab.find decl.tags e with
  | some t => if t.kind = 1 then some (sel t.targ0 5 0) else none
  | none => none

/-- Whether a WOPEN's handle passes its checks: the entry's drawer, checks 1 and 3 of R270 (R352). -/
def wopenOk (ctx : Ctx) (c : Core) (d : Nat) (h : W32) : Bool :=
  hDrawer h == d && (handleDecl ctx.decl h).isSome && decide (genDist c h < 32768)

/-- The unmet conditions of an NI slot (Table 3.4a). -/
def niHolds (ctx : Ctx) (strict : Bool) (w : SlotWord) (c : Core) : List Hold :=
  let pop (q : Nat) := popHold c q 8 ctx.cycle strict
  match sel w 39 34 with
  | 1 =>
    let nq := sel w 33 32
    pop (24 + nq) ++ pop (if bit w 30 then 28 + sel w 28 27 else sel w 29 27) ++ txHold c nq
  | 2 => let nq := sel w 33 32; pop (24 + nq) ++ pop (16 + sel w 30 28) ++ txHold c nq
  | 3 =>
    let ring := match Tab.find ctx.decl.tags (sel w 33 26) with
      | some t => t.kind == 2
      | none => false
    if ring && decide (c.ni.recvs.length ≥ 16) then [{ cause := 2, queue := sel w 25 23, slot := 8 }] else []
  | 4 =>
    match windowDrawer ctx.decl (sel w 33 26) with
    | none => pop (28 + sel w 25 24)
    | some d =>
      let q := 28 + sel w 25 24
      let ph := pop q
      if ph ≠ [] then ph else
      let h : W32 := (c.head q).setWidth 32
      if wopenOk ctx c d h && writeGuarded ctx c h then [{ cause := 5, slot := 8 }] else []
  | 6 =>
    pop (sel w 33 31) ++ pop (28 + sel w 29 28) ++
      (if updInputRows c ≥ 8 then [{ cause := 2, queue := 0, slot := 8 }] else [])
  | _ => []

/-- SEND: checked, then one entry of the transmit list (R338, R340 to R343). -/
def sendExec (ctx : Ctx) (op : SlotOp) (c : Core) : Eff :=
  let w := op.word
  let nq := 24 + sel w 33 32
  let sk := bit w 30
  let sq := if sk then 28 + sel w 28 27 else sel w 29 27
  let h : W128 := (c.head nq).setWidth 128
  let v := c.head sq
  let hd : W32 := v.setWidth 32
  let (cause, status) := sendCheck ctx c false sk h hd
  let c := (c.pop nq (bit w 31)).pop sq (bit w 26)
  if cause ≠ 0 then
    let c := if sk then placeToken c (mkToken 0 status 3 ctx.addr ctx.view hd) else c
    recMsgErr c ctx cause 0 ctx.pos
  else
    let m : TxMsg := { hdr := stampHdr ctx h, row := if sk then none else some (v.setWidth 4096), rows := []
                       handle := if sk then some hd else none, addr := ctx.addr }
    { core := { c with ni := { c.ni with tx := c.ni.tx ++ [m] } } }

/-- DOWEL: checked, its value in bits [63:0] of the header; 4 cycles to the mesh, then 1 per hop (R339, R340, Table 3.5). -/
def dowelExec (ctx : Ctx) (op : SlotOp) (c : Core) : Eff :=
  let w := op.word
  let nq := 24 + sel w 33 32
  let vq := 16 + sel w 30 28
  let h : W128 := (c.head nq).setWidth 128
  let v : W64 := (c.head vq).setWidth 64
  let (cause, _) := sendCheck ctx c true false h 0
  let c := (c.pop nq (bit w 31)).pop vq (bit w 27)
  if cause ≠ 0 then recMsgErr c ctx cause 0 ctx.pos
  else
    let m : TxMsg := { hdr := put (stampHdr ctx h) 63 0 v.toNat, row := none, rows := [], handle := none, addr := ctx.addr
                       due := ctx.cycle + 4 }
    { core := { c with ni := { c.ni with tx := c.ni.tx ++ [m] } } }

/-- RECV: a request for a ring's oldest message (R358, R360). -/
def recvExec (ctx : Ctx) (op : SlotOp) (c : Core) : Eff :=
  let w := op.word
  let e := sel w 33 26
  match Tab.find ctx.decl.tags e with
  | some t =>
    if t.kind = 2 then
      let r : RecvReq := { entry := e, rq := sel w 25 23, hen := bit w 22, nq := sel w 21 20 }
      { core := { c with ni := { c.ni with recvs := c.ni.recvs ++ [r] } } }
    else recMsgErr c ctx 9 0 ctx.pos
  | none => recMsgErr c ctx 9 0 ctx.pos

/-- WOPEN: the entry opened onto the handle's slot, or left closed when a check fails (R352, R354). -/
def wopenExec (ctx : Ctx) (op : SlotOp) (c : Core) : Eff :=
  let w := op.word
  let e := sel w 33 26
  let q := 28 + sel w 25 24
  let h : W32 := (c.head q).setWidth 32
  let ok (d : Nat) := wopenOk ctx c d h
  let c := c.pop q (bit w 23)
  match windowDrawer ctx.decl e with
  | none => recMsgErr c ctx 9 0 ctx.pos
  | some d =>
    if ok d then { core := { c with ni := { c.ni with windows := Tab.set c.ni.windows e h } } }
    else recMsgErr { c with ni := { c.ni with windows := Tab.erase c.ni.windows e } } ctx 0xB 0 ctx.pos

/-- WCLOSE (R353, R354). -/
def wcloseExec (ctx : Ctx) (op : SlotOp) (c : Core) : Eff :=
  let e := sel op.word 33 26
  match windowDrawer ctx.decl e with
  | none => recMsgErr c ctx 9 0 ctx.pos
  | some _ => { core := { c with ni := { c.ni with windows := Tab.erase c.ni.windows e } } }

/-- A refusal of the update unit counted and recorded (R460); `src` is 0 for a message, 1 for a UPD. -/
def recUpdErr (c : Core) (ctx : Ctx) (cause src low : Nat) : Eff :=
  let r := c.upd.cnt
  { core := { c with upd := { c.upd with cnt := { r with
      updRefused := bump32 r.updRefused 1, sticky := sticky r.sticky 1
      firstUpdError := firstOf r.firstUpdError (BitVec.ofNat 32 (2 ^ 31 + (cause <<< 28) + (src <<< 27) + low % 2 ^ 24)) } } }
    ev := [{ code := 7, d0 := cause, d := ctx.core }] }

/-- The local entry: the valid update-unit entry of lowest number (R446). -/
def localEntry (decl : PartDecl) : Option Nat := (decl.tags.find? (fun p => p.2.kind == 4)).map (·.1)

/-- UPD: a gradient row and a parameter-slot handle handed to the update unit (R446, Table 11.6). -/
def updExec (ctx : Ctx) (op : SlotOp) (c : Core) : Eff :=
  let w := op.word
  let rq := sel w 33 31
  let hq := 28 + sel w 29 28
  let g : Row := (c.head rq).setWidth 4096
  let h : W32 := (c.head hq).setWidth 32
  let c := (c.pop rq (bit w 30)).pop hq (bit w 27)
  match localEntry ctx.decl, handleDecl ctx.decl h with
  | some e, some d =>
    if d.slotRows < 2 then recUpdErr c ctx 4 1 ctx.pos
    else
      let j : UpdJob := { upd := true, entry := e, handle := h, group := sel w 26 19, arg := 0, rows := [g], pos := ctx.pos }
      { core := { c with upd := { c.upd with jobs := c.upd.jobs ++ [j] } } }
  | _, _ => recUpdErr c ctx 4 1 ctx.pos

/-! ### Stray writes -/

/-- FIRST_STRAY_SRC (Table 9.10). -/
def straySrc (x : RxMsg) : W32 := BitVec.ofNat 32 (b2n x.remote * 2 ^ 31 + (hdrSpart x.hdr <<< 10) + hdrScore x.hdr)

/-- A stray write counted and recorded (R349, Table 14.18). -/
def recStray (c : Core) (x : RxMsg) (reason : Nat) : Eff :=
  let k := c.ni.cnt
  let ch := hdrVc x.hdr
  let w : W32 := BitVec.ofNat 32 (2 ^ 31 + (reason <<< 28) + (ch <<< 16) + hdrTag x.hdr)
  { core := { c with ni := { c.ni with cnt := { k with
      stray := k.stray.set! ch (bump32 (k.stray[ch]?.getD 0) 1)
      firstStray := firstOf k.firstStray w
      firstStraySrc := if bit k.firstStray 31 then k.firstStraySrc else straySrc x } } }
    ev := [{ code := 3, d := (straySrc x).toNat * 2 ^ 32 + w.toNat }] }

end Sys2Proof.Machine
end

