-- ==== Sys2Proof/Machine/Scratch.lean ====
section
/-!
DEFINITION. Machine/Scratch.lean: RD and WR (spec/06_sequencer.md Tables 6.5 and 6.7; spec/07_scratchpad.md R264, R270 to
R273, R276, R277, R281 to R284; spec/13_determinism.md R470, R473, R475).
-/

namespace Sys2Proof.Machine

open Sys2Proof

/-- One step of the digest CRC over a byte's bits (R473). -/
def crcBits : Nat → W64 → W64
  | 0, r => r
  | k + 1, r => crcBits k (if bit r 0 then (r >>> 1) ^^^ 0xC96C5795D7870F42#64 else r >>> 1)

/-- crc_step (R473). -/
def crcStep (r : W64) (b : Byte) : W64 := crcBits 8 (r ^^^ BitVec.ofNat 64 b.toNat)

/-- finish (R473). -/
def crcFinish (r : W64) : W64 := r ^^^ 0xFFFFFFFFFFFFFFFF#64

def crcFeed (r : W64) (bs : List Byte) : W64 := bs.foldl crcStep r

/-- The open interval closed at each boundary position at or before `p` that is not yet closed (R475). -/
def closeDigest (d : DigestState) (bounds : List Nat) (p : Nat) : DigestState :=
  bounds.foldl (fun d b => if b ≤ p && !(d.closed.any (fun x => x.1 == b))
    then { r := 0xFFFFFFFFFFFFFFFF#64, n := 0, closed := d.closed ++ [(b, d.r, d.n)] } else d) d

/-- A row fed to the core's digest (R473). -/
def digestRow (c : Core) (ctx : Ctx) (v : Row) : Core :=
  let d := closeDigest c.dig ctx.bounds ctx.pos
  { c with dig := { d with r := crcFeed d.r (bytesOf v 512), n := d.n + 1 } }

/-- The fields RD and WR share: their mode, row or handle queue, pop and offset with the counter added (R207, R264). -/
structure RowAddr where
  byHandle : Bool
  row : Nat
  hq : Nat
  hpop : Bool
  ofs : Nat
  deriving DecidableEq, Repr

/-- The address fields of an RD slot (Table 6.5). -/
def rdAddr (r : CcRegs) (w : SlotWord) : RowAddr :=
  let k := cntVal r (sel w 15 12)
  { byHandle := bit w 30, row := (sel w 29 16 + k) % 16384, hq := 28 + sel w 29 28, hpop := bit w 27
    ofs := (sel w 26 16 + k) % 2048 }

/-- The address fields of a WR slot (Table 6.7). -/
def wrAddr (r : CcRegs) (w : SlotWord) : RowAddr :=
  let k := cntVal r (sel w 13 10)
  { byHandle := bit w 28, row := (sel w 27 14 + k) % 16384, hq := 28 + sel w 27 26, hpop := bit w 25
    ofs := (sel w 24 14 + k) % 2048 }

/-- The cycle an awaited row of a slot is filled by writes of WR under way, if they fill it (R272). -/
def fillReady (c : Core) (h : W32) (f : Nat) : Option Nat :=
  let ms := c.sp.pend.filter (fun p => match p.mark with
    | some m => m.drawer == hDrawer h && m.slot == hSlot h && m.gen.toNat == hGen h
    | none => false)
  let c' := ms.foldl (fun c p => match p.mark with
    | some m => markRow c m
    | none => c) c
  if (c'.slot (hDrawer h) (hSlot h)).fill > f then some (ms.foldl (fun a p => max a p.due) 0) else none

/-- The unmet conditions of an RD (Table 3.4a). -/
def rdHolds (ctx : Ctx) (strict : Bool) (u : Nat) (w : SlotWord) (c : Core) : List Hold :=
  let a := rdAddr (slotRegs c u ctx.pos) w
  let qd := sel w 33 31
  let base := pushHold c qd u ctx.pops
  if a.byHandle then
    let ph := popHold c a.hq u ctx.cycle strict
    if ph ≠ [] then base ++ ph else
    let h : W32 := (c.head a.hq).setWidth 32
    let (k, row) := checkHandle ctx.decl c h a.ofs
    if k ≠ 0 then base
    else
      let guard := if genDist c h ≠ 0 then [{ cause := 4, slot := u }]
        else if a.ofs ≥ (c.slot (hDrawer h) (hSlot h)).fill then [{ cause := 4, slot := u, ready := fillReady c h a.ofs }] else []
      base ++ guard ++ bankHold c row u ctx.cycle
  else base ++ bankHold c a.row u ctx.cycle

/-- RD: one row by address or through a handle, visible 3 cycles later (R264, R271, R276, R281). -/
def rdExec (ctx : Ctx) (op : SlotOp) (c : Core) : Eff :=
  let u := op.unit.val
  let a := rdAddr (slotRegs c u ctx.pos) op.word
  let qd := sel op.word 33 31
  let out (c : Core) (v : Row) : Core := c.push qd ctx.cycle u (ctx.due 3 3) (v.setWidth 8192)
  let read (c : Core) (row : Nat) : Eff :=
    let e := recSram (useBank c row) ctx 0 row op.err
    if e.sramStop then e else { e with core := out e.core (c.sp.rows.get row) }
  if a.byHandle then
    let h : W32 := (c.head a.hq).setWidth 32
    let (k, row) := checkHandle ctx.decl c h a.ofs
    let c := c.pop a.hq a.hpop
    if k ≠ 0 then { core := out (recHandle c k u ctx.pos h) 0 }
    else
      let s := c.slot (hDrawer h) (hSlot h)
      let s' := { s with reads := s.reads + 1 }
      let c := { c with sp := { c.sp with slots := Tab.set c.sp.slots (slotKey (hDrawer h) (hSlot h)) s' } }
      let dr := (Tab.get ctx.decl.drawers (hDrawer h) {}).drainReads
      let c := if dr ≠ 0 ∧ s'.reads.toNat = dr then drainLater c (hDrawer h) (hSlot h) s.gen else c
      read c row
  else if rowGated ctx.decl a.row then (recGated (useBank c a.row) u ctx.pos).bind (fun c => { core := out c 0 })
  else read c a.row

/-- The rows a WR entry fills: one from a row queue, two from an accumulator-row or mask queue (Table 3.3). -/
def wrRows (q : Nat) (v : Vec) : List Row :=
  if q < 8 then [v.setWidth 4096] else [v.extractLsb' 0 4096, v.extractLsb' 4096 4096]

/-- The unmet conditions of a WR (Table 3.4a). -/
def wrHolds (ctx : Ctx) (strict : Bool) (u : Nat) (w : SlotWord) (c : Core) : List Hold :=
  let a := wrAddr (slotRegs c u ctx.pos) w
  let sq := sel w 33 30
  let n := if sq < 8 then 1 else 2
  let base := popHold c sq u ctx.cycle strict
  if a.byHandle then
    let ph := popHold c a.hq u ctx.cycle strict ++ (if bit w 8 then pushHold c (28 + sel w 7 6) u ctx.pops else [])
    if ph ≠ [] then base ++ ph else
    let h : W32 := (c.head a.hq).setWidth 32
    let (k, row) := checkHandle ctx.decl c h a.ofs
    let (k2, _) := checkHandle ctx.decl c h (a.ofs + n - 1)
    if k ≠ 0 ∨ k2 ≠ 0 then base
    else
      let soon := c.sp.drains.any (fun d => d.drawer == hDrawer h && d.slot == hSlot h) && genDist c h == 1
      let rdy : Option Nat := if soon then some (ctx.cycle + 1) else none
      let guard : List Hold := if writeGuarded ctx c h then [{ cause := 5, slot := u, ready := rdy }] else []
      base ++ guard ++ bankHold c row u ctx.cycle
  else base ++ bankHold c a.row u ctx.cycle

/-- WR: the head entry's rows written by address or through a handle, digested when the WR qualifies (R470, R271, R273,
R281); with HFWD the handle is passed on (Table 6.7; log entry 72). -/
def wrExec (ctx : Ctx) (op : SlotOp) (c : Core) : Eff :=
  let u := op.unit.val
  let w := op.word
  let a := wrAddr (slotRegs c u ctx.pos) w
  let sq := sel w 33 30
  let rows := wrRows sq (c.head sq)
  let h : W32 := (c.head a.hq).setWidth 32
  let c := c.pop sq (bit w 29)
  let c := if a.byHandle then c.pop a.hq a.hpop else c
  let dflag := match Tab.find ctx.decl.drawers (hDrawer h) with
    | some d => d.digest
    | none => false
  let c := if ctx.digestOn && (bit w 9 || (a.byHandle && dflag)) then rows.foldl (fun c r => digestRow c ctx r) c else c
  let c := if a.byHandle && bit w 8 then c.push (28 + sel w 7 6) ctx.cycle u (ctx.due 2 2) (h.setWidth 8192) else c
  if a.byHandle then
    let (k1, row) := checkHandle ctx.decl c h a.ofs
    let (k2, _) := checkHandle ctx.decl c h (a.ofs + rows.length - 1)
    let k := if k1 ≠ 0 then k1 else k2
    if k ≠ 0 then { core := recHandle c k u ctx.pos h }
    else
      let g : W16 := BitVec.ofNat 16 (hGen h)
      { core := (rows.zipIdx).foldl (fun c (v, i) =>
          writeRow (useBank c (row + i)) (ctx.due 2 2) (row + i) (some v)
            (some { drawer := hDrawer h, slot := hSlot h, gen := g, off := a.ofs + i })) c }
  else
    (rows.zipIdx).foldl (fun e (v, i) => e.bind (fun c =>
      let row := (a.row + i) % 16384
      if rowGated ctx.decl row then recGated (useBank c row) u ctx.pos
      else { core := writeRow (useBank c row) (ctx.due 2 2) row (some v) none })) { core := c }

end Sys2Proof.Machine
end

