-- ==== Sys2Proof/Machine/Array.lean ====
section
/-!
DEFINITION. Machine/Array.lean: WLOAD, WLOADT, WLOAD.S, WSWAP, MMUL, ACC, ACCZ, DRAIN, DRAINZ, their riders, and the two
events that end them (spec/04_array.md; spec/06_sequencer.md Tables 6.4 to 6.6).
-/

namespace Sys2Proof.Machine

open Sys2Proof

/-! ### Formats (Table 6.4) -/

def fmtIsMx (f : Nat) : Bool := f = 3 || f = 4 || f = 5 || f = 6 || f = 8
def fmtIs4 (f : Nat) : Bool := f = 8 || f = 9
def fmtIsBf16 (f : Nat) : Bool := f = 10
def fmtIsFloat8 (f : Nat) : Bool := 1 ≤ f && f ≤ 6

/-- The pairings of R123; a plane not loaded in the gang matches every input (R113). -/
def fmtPairs (inp plane : Nat) : Bool := plane = 0 || (fmtIsFloat8 inp && fmtIsFloat8 plane) || inp = plane

/-- The number of load indices of a format (Table 4.1). -/
def fmtIndices (f : Nat) : Nat := if fmtIs4 f then 64 else if fmtIsBf16 f then 256 else 128

/-- The exact value of an element's bits in an array format (Table 4.4). -/
def fmtDec (f x : Nat) : Fv :=
  match f with
  | 1 | 3 => decE4M3 x
  | 2 | 4 => decE5M2 x
  | 5 => decE3M2 x
  | 6 => decE2M3 x
  | 7 => ofIntV (sext 8 x)
  | 8 => decE2M1 x
  | 9 => ofIntV (sext 4 x)
  | 10 => decBF16 x
  | _ => .fin false 0 0

/-- The bits of element `b` of run `a` of a plane row: `a` counts plane rows of WLOAD, or columns of WLOADT (Table 4.1). -/
def planeBits (p : Plane) (a b : Nat) : Nat :=
  if fmtIs4 p.fmt then
    let y := (rbyte (p.rows.get (a / 4)) (128 * (a % 4) + b / 2)).toNat
    if b % 2 = 0 then y % 16 else y / 16
  else if fmtIsBf16 p.fmt then (elem 16 (p.rows.get a) b).toNat
  else (rbyte (p.rows.get (a / 2)) ((a % 2) * 256 + b)).toNat

/-- W[k][n] of a plane (R114). -/
def planeAt (p : Plane) (k n : Nat) : Fv := fmtDec p.fmt (if p.trans then planeBits p n k else planeBits p k n)

/-- S_W[b][n] of an MX plane, 1 on any other (R115, R123). -/
def planeScale (p : Plane) (b n : Nat) : Fv :=
  if fmtIsMx p.fmt then decE8M0 (rbyte (p.scales.get (b / 2)) ((b % 2) * 256 + n)).toNat else .fin false 1 0

/-- Element `k` of input vector `v` of an MMUL's row (R124): `half` chooses the half, `v` the vector of a 4-bit half. -/
def inputAt (f : Nat) (r : Row) (half : Bool) (v k : Nat) : Fv :=
  if fmtIs4 f then
    let e := (if half then 512 else 0) + 256 * v + k
    let y := (rbyte r (e / 2)).toNat
    fmtDec f (if e % 2 = 0 then y % 16 else y / 16)
  else if fmtIsBf16 f then fmtDec f (elem 16 r k).toNat
  else fmtDec f (rbyte r ((if half then 256 else 0) + k)).toNat

/-- Column `n` of a slice: the exact sum of R127, decided as R129 states. -/
def sliceCol (p : Plane) (x : Nat → Fv) (sx : Nat → Fv) (n : Nat) : Fv :=
  sumExact ((List.range 256).map (fun k => ((x k).mul (planeAt p k n)).mul ((sx (k / 32)).mul (planeScale p (k / 32) n))))

/-- The 256 exact columns of one slice; against a plane not loaded in the gang every column is +0 (R113). -/
def sliceCols (p : Plane) (x : Nat → Fv) (sx : Nat → Fv) : List Fv :=
  (List.range 256).map (fun n => if p.fmt = 0 then .fin false 0 0 else sliceCol p x sx n)

/-! ### Planes -/

/-- The plane that is the shadow. -/
def shadowOf (a : ArrayState) : Plane := if a.active then a.plane0 else a.plane1

def setShadow (a : ArrayState) (p : Plane) : ArrayState := if a.active then { a with plane0 := p } else { a with plane1 := p }

/-- The plane an MMUL of cycle `cyc` reads: a WSWAP of the same cycle has not yet acted for it (R119). -/
def activeOf (a : ArrayState) (cyc : Nat) : Plane :=
  if (a.active != (a.swapCycle == some cyc)) then a.plane1 else a.plane0

/-- The load a WL operation acts in: a new one, the one under way, or a restart (R116). The Boolean says restart. -/
def planeLoadFor (a : ArrayState) (fmt : Nat) (trans : Option Bool) : PlaneLoad × Bool :=
  let fresh : PlaneLoad := { fmt := fmt, trans := trans, idx := 0, parts := 0 }
  match a.load with
  | none => (fresh, false)
  | some l =>
    if l.fmt ≠ fmt then (fresh, true)
    else match trans, l.trans with
      | some t, some t' => if t = t' then (l, false) else (fresh, true)
      | some t, none => ({ l with trans := some t }, false)
      | none, _ => (l, false)

/-- Whether every index and, for MX formats, every scale part is written (R117). -/
def loadDone (l : PlaneLoad) : Bool :=
  l.idx.toNat % 2 ^ fmtIndices l.fmt == 2 ^ fmtIndices l.fmt - 1 && (!fmtIsMx l.fmt || l.parts == 15#4)

/-- A WL operation's effect on the array: the load's bookkeeping and the shadow's new contents (R114 to R117). -/
def loadPlane (a : ArrayState) (cyc fmt : Nat) (trans : Option Bool) (idx : Nat) (v : Row) : ArrayState :=
  let (l, restart) := planeLoadFor a fmt trans
  let was := !restart && a.load.isSome && loadDone l
  let l := match trans with
    | some _ => { l with idx := l.idx ||| BitVec.ofNat 256 (2 ^ idx) }
    | none => { l with parts := l.parts ||| BitVec.ofNat 4 (2 ^ (idx % 4)) }
  let p := shadowOf a
  let p := { p with fmt := fmt, trans := l.trans.getD false }
  let p := match trans with
    | some _ => { p with rows := p.rows.set idx v }
    | none => { p with scales := p.scales.set (idx % 4) v }
  let a := setShadow a p
  let a := if restart then { a with cnt := { a.cnt with planeRestarts := bump48 a.cnt.planeRestarts 1 } } else a
  if was then { a with load := some l }
  else { a with load := some l, complete := false, completeDue := if loadDone l then some (cyc + 5) else none }

/-- The unmet conditions of a WL slot (Table 3.4a). -/
def wlHolds (ctx : Ctx) (strict : Bool) (w : SlotWord) (c : Core) : List Hold :=
  if sel w 39 34 = 4 then
    if c.arr.complete || (!strict && (match c.arr.completeDue with
      | some d => decide (d ≤ ctx.cycle)
      | none => false)) then []
    else [{ cause := 9, slot := 2, ready := c.arr.completeDue.map (max ctx.cycle) }]
  else popHold c (sel w 33 31) 2 ctx.cycle strict

/-- WLOAD and WLOADT with index p, the counter added within the field and the index wrapped (R114, R207). -/
def wloadExec (ctx : Ctx) (op : SlotOp) (trans : Bool) (c : Core) : Eff :=
  let w := op.word
  let q := sel w 33 31
  let fmt := sel w 29 26
  let idx := ((sel w 25 18 + cntVal (slotRegs c 2 ctx.pos) (sel w 17 14)) % 256) % fmtIndices fmt
  let v : Row := (c.head q).setWidth 4096
  { core := { c.pop q (bit w 30) with arr := loadPlane c.arr ctx.cycle fmt (some trans) idx v } }

/-- WLOAD.S with scale part q, taken modulo 4 (R115). -/
def wloadSExec (ctx : Ctx) (op : SlotOp) (c : Core) : Eff :=
  let w := op.word
  let q := sel w 33 31
  let part := ((sel w 25 18 + cntVal (slotRegs c 2 ctx.pos) (sel w 17 14)) % 256) % 4
  let v : Row := (c.head q).setWidth 4096
  { core := { c.pop q (bit w 30) with arr := loadPlane c.arr ctx.cycle (sel w 29 26) none part v } }

/-- WSWAP: the planes exchange roles; the new shadow is complete (R118, R120). -/
def wswapExec (ctx : Ctx) (c : Core) : Eff :=
  let a := c.arr
  { core := { c with arr := { a with
      active := !a.active, swapCycle := some ctx.cycle, load := none, complete := true, completeDue := none
      cnt := { a.cnt with planeSwaps := bump48 a.cnt.planeSwaps 1 } } } }

/-- The shadow completes when its due cycle has come (R117). -/
def shadowComplete (cyc : Nat) (c : Core) : Core :=
  match c.arr.completeDue with
  | some d => if d ≤ cyc then { c with arr := { c.arr with complete := true, completeDue := none } } else c
  | none => c

/-! ### MMUL -/

/-- The unmet conditions of an MX slot (Table 3.4a). -/
def mxHolds (ctx : Ctx) (strict : Bool) (w : SlotWord) (c : Core) : List Hold :=
  popHold c (sel w 29 27) 3 ctx.cycle strict ++
    (if fmtIsMx (sel w 33 30) then popHold c (sel w 24 22) 3 ctx.cycle strict else [])

/-- MMUL: the exact slices of its input vectors against the active plane, left for the AC slot of its bundle (R123 to R129,
R133). -/
def mmulExec (ctx : Ctx) (op : SlotOp) (c : Core) : Eff :=
  let w := op.word
  let fmt := sel w 33 30
  let q := sel w 29 27
  let qs := sel w 24 22
  let g := (sel w 20 15 + cntVal (slotRegs c 3 ctx.pos) (sel w 14 11)) % 64
  let r : Row := (c.head q).setWidth 4096
  let s : Row := (c.head qs).setWidth 4096
  let p := activeOf c.arr ctx.cycle
  let n := if fmtIs4 fmt then 2 else 1
  let ok := fmtPairs fmt p.fmt
  let sx (v b : Nat) : Fv := if fmtIsMx fmt then decE8M0 (rbyte s (8 * ((g + v) % 64) + b)).toNat else .fin false 1 0
  let cols := (List.range n).map (fun v =>
    if ok then sliceCols p (fun k => inputAt fmt r (bit w 25) v k) (sx v) else List.replicate 256 .nan)
  let c := c.pop q (bit w 26)
  let c := if fmtIsMx fmt then c.pop qs (bit w 21) else c
  let cnt := if ok then c.arr.cnt else
    { c.arr.cnt with formatMismatches := bump48 c.arr.cnt.formatMismatches 1, sticky := sticky c.arr.cnt.sticky 4 }
  { core := { c with arr := { c.arr with latch := some { cols := cols, bf16 := fmtIsBf16 fmt }, cnt := cnt } } }

/-- A slice no ACC or ACCZ took in its cycle is discarded, counted (R134). -/
def dropLatch (c : Core) : Core :=
  match c.arr.latch with
  | none => c
  | some l => { c with arr := { c.arr with latch := none, cnt := { c.arr.cnt with
      slicesDiscarded := bump48 c.arr.cnt.slicesDiscarded l.cols.length, sticky := sticky c.arr.cnt.sticky 3 } } }

/-! ### Stochastic bits -/

/-- mix (section "Stochastic rounding"). -/
def srMix (z : W64) : W64 :=
  let z := z + 0xB5AD4ECEDA1CE2A9#64
  let z := (z ^^^ (z >>> 31)) * 0xD6E8FEB86659FD93#64
  let z := (z ^^^ (z >>> 27)) * 0xA3B19E5C47D26F0B#64
  z ^^^ (z >>> 33)

/-- sr_bits (section "Stochastic rounding"). -/
def srBits (seed : W64) (core slice arow elem : Nat) : W64 :=
  let a := BitVec.ofNat 64 (((core % 2 ^ 32) <<< 32) + slice % 2 ^ 32)
  let b := BitVec.ofNat 64 (((arow % 65536) <<< 8) + elem % 256)
  srMix (srMix (seed ^^^ a) ^^^ b)

def srLo (h : W64) : Nat := h.toNat % 2 ^ 32
def srHi (h : W64) : Nat := h.toNat >>> 32

/-! ### ACC, ACCZ, DRAIN, DRAINZ -/

/-- The drained row of an AC slot, its counter added (Table 6.6). -/
def acDrow (ctx : Ctx) (w : SlotWord) (c : Core) : Nat :=
  (sel w 17 7 + cntVal (slotRegs c 4 ctx.pos) (sel w 4 1)) % accRows ctx.decl

/-- The accumulated row of an AC slot, its counter added (Table 6.6). -/
def acArow (ctx : Ctx) (w : SlotWord) (c : Core) : Nat :=
  (sel w 28 18 + cntVal (slotRegs c 4 ctx.pos) (sel w 4 1)) % accRows ctx.decl

/-- Whether an AC OP drains, and whether it accumulates (Table 6.6). -/
def acDrains (o : Nat) : Bool := 3 ≤ o && o ≤ 8
def acAccs (o : Nat) : Bool := o = 1 || o = 2 || (5 ≤ o && o ≤ 8)

/-- The unmet conditions of an AC slot (Table 3.4a). -/
def acHolds (ctx : Ctx) (strict : Bool) (w : SlotWord) (c : Core) : List Hold :=
  let o := sel w 39 34
  let src := if acAccs o && bit w 33 then popHold c (8 + sel w 32 31) 4 ctx.cycle strict else []
  let dr := if acDrains o then
    let row := acDrow ctx w c
    let busy := c.arr.pend.filter (fun p => p.row == row && (strict || decide (ctx.cycle < p.due)))
    pushHold c (8 + sel w 6 5) 4 ctx.pops ++
      (if busy.isEmpty then [] else [{ cause := 8, slot := 4, ready := some (busy.foldl (fun a p => max a p.due) ctx.cycle) }])
  else []
  src ++ dr

/-- The 256 FP32 values of an accumulator row: as stored, or widened from BF16 in half width (R149). -/
def accWiden (half : Bool) (v : Vec) : Vec := if half then vecOf (fun i => (elem 16 v i).setWidth 32 <<< 16) else v

/-- DRAIN and DRAINZ (R149); a row of a gated half drains zeros (R281). -/
def drainExec (ctx : Ctx) (op : SlotOp) (z : Bool) (c : Core) : Eff :=
  let w := op.word
  let row := acDrow ctx w c
  let out (c : Core) (v : Vec) : Core := c.push (8 + sel w 6 5) ctx.cycle 4 (ctx.due 4 4) v
  if accGated ctx.decl row then (recGated c 4 ctx.pos).bind (fun c => { core := out c 0 })
  else
    let e := recSram c ctx 1 row op.err
    if e.sramStop then e else
    let c := out e.core (accWiden ctx.decl.halfWidth (c.arr.acc.get row))
    { e with core := if z then { c with arr := { c.arr with
        acc := c.arr.acc.set row 0, sliceCnt := c.arr.sliceCnt.set row 0 } } else c }

/-- One slice accumulated into one row: its index taken, the slice rounded, the write put under way (R128, R133, R136,
R141 to R143, R150). `cols` is the exact slice; from a queue it is exact FP32 and rounds to itself (R135). -/
def accOne (ctx : Ctx) (zero srSel mx bf16 : Bool) (row : Nat) (cols : List Fv) (c : Core) : Eff :=
  let a := c.arr
  let idx : W32 := if zero then 0 else a.sliceCnt.get row
  let seed := seedAt c ctx.pos
  let sr := srSel && !ctx.accNearest
  let vals := vecOf (fun n => encF32 (if sr && mx then .sr (srLo (srBits seed ctx.core idx.toNat row n)) else .rne) (cols.getD n .nan))
  let nonfin := (List.range 256).any (fun n => !isFinF (lane vals n))
  let cnt := if nonfin then { a.cnt with nonfiniteSlices := bump48 a.cnt.nonfiniteSlices 1, sticky := sticky a.cnt.sticky 0 } else a.cnt
  if accGated ctx.decl row then recGated { c with arr := { a with cnt := cnt } } 4 ctx.pos
  else
    let p : PendAcc := { due := if bf16 then ctx.due 17 18 else ctx.due 14 15, row := row, vals := vals, replace := zero,
                         sumSr := sr, seed := seed, slice := idx }
    { core := { c with arr := { a with
        cnt := { cnt with slices := bump48 cnt.slices 1 }
        sliceCnt := a.sliceCnt.set row (idx + 1)
        inflight := Tab.upd a.inflight row 0 (· + 1)
        pend := a.pend ++ [p] } } }

/-- ACC and ACCZ: the slices of the bundle's MMUL, or one accumulator-row entry (R133 to R135). Without an MMUL in the
core the operation has no effect (R134). -/
def accExec (ctx : Ctx) (op : SlotOp) (zero : Bool) (c : Core) : Eff :=
  let w := op.word
  let row := acArow ctx w c
  let srSel := bit w 29
  if bit w 33 then
    let q := 8 + sel w 32 31
    let v := c.head q
    accOne ctx zero srSel false false row ((List.range 256).map (fun n => decF32 (lane v n))) (c.pop q (bit w 30))
  else match c.arr.latch with
    | none => { core := c }
    | some l =>
      let c := { c with arr := { c.arr with latch := none } }
      (l.cols.zipIdx).foldl (fun e (cols, i) =>
        e.bind (accOne ctx zero srSel true l.bf16 ((row + i) % accRows ctx.decl) cols)) { core := c }

/-- ACC or ACCZ with a drain rider: the drain takes the row without this operation's slice (R138; log entry 72). -/
def accDrainExec (ctx : Ctx) (op : SlotOp) (zero dz : Bool) (c : Core) : Eff :=
  (drainExec ctx op dz c).bind (accExec ctx op zero)

/-- One column of an accumulation written into its row (R136): the stored bits, and whether it overflowed or made a NaN (log entry 72). -/
def accCol (half : Bool) (core : Nat) (p : PendAcc) (old : Vec) (n : Nat) : W32 × Bool × Bool :=
  let s := decF32 (lane p.vals n)
  let o := if half then decBF16 (elem 16 old n).toNat else decF32 (lane old n)
  let h := srBits p.seed core p.slice.toNat p.row n
  let sum := if p.replace then s else
    let t := sumExact [o, s]
    if t.isZero then .fin false 0 0 else t
  let v : W32 :=
    if half then BitVec.ofNat 32 (encBF16 (.sr (srHi h)) sum)
    else if p.replace then lane p.vals n
    else encF32 (if p.sumSr then .sr (srHi h) else .rne) sum
  let res := if half then decBF16 v.toNat else decF32 v
  (v, !p.replace && o.isFin && s.isFin && res.isInf, !p.replace && !o.isNan && !s.isNan && res.isNan)

/-- The oldest accumulation that is due writes its row (R136, R137, R144, R150). -/
def accWrite (half : Bool) (core cyc : Nat) (c : Core) : Core :=
  let a := c.arr
  match a.pend.find? (fun p => decide (p.due ≤ cyc)) with
  | none => c
  | some p =>
    let old := a.acc.get p.row
    let rs := (List.range 256).map (accCol half core p old)
    let val : Vec := if half then BitVec.ofNat 8192 (packNat 16 (fun n => ((rs.getD n (0, false, false)).1).setWidth 16) 256)
      else vecOf (fun n => (rs.getD n (0, false, false)).1)
    let ov := rs.any (fun r => r.2.1)
    let nn := rs.any (fun r => r.2.2)
    let nf := rs.any (fun r => if half then !(decBF16 r.1.toNat).isFin else !isFinF r.1)
    let k := a.cnt
    let k := if ov then { k with overflowSums := bump48 k.overflowSums 1, sticky := sticky k.sticky 1 } else k
    let k := if nn then { k with nanSums := bump48 k.nanSums 1, sticky := sticky k.sticky 2 } else k
    let first : W32 := BitVec.ofNat 32 (2 ^ 31 + (p.row <<< 16) + p.slice.toNat % 65536)
    let k := if nf then { k with firstNonfinite := firstOf k.firstNonfinite first } else k
    { c with arr := { a with
        acc := a.acc.set p.row val, pend := a.pend.erase p, cnt := k
        inflight := Tab.upd a.inflight p.row 0 (· - 1) } }

end Sys2Proof.Machine
end

