-- ==== Sys2Proof/Machine/Flags.lean ====
section
/-!
DEFINITION. Machine/Flags.lean: the counts and sticky bits a vector operation leaves (spec/05_vector.md R193, R195,
Table 5.9). The block has no processor flags; these are the status bits its operations set.
-/

namespace Sys2Proof.Machine

open Sys2Proof

/-- What an operation's lanes showed: a NaN from non-NaN inputs, an infinity from finite inputs, a conversion that
saturated, an I32 result that wrapped, a .SAT result that was clamped. -/
structure VFlags where
  nan : Bool := false
  inf : Bool := false
  cvt : Bool := false
  wrap : Bool := false
  sat : Bool := false
  deriving DecidableEq, Repr

def VFlags.or (a b : VFlags) : VFlags :=
  { nan := a.nan || b.nan, inf := a.inf || b.inf, cvt := a.cvt || b.cvt, wrap := a.wrap || b.wrap, sat := a.sat || b.sat }

/-- The flags of one F32 lane: its inputs and its result. -/
def laneFlags (ins : List W32) (res : W32) : VFlags :=
  { nan := isNanF res && !(ins.any isNanF), inf := isInfF res && ins.all isFinF }

/-- The vector record after an operation of engine `u` (slot 5 or 6) at position `pos` (Table 5.9). -/
def recVec (c : Core) (u pos : Nat) (f : VFlags) : Core :=
  let r := c.vrec
  let r := if u = 5 then { r with v0Ops := bump48 r.v0Ops 1 } else { r with v1Ops := bump48 r.v1Ops 1 }
  let fn : W32 := BitVec.ofNat 32 (2 ^ 31 + ((u - 5) <<< 30) + pos % 2 ^ 24)
  let r := if f.nan then { r with nanResults := bump48 r.nanResults 1, sticky := sticky r.sticky 0, firstNan := firstOf r.firstNan fn } else r
  let r := if f.inf then { r with infResults := bump48 r.infResults 1, sticky := sticky r.sticky 1 } else r
  let r := if f.cvt then { r with cvtSaturations := bump48 r.cvtSaturations 1, sticky := sticky r.sticky 2 } else r
  let r := if f.wrap then { r with intWraps := bump48 r.intWraps 1, sticky := sticky r.sticky 3 } else r
  let r := if f.sat then { r with intSaturations := bump48 r.intSaturations 1, sticky := sticky r.sticky 4 } else r
  { c with vrec := r }

/-- An exact integer result as 32 bits: wrapped, or clamped to −2^31 to 2^31 − 1 when `sat` (R169). -/
def intRes (sat : Bool) (z : Int) : W32 × VFlags :=
  let lo : Int := -(2 ^ 31 : Nat)
  let hi : Int := (2 ^ 31 : Nat) - 1
  let out := decide (z < lo) || decide (hi < z)
  if sat then (BitVec.ofInt 32 (max lo (min hi z)), { sat := out }) else (BitVec.ofInt 32 z, { wrap := out })

end Sys2Proof.Machine
end

