-- ==== Sys2Proof/Machine/Operands.lean ====
section
/-!
DEFINITION. Machine/Operands.lean: the operand forms of the vector slots: sources, views, destinations and tile rows
(spec/06_sequencer.md R210 to R212, Tables 6.8 to 6.11; spec/05_vector.md R157, R161, R162).
-/

namespace Sys2Proof.Machine

open Sys2Proof

/-- A vector input (Table 6.9). -/
inductive VSrc where
  | row (q : Nat) (pop : Bool) (view : Nat)
  | acc (q : Nat) (pop : Bool)
  | scal (q : Nat) (pop : Bool)
  | tile (t : Nat)
  | const (k : Nat)
  deriving DecidableEq, Repr

/-- A vector destination (Table 6.9). -/
inductive VDst where
  | queue (q : Nat)
  | tile (t : Nat)
  | none
  deriving DecidableEq, Repr

/-- Field A or B: eight bits; `none` for a reserved code. -/
def decAB (x : Nat) : Option VSrc :=
  if x ≥ 128 then (if x % 8 = 7 then none else some (.row ((x / 16) % 8) (x / 8 % 2 == 1) (x % 8)))
  else if x / 32 = 0 then (if x % 2 = 1 then none else some (.acc (8 + (x / 4) % 8) (x / 2 % 2 == 1)))
  else if x / 32 = 1 then (if x % 2 = 1 then none else some (.scal (16 + (x / 4) % 8) (x / 2 % 2 == 1)))
  else if x / 4 = 16 then some (.tile (x % 4))
  else if x / 8 = 12 ∧ x % 8 < 6 then some (.const (x % 8))
  else none

/-- Field C: six bits. -/
def decC (x : Nat) : Option VSrc :=
  if x / 16 = 0 then some (.acc (8 + (x / 2) % 8) (x % 2 == 1))
  else if x / 16 = 1 then some (.scal (16 + (x / 2) % 8) (x % 2 == 1))
  else if x / 16 = 2 then (if x / 8 % 2 = 0 ∧ x % 2 = 0 then some (.tile ((x / 2) % 4)) else none)
  else if x % 2 = 0 ∧ (x / 2) % 8 < 6 then some (.const ((x / 2) % 8)) else none

/-- Field D: five bits. -/
def decD (x : Nat) : Option VDst :=
  if x / 8 = 0 then some (.queue (8 + x % 8))
  else if x / 8 = 1 then some (.queue (x % 8))
  else if x / 8 = 2 then some (.queue (16 + x % 8))
  else if x / 4 = 6 then some (.tile (x % 4))
  else if x = 28 then some .none else none

/-- Field D4: four bits; a queue code names Q8 on for VFMA and VSEL, Q0 on for an MX conversion. -/
def decD4 (mx : Bool) (x : Nat) : Option VDst :=
  if x / 8 = 0 then some (.queue ((if mx then 0 else 8) + x % 8))
  else if x / 4 = 2 then some (.tile (x % 4))
  else if x = 12 then some .none else none

/-- The fields of a vector slot (Table 6.8). -/
structure VSlot where
  vop : Nat
  type : Nat
  var : Nat
  a : Nat
  b : Nat
  c : Nat
  d : Nat
  d4 : Nat
  trow : Nat
  tc : Nat
  deriving DecidableEq, Repr

def vslot (w : SlotWord) : VSlot :=
  { vop := sel w 39 34, type := sel w 33 32, var := sel w 31 29, a := sel w 28 21, b := sel w 20 13
    c := 2 * sel w 33 29 + sel w 12 12, d := sel w 12 8, d4 := sel w 11 8, trow := sel w 7 2, tc := sel w 1 0 }

/-- Whether an operation uses a chain register, named by TC (Table 6.10). -/
def vopChained (o : Nat) : Bool := (0x12 ≤ o && o ≤ 0x16) || o = 0x1E || o = 0x1F

/-- Whether an operation has three inputs (R212). -/
def vopThree (o : Nat) : Bool := (4 ≤ o && o ≤ 6) || o = 0x0A || (0x33 ≤ o && o ≤ 0x3E)

def vopMx (o : Nat) : Bool := 0x33 ≤ o && o ≤ 0x3E

/-- A VCVT target that takes a second input (Table 5.4). -/
def cvtTwo (t : Nat) : Bool := (3 ≤ t && t ≤ 0x0B) || (0x0E ≤ t && t ≤ 0x15)

/-- Whether an operation takes field B as an input operand (Table 6.10). -/
def vopUsesB (s : VSlot) : Bool :=
  let o := s.vop
  (1 ≤ o && o ≤ 0x0A) || (o = 0x0B && cvtTwo (8 * s.type + s.var)) || o = 0x13 || o = 0x17 || o = 0x1C || o = 0x1D ||
    (0x20 ≤ o && o ≤ 0x2F) || vopMx o

/-- Whether an operation takes field A as an input operand: all but NOP and VSR.GET. -/
def vopUsesA (o : Nat) : Bool := o ≠ 0 && o ≠ 0x1E

/-- The input operands of a slot, in the order A, B, C. -/
def vsrcs (s : VSlot) : List VSrc :=
  (if vopUsesA s.vop then (decAB s.a).toList else []) ++ (if vopUsesB s then (decAB s.b).toList else []) ++
    (if vopThree s.vop then (decC s.c).toList else [])

/-- The destination of a slot. -/
def vdst (s : VSlot) : VDst :=
  if vopThree s.vop then (decD4 (vopMx s.vop) s.d4).getD .none else (decD s.d).getD .none

/-- The tile row of a slot: TROW plus the counter TC names, modulo 64; a chained operation adds none (R157, Table 6.8). -/
def tileRow (r : CcRegs) (s : VSlot) : Nat :=
  if vopChained s.vop || s.tc = 0 then s.trow else (s.trow + (r.ctr[4 + s.tc]?.getD 0).toNat) % 64

/-- The scalar queue of a VMAXR's (m, r) or a VCOMPACT's count, when enabled (Table 6.10). -/
def vscalarDst (s : VSlot) : Option Nat :=
  if s.vop = 0x16 then (if s.b / 8 % 2 = 1 then some (16 + s.b % 8) else none)
  else if s.vop = 0x17 then (if s.type / 2 = 1 then some (16 + s.var) else none)
  else none

/-- A BF16 bit pattern widened exactly to FP32, a NaN becoming the canonical one (Table 5.1). -/
def widenBF16 (x : Nat) : W32 := if (decBF16 x).isNan then nan32 else BitVec.ofNat 32 (x <<< 16)

/-- Lane `i` of a row-queue entry in a view (Table 5.1). -/
def viewLane (v : Vec) (view i : Nat) : W32 :=
  match view with
  | 0 => widenBF16 (elem 16 v i).toNat
  | 1 => encF32 .rne (decE4M3 (elem 8 v i).toNat)
  | 2 => encF32 .rne (decE4M3 (elem 8 v (256 + i)).toNat)
  | 3 => encF32 .rne (decE5M2 (elem 8 v i).toNat)
  | 4 => encF32 .rne (decE5M2 (elem 8 v (256 + i)).toNat)
  | 5 => (elem 8 v i).signExtend 32
  | _ => (elem 8 v (256 + i)).signExtend 32

/-- Lane `i` of a constant (Table 5.1). -/
def constLane (k i : Nat) : W32 :=
  match k with
  | 0 => 0
  | 1 => 0xFFFFFFFF#32
  | 2 => BitVec.ofNat 32 i
  | 3 => one32
  | 4 => 0x7F800000#32
  | _ => 0xFF800000#32

/-- The engine of a vector slot: V0 in slot 5, V1 in slot 6. -/
def Core.eng (c : Core) (u : Nat) : VEng := if u = 5 then c.v0 else c.v1

def Core.setEng (c : Core) (u : Nat) (e : VEng) : Core := if u = 5 then { c with v0 := e } else { c with v1 := e }

/-- The 256 lanes an input gives (R161); a tile row as it stands, never waiting (R158). -/
def srcVec (c : Core) (u trow : Nat) : VSrc → Vec
  | .row q _ view => let v := c.head q; vecOf (viewLane v view)
  | .acc q _ => c.head q
  | .scal q _ => let w : W32 := (c.head q).setWidth 32; vecOf (fun _ => w)
  | .tile t => (c.eng u).tiles.get (64 * t + trow)
  | .const k => vecOf (constLane k)

/-- The pops an input makes. -/
def srcPop (c : Core) : VSrc → Core
  | .row q p _ => c.pop q p
  | .acc q p => c.pop q p
  | .scal q p => c.pop q p
  | _ => c

/-- The queue an input names, if any, and whether it pops it. -/
def VSrc.queue? : VSrc → Option (Nat × Bool)
  | .row q p _ => some (q, p)
  | .acc q p => some (q, p)
  | .scal q p => some (q, p)
  | _ => none

/-- A result of lanes or of a packed row, or a scalar, sent to a destination (R162): a queue entry visible from `due` on,
or a tile row. -/
def putDst (ctx : Ctx) (u trow a1 b0 : Nat) (d : VDst) (v : Vec) (c : Core) : Core :=
  match d with
  | .queue q => c.push q ctx.cycle u (ctx.due a1 b0) v
  | .tile t =>
    let e := c.eng u
    let p : PendTile := { due := ctx.due a1 b0, img := ctx.imgDue a1 b0, exec := ctx.cycle, key := 64 * t + trow, val := v }
    c.setEng u { e with pend := e.pend ++ [p] }
  | .none => c

end Sys2Proof.Machine
end

