-- ==== Sys2Proof/Machine/Transc.lean ====
section
/-!
DEFINITION. Machine/Transc.lean: the correctly rounded functions 2^a, log2, 1/sqrt, 1/a, sqrt, tanh, sigmoid and cos(pi a)
(spec/05_vector.md R172, Table 5.3; spec/11_collectives_update.md R447, R457). The algebraic ones are exact; the others are
evaluated in fixed point of 256 fraction bits and rounded once (log entry 24).
-/

namespace Sys2Proof.Machine

open Sys2Proof

/-- Fraction bits of the fixed-point evaluation. -/
def fpP : Nat := 256
/-- ln 2 in units of 2^-256. -/
def fpLn2 : Nat := 80260960185991308862233904206310070533990667611589946606122867505419956976171
/-- pi in units of 2^-256. -/
def fpPi : Nat := 363771576891766324280234942777729862653393377328392429958772151117938894466185

/-- The floor of the square root, one bit per step from bit `b` down. -/
def isqrtAux (n : Nat) : Nat → Nat → Nat
  | 0, r => if (r + 1) * (r + 1) ≤ n then r + 1 else r
  | b + 1, r => let t := r + 2 ^ (b + 1); isqrtAux n b (if t * t ≤ n then t else r)

def isqrt (n : Nat) : Nat := isqrtAux n (bitLen n / 2 + 1) 0

/-- A truncated positive magnitude with a sticky bit below it, rounded to FP32 to nearest-even. -/
def encTrunc (neg : Bool) (n : Nat) (e : Int) (exact : Bool) : W32 :=
  encF32 .rne (.fin neg (2 * n + (if exact then 0 else 1)) (e - 1))

/-- 1/a (VRCP, Table 5.3). -/
def rcpF (a : W32) : W32 :=
  match decF32 a with
  | .nan => nan32
  | .inf s => encF32 .rne (.fin s 0 0)
  | .fin s m e =>
    if m = 0 then encF32 .rne (.inf s)
    else let k := 64 + bitLen m; encTrunc s (2 ^ k / m) (-(k : Int) - e) (2 ^ k % m == 0)

/-- a / b, rounded once (R457). -/
def divF (a b : W32) : W32 :=
  match decF32 a, decF32 b with
  | .nan, _ => nan32
  | _, .nan => nan32
  | .inf _, .inf _ => nan32
  | .inf s, .fin t _ _ => encF32 .rne (.inf (s ^^ t))
  | .fin s _ _, .inf t => encF32 .rne (.fin (s ^^ t) 0 0)
  | .fin s m e, .fin t n f =>
    if n = 0 then (if m = 0 then nan32 else encF32 .rne (.inf (s ^^ t)))
    else if m = 0 then encF32 .rne (.fin (s ^^ t) 0 0)
    else let k := 64 + bitLen n; encTrunc (s ^^ t) ((m <<< k) / n) (e - f - (k : Int)) ((m <<< k) % n == 0)

/-- sqrt a (R447). -/
def sqrtF (a : W32) : W32 :=
  match decF32 a with
  | .nan => nan32
  | .inf s => if s then nan32 else a
  | .fin s m e =>
    if m = 0 then a else if s then nan32
    else
      let (m, e) := if e % 2 = 0 then (m, e) else (2 * m, e - 1)
      let x := m <<< 128
      let r := isqrt x
      encTrunc false r (e / 2 - 64) (r * r == x)

/-- 1/sqrt a (VRSQ, Table 5.3). -/
def rsqF (a : W32) : W32 :=
  match decF32 a with
  | .nan => nan32
  | .inf s => if s then nan32 else 0
  | .fin s m e =>
    if m = 0 then encF32 .rne (.inf s) else if s then nan32
    else
      let (m, e) := if e % 2 = 0 then (m, e) else (2 * m, e - 1)
      let x := 2 ^ 256 / m
      let r := isqrt x
      encTrunc false r (-128 - e / 2) (r * r * m == 2 ^ 256)

/-- e^x for fixed-point x in [0, 1): the exponential series. -/
def expSeries (x : Nat) : Nat → Nat → Nat → Nat → Nat
  | 0, _, _, acc => acc
  | n + 1, k, t, acc => let t' := (t * x) / (k <<< fpP); expSeries x n (k + 1) t' (acc + t')

def expFix (x : Nat) : Nat := expSeries x 70 1 (2 ^ fpP) (2 ^ fpP)

/-- 2^f for a fixed-point f in [0, 1). -/
def exp2Fix (f : Nat) : Nat := expFix ((f * fpLn2) >>> fpP)

/-- The series of artanh: sum of z^(2k+1)/(2k+1) for fixed-point z below 1/2. -/
def artanhSeries (z2 : Nat) : Nat → Nat → Nat → Nat → Nat
  | 0, _, _, acc => acc
  | n + 1, k, t, acc => let t' := (t * z2) >>> fpP; artanhSeries z2 n (k + 2) t' (acc + t' / k)

/-- ln x for a fixed-point x in [1, 2). -/
def lnFix (x : Nat) : Nat :=
  let o := 2 ^ fpP
  let z := ((x - o) <<< fpP) / (x + o)
  2 * artanhSeries ((z * z) >>> fpP) 90 3 z z

/-- A finite value as a fixed-point integer of 256 fraction bits, truncated. -/
def toFix (m : Nat) (e : Int) : Nat :=
  let k := e + 256
  if k ≥ 0 then m <<< k.toNat else m >>> (-k).toNat

/-- 2^a (VEXP2, Table 5.3). -/
def exp2F (a : W32) : W32 :=
  match decF32 a with
  | .nan => nan32
  | .inf s => if s then 0 else a
  | .fin s m e =>
    if m = 0 then one32
    else if e + (bitLen m : Int) > 9 then (if s then 0 else encF32 .rne (.inf false))
    else
      let x := toFix m e
      let ip := x >>> fpP
      let fr := x % 2 ^ fpP
      if x = 0 || (fr = 0 && e < -256) then one32
      else if s then
        if fr = 0 then encF32 .rne (.fin false 1 (-(ip : Int)))
        else encTrunc false (exp2Fix (2 ^ fpP - fr)) (-(ip : Int) - 1 - 256) false
      else if fr = 0 then encF32 .rne (.fin false 1 ip)
      else encTrunc false (exp2Fix fr) ((ip : Int) - 256) false

/-- log2 a (VLOG2, Table 5.3). -/
def log2F (a : W32) : W32 :=
  match decF32 a with
  | .nan => nan32
  | .inf s => if s then nan32 else a
  | .fin s m e =>
    if m = 0 then encF32 .rne (.inf true) else if s then nan32
    else
      let b := bitLen m
      let k : Int := e + (b : Int) - 1
      if m = 2 ^ (b - 1) then encF32 .rne (ofIntV k)
      else
        let x := m <<< (fpP + 1 - b)
        let l := ((lnFix x) <<< fpP) / fpLn2
        let v : Int := (k <<< fpP) + (l : Int)
        encTrunc (v < 0) v.natAbs (-256) false

/-- e^(-x) for x = m · 2^e below 2^8, as (F, k) standing for F · 2^-256 · 2^-k with F in (1/2, 1]. -/
def expNeg (m : Nat) (e : Int) : Nat × Nat :=
  let t := ((toFix m e) <<< fpP) / fpLn2
  let k := t >>> fpP
  let f := t % 2 ^ fpP
  ((exp2Fix (2 ^ fpP - f)) / 2, k)

/-- tanh a (VTANH, Table 5.3). -/
def tanhF (a : W32) : W32 :=
  match decF32 a with
  | .nan => nan32
  | .inf s => encF32 .rne (.fin s 1 0)
  | .fin s m e =>
    if m = 0 then a
    else if e + (bitLen m : Int) > 5 then encF32 .rne (.fin s 1 0)
    else if e + (bitLen m : Int) < -40 then encF32 .rne (.fin s ((m <<< 60) - 1) (e - 60))
    else
      let (f, k) := expNeg m (e + 1)
      let o := 2 ^ fpP
      let ex := f >>> k
      encTrunc s (((o - ex) <<< fpP) / (o + ex)) (-256) false

/-- 1/(1 + e^(-a)) (VSIG, Table 5.3). -/
def sigF (a : W32) : W32 :=
  match decF32 a with
  | .nan => nan32
  | .inf s => if s then 0 else one32
  | .fin s m e =>
    if m = 0 then half32
    else if e + (bitLen m : Int) > 7 then (if s then 0 else one32)
    else
      let o := 2 ^ fpP
      let (f, k) := expNeg m e
      let den := o + (f >>> k)
      if s then encTrunc false ((f <<< fpP) / den) (-256 - (k : Int)) false
      else encTrunc false ((o <<< fpP) / den) (-256) false

/-- The series of cos: alternating terms x^(2k)/(2k)! of a fixed-point x below pi. -/
def cosSeries (x2 : Nat) : Nat → Nat → Nat → Int → Int → Int
  | 0, _, _, _, acc => acc
  | n + 1, k, t, sg, acc =>
    let t' := (t * x2) / (((k + 1) * (k + 2)) <<< fpP)
    cosSeries x2 n (k + 2) t' (-sg) (acc - sg * (t' : Int))

/-- cos(pi · f) for f in [0, 1] (R457). -/
def cospiF (f : W32) : W32 :=
  match decF32 f with
  | .fin _ m e =>
    let x := toFix m e
    if x = 0 then one32
    else if x = 2 ^ (fpP - 1) then 0
    else if x ≥ 2 ^ fpP then encF32 .rne (.fin true 1 0)
    else
      let th := (x * fpPi) >>> fpP
      let c := cosSeries ((th * th) >>> fpP) 70 0 (2 ^ fpP) 1 (2 ^ fpP : Nat)
      encTrunc (c < 0) c.natAbs (-256) false
  | _ => nan32

end Sys2Proof.Machine
end

