-- ==== Sys2Proof/Machine/Vector.lean ====
section
/-!
DEFINITION. Machine/Vector.lean: the operations of V0 and V1 (spec/05_vector.md R155 to R192; spec/06_sequencer.md
R205, R210 to R212).
-/

namespace Sys2Proof.Machine

open Sys2Proof

/-- What a vector operation computes: its vector, row or scalar result, a second scalar, the engine's new chain value, pack
buffer and conversion count, and its flags. -/
structure VOut where
  res : Option Vec := none
  scal : Option W64 := none
  chain : Option W64 := none
  pack : Option (BitVec 2048) := none
  cvtInc : Bool := false
  flags : VFlags := {}
  deriving DecidableEq, Repr

/-- A lane-by-lane operation with its flags. -/
def lanewise (f : Nat → W32 × VFlags) : VOut :=
  let rs := (List.range 256).map f
  { res := some (vecOf (fun i => (rs.getD i (0, {})).1)), flags := rs.foldl (fun a r => a.or r.2) {} }

/-- A lane-by-lane F32 function of some inputs. -/
def laneF (ins : Nat → List W32) (g : List W32 → W32) : VOut :=
  lanewise (fun i => let r := g (ins i); (r, laneFlags (ins i) r))

/-- VADD, VSUB, VMUL (R167, R169): 0 add, 1 subtract, 2 multiply. -/
def vArith (k type : Nat) (a b : Vec) : VOut :=
  if type = 0 then
    laneF (fun i => [lane a i, lane b i]) (fun l =>
      let x := l.getD 0 0; let y := l.getD 1 0
      if k = 0 then addF x y else if k = 1 then subF x y else mulF x y)
  else lanewise (fun i =>
    let x := (lane a i).toInt; let y := (lane b i).toInt
    intRes (type = 2) (if k = 0 then x + y else if k = 1 then x - y else x * y))

/-- VFMA, one rounding (R167, R169): 0 F32, 1 I32, 2 I32.SAT. -/
def vFma (k : Nat) (a b c : Vec) : VOut :=
  if k = 0 then laneF (fun i => [lane a i, lane b i, lane c i]) (fun l => fmaF (l.getD 0 0) (l.getD 1 0) (l.getD 2 0))
  else lanewise (fun i => intRes (k = 2) ((lane a i).toInt * (lane b i).toInt + (lane c i).toInt))

/-- The larger or smaller of two lanes in a type (R168). -/
def maxMin (mx : Bool) (type : Nat) (x y : W32) : W32 :=
  if type = 0 then (if mx then maxF x y else minF x y)
  else
    let lt := if type = 3 then decide (x.toNat < y.toNat) else decide (x.toInt < y.toInt)
    if mx then (if lt then y else x) else (if lt then x else y)

/-- VMAX and VMIN. -/
def vMaxMin (mx : Bool) (type : Nat) (a b : Vec) : VOut :=
  lanewise (fun i => let r := maxMin mx type (lane a i) (lane b i)
                     (r, if type = 0 then laneFlags [lane a i, lane b i] r else {}))

/-- A relation code applied to an ordering: less, equal, unordered (R170). -/
def relHolds (rel : Nat) (lt eq un : Bool) : Bool :=
  match rel with
  | 0 => eq
  | 1 => !eq
  | 2 => lt
  | 3 => lt || eq
  | 4 => !lt && !eq && !un
  | _ => !lt && !un

/-- One lane's comparison in a type (R170). -/
def cmpLane (type rel : Nat) (x y : W32) : Bool :=
  if type = 0 then
    let a := decF32 x; let b := decF32 y
    relHolds rel (a.lt b) (a.eqv b) (a.isNan || b.isNan)
  else
    let lt := if type = 3 then decide (x.toNat < y.toNat) else decide (x.toInt < y.toInt)
    relHolds rel lt (x == y) false

def vCmp (type rel : Nat) (a b : Vec) : VOut :=
  { res := some (vecOf (fun i => if cmpLane type rel (lane a i) (lane b i) then 1 else 0)) }

/-- VSEL: lane from a where the mask is non-zero, else from b (R171). -/
def vSel (m a b : Vec) : VOut :=
  { res := some (vecOf (fun i => if lane m i ≠ 0 then lane a i else lane b i)) }

/-- A transcendental lane by lane (R172). -/
def vTrans (f : W32 → W32) (a : Vec) : VOut := laneF (fun i => [lane a i]) (fun l => f (l.getD 0 0))

/-! ### Conversions (Table 5.4) -/

/-- A value rounded to a narrow format with a largest encoding; the Boolean says it went beyond it. -/
def narrowBits (f : Fmt) (maxBits : Nat) (r : Rnd) (m : Nat) (e : Int) (s : Bool) : Nat × Bool :=
  let b := f.roundBits r s m e
  if b > maxBits then (maxBits, true) else (b, false)

/-- One lane to E4M3 (Table 5.4). -/
def toE4M3 (ns : Bool) (r : Rnd) (x : W32) : Nat × VFlags :=
  match decF32 x with
  | .nan => (0x7F, {})
  | .inf s => if ns then (0x7F, { nan := true }) else (0x7E + (if s then 128 else 0), { cvt := true })
  | .fin s m e =>
    let (b, o) := narrowBits fmtE4M3 0x7E r m e s
    if o && ns then (0x7F, { nan := true }) else (b + (if s then 128 else 0), { cvt := o })

/-- One lane to E5M2 (Table 5.4). -/
def toE5M2 (ns : Bool) (r : Rnd) (x : W32) : Nat × VFlags :=
  match decF32 x with
  | .nan => (0x7F, {})
  | .inf s => (0x7C + (if s then 128 else 0), {})
  | .fin s m e =>
    let (b, o) := narrowBits fmtE5M2 0x7B r m e s
    if o && ns then (0x7C + (if s then 128 else 0), { inf := true }) else (b + (if s then 128 else 0), { cvt := o })

/-- One lane to BF16 (Table 5.4). -/
def toBF16 (r : Rnd) (x : W32) : Nat × VFlags :=
  match decF32 x with
  | .nan => (0x7FC0, {})
  | .inf s => (0x7F80 + (if s then 32768 else 0), {})
  | .fin s m e =>
    let (b, o) := narrowBits fmtBF16 0x7F7F r m e s
    (b + (if s then 32768 else 0), { cvt := o })

/-- The element format of an MX code, its largest encoding, its sign bit and its emax: 0 E4M3, 1 E5M2, 2 E3M2, 3 E2M3,
4 E2M1 (R174). -/
def mxElem (k : Nat) : Fmt × Nat × Nat × Nat :=
  match k with
  | 0 => (fmtE4M3, 0x7E, 128, 8)
  | 1 => (fmtE5M2, 0x7B, 128, 15)
  | 2 => (fmtE3M2, 0x1F, 32, 4)
  | 3 => (fmtE2M3, 0x1F, 32, 2)
  | _ => (fmtE2M1, 0x7, 8, 2)

/-- One lane to an MX element under scale `sc` (R175). -/
def toMxElem (k : Nat) (r : Rnd) (sc : Nat) (x : W32) : Nat × VFlags :=
  let (f, mx, sg, _) := mxElem k
  if sc = 255 then (0, {}) else
  match decF32 x with
  | .nan => (0, {})
  | .inf s => (mx + (if s then sg else 0), { cvt := true })
  | .fin s m e =>
    let (b, o) := narrowBits f mx r m (e - ((sc : Int) - 127)) s
    (b + (if s then sg else 0), { cvt := o })

/-- The E8M0 scale of a block of values for element format `k` (R174). -/
def mxScale (k : Nat) (xs : List W32) : Nat :=
  let (_, _, _, emax) := mxElem k
  let vs := xs.map decF32
  if vs.any (fun v => !v.isFin) then 255
  else
    let lg := vs.foldl (fun (a : Option Int) v => match v with
      | .fin _ m e => if m = 0 then a else
          let l := e + (bitLen m : Int) - 1
          some (match a with
            | none => l
            | some b => max b l)
      | _ => a) none
    match lg with
    | none => 0
    | some l => (min 254 (max 0 (l - (emax : Int) + 127))).toNat

/-- The 32-lane block `b` of a vector. -/
def block (v : Vec) (b : Nat) : List W32 := (List.range 32).map (fun i => lane v (32 * b + i))

/-- F32 to I32 (Table 5.4). -/
def toI32 (r : Rnd) (x : W32) : W32 × VFlags :=
  match decF32 x with
  | .nan => (0, {})
  | .inf s => (if s then 0x80000000#32 else 0x7FFFFFFF#32, { cvt := true })
  | .fin s m e =>
    let (n, fr, k) := splitAt m e 0
    let n := match r with
      | .tz => n
      | _ => if 2 * fr > 2 ^ k || (2 * fr = 2 ^ k && k > 0 && n % 2 = 1) then n + 1 else n
    let z : Int := if s then -(n : Int) else n
    if z < -(2 ^ 31 : Nat) then (0x80000000#32, { cvt := true })
    else if z > (2 ^ 31 : Nat) - 1 then (0x7FFFFFFF#32, { cvt := true }) else (BitVec.ofInt 32 z, {})

/-- An integer clamped to a range and taken modulo `2^w` (Table 5.4, .I8, .U8, .I4). -/
def clampTo (lo hi : Int) (w : Nat) (z : Int) : Nat × VFlags :=
  ((max lo (min hi z)).emod (2 ^ w : Nat) |>.toNat, { cvt := decide (z < lo) || decide (hi < z) })

/-- A row of `n` elements of `w` bits with its flags. -/
def packRow (w n : Nat) (f : Nat → Nat × VFlags) : Vec × VFlags :=
  let rs := (List.range n).map f
  (BitVec.ofNat 8192 (packNat w (fun i => BitVec.ofNat w (rs.getD i (0, {})).1) n), rs.foldl (fun a r => a.or r.2) {})

/-- Lane `i` of a, or lane `i − 256` of b. -/
def abLane (a b : Vec) (i : Nat) : W32 := if i < 256 then lane a i else lane b (i - 256)

/-- The rounding of element `i` of a two-source conversion: nearest, or stochastic with the conversion counter's bits
(R178). -/
def cvtRnd (sr : Bool) (h : Nat → W64) (i : Nat) : Rnd :=
  if sr then (if i < 256 then .sr (srLo (h i)) else .sr (srHi (h (i - 256)))) else .rne

/-- A half row of 4-bit elements: into the pack buffer, or as the high half of a pushed row (R176, R177). -/
def halfRow (hi : Bool) (pk : BitVec 2048) (f : Nat → Nat × VFlags) : VOut :=
  let (v, fl) := packRow 4 512 f
  if hi then { res := some (BitVec.ofNat 8192 (pk.toNat + ((v.toNat % 2 ^ 2048) <<< 2048))), pack := some 0, flags := fl }
  else { pack := some (v.setWidth 2048), flags := fl }

/-- VCVT to the targets of Table 6.11. `narrow` says that A is a narrow float view, `i8` that it is an I8 view. -/
def vCvt (t : Nat) (narrow i8 : Bool) (h : Nat → W64) (pk : BitVec 2048) (a b : Vec) : VOut :=
  let two (f : Nat → Nat × VFlags) : VOut := let (v, fl) := packRow 8 512 f; { res := some v, flags := fl }
  match t with
  | 0x00 => if narrow then { res := some a } else { res := some (vecOf (fun i => encF32 .rne (ofIntV (lane a i).toInt))) }
  | 0x01 => if i8 then { res := some a } else lanewise (fun i => toI32 .rne (lane a i))
  | 0x02 => lanewise (fun i => toI32 .tz (lane a i))
  | 0x03 => two (fun i => clampTo (-128) 127 8 (abLane a b i).toInt)
  | 0x04 => two (fun i => clampTo 0 255 8 ((abLane a b i).toNat : Int))
  | 0x05 => halfRow false pk (fun i => clampTo (-8) 7 4 (abLane a b i).toInt)
  | 0x06 => halfRow true pk (fun i => clampTo (-8) 7 4 (abLane a b i).toInt)
  | 0x0C => let (v, fl) := packRow 16 256 (fun i => toBF16 .rne (lane a i)); { res := some v, flags := fl }
  | 0x0D => let (v, fl) := packRow 16 256 (fun i => toBF16 (cvtRnd true h i) (lane a i)); { res := some v, flags := fl, cvtInc := true }
  | 0x0E => two (fun i => toE4M3 false .rne (abLane a b i))
  | 0x0F => { two (fun i => toE4M3 false (cvtRnd true h i) (abLane a b i)) with cvtInc := true }
  | 0x10 => two (fun i => toE4M3 true .rne (abLane a b i))
  | 0x11 => { two (fun i => toE4M3 true (cvtRnd true h i) (abLane a b i)) with cvtInc := true }
  | 0x12 => two (fun i => toE5M2 false .rne (abLane a b i))
  | 0x13 => { two (fun i => toE5M2 false (cvtRnd true h i) (abLane a b i)) with cvtInc := true }
  | 0x14 => two (fun i => toE5M2 true .rne (abLane a b i))
  | 0x15 => { two (fun i => toE5M2 true (cvtRnd true h i) (abLane a b i)) with cvtInc := true }
  | _ =>
    let k := t - 7
    { res := some (vecOf (fun j => if j < 8 then BitVec.ofNat 32 (mxScale k (block a j))
        else if j < 16 then BitVec.ofNat 32 (mxScale k (block b (j - 8))) else 0)) }

/-- The MX element conversions, VOP 0x33 to 0x3E (R175, R176). -/
def vCvtMx (o : Nat) (h : Nat → W64) (pk : BitVec 2048) (a b s : Vec) : VOut :=
  let sr := decide (o ≥ 0x39)
  let k := if sr then o - 0x39 else o - 0x33
  let el := if k < 4 then k else 4
  let f (i : Nat) : Nat × VFlags := toMxElem el (cvtRnd sr h i) ((lane s (i / 32)).toNat % 256) (abLane a b i)
  let out := if k < 4 then (let (v, fl) := packRow 8 512 f; { res := some v, flags := fl }) else halfRow (k = 5) pk f
  { out with cvtInc := sr }

/-! ### Scans and reductions -/

/-- A sum of terms in a scan's type: exact and rounded once, wrapped, or clamped (R182). -/
def scanSum (type : Nat) (ts : List W32) : W32 × VFlags :=
  if type = 0 then let r := sumF ts; (r, laneFlags ts r)
  else intRes (type = 2) (ts.foldl (fun z t => z + t.toInt) 0)

/-- The first lane of the segment that lane `i` lies in, if a segment starts at or below it (R183). -/
def segStart (s : Vec) : Nat → Option Nat
  | 0 => if lane s 0 ≠ 0 then some 0 else none
  | i + 1 => if lane s (i + 1) ≠ 0 then some (i + 1) else segStart s i

/-- VSCAN and VSEGSCAN (R182, R183). `seg` is the segment-start mask of VSEGSCAN (log entry 72). -/
def vScan (type : Nat) (exc st : Bool) (seg : Option Vec) (chain : W64) (a : Vec) : VOut :=
  let carry : List W32 := [if st then 0 else chain.setWidth 32]
  let lanes := (List.range 256).map (lane a)
  let terms (i n : Nat) : List W32 :=
    match seg with
    | some s => match segStart s i with
      | some b => (lanes.take n).drop b
      | none => carry ++ lanes.take n
    | none => carry ++ lanes.take n
  let out := lanewise (fun i => scanSum type (terms i (if exc then i else i + 1)))
  let last := scanSum type (terms 255 256)
  { out with chain := some (last.1.setWidth 64), flags := out.flags.or last.2 }

/-- The rank of a value for VARGMAX or VARGMIN: NaN above everything, or below everything (R185). -/
def argRank (mx : Bool) (type : Nat) (x : W32) : Int :=
  if type = 0 then
    if isNanF x then (if mx then (2 ^ 40 : Nat) else -(2 ^ 40 : Nat))
    else if bit x 31 then -((x.toNat % 2 ^ 31 : Nat) : Int) - 1 else x.toNat
  else if type = 3 then x.toNat else x.toInt

/-- Whether the pair (x, i) wins over (y, j): a better rank, or the same and a lower index (R186). -/
def argBeats (mx : Bool) (type : Nat) (x : W32) (i : W32) (y : W32) (j : W32) : Bool :=
  let r := argRank mx type x; let s := argRank mx type y
  if r = s then decide (i.toNat < j.toNat) else if mx then decide (s < r) else decide (r < s)

/-- VARGMAX and VARGMIN (R184 to R187). -/
def vArg (mx : Bool) (type : Nat) (st : Bool) (base : W32) (chain : W64) (a : Vec) : VOut :=
  let cand := (List.range 256).map (fun i => (lane a i, base + BitVec.ofNat 32 i))
  let old : W32 × W32 := ((chain >>> 32).setWidth 32, chain.setWidth 32)
  let start := if st then cand.getD 0 (0, 0) else old
  let w := cand.foldl (fun (b : W32 × W32) x => if argBeats mx type x.1 x.2 b.1 b.2 then x else b) start
  let v := if type = 0 ∧ isNanF w.1 then nan32 else w.1
  let r : W64 := BitVec.ofNat 64 (v.toNat * 2 ^ 32 + w.2.toNat)
  { scal := some r, chain := some r }

/-- VMAXR (R188). -/
def vMaxr (st : Bool) (chain : W64) (s : Vec) : VOut :=
  let mOld : W32 := if st then 0xFF800000#32 else chain.setWidth 32
  let lOld : W32 := if st then 0 else (chain >>> 32).setWidth 32
  let xs := (List.range 256).map (lane s)
  let mNew := xs.foldl maxF mOld
  let fin (p : Nat → W32) (r l : W32) : VOut :=
    { res := some (vecOf p), scal := some (BitVec.ofNat 64 (mNew.toNat * 2 ^ 32 + r.toNat))
      chain := some (BitVec.ofNat 64 (l.toNat * 2 ^ 32 + mNew.toNat)) }
  if mNew = 0xFF800000#32 then fin (fun _ => 0) one32 lOld
  else if isNanF mNew || mNew = 0x7F800000#32 then
    { fin (fun _ => nan32) nan32 nan32 with flags := { nan := !(isNanF mOld || isNanF lOld || xs.any isNanF) } }
  else
    let r := exp2F (subF mOld mNew)
    let ps := xs.map (fun x => exp2F (subF x mNew))
    let l := encF32 .rne (sumExact ((decF32 lOld).mul (decF32 r) :: ps.map decF32))
    { fin (fun i => ps.getD i 0) r l with flags := laneFlags (lOld :: xs) l }

/-- VPERM by VOP and parameter (R189). -/
def vPerm (o k : Nat) (hi : Bool) (a b : Vec) : VOut :=
  let f (i : Nat) : W32 :=
    if o = 0x18 then lane a ((i + k) % 256)
    else if o = 0x19 then lane a (255 - i)
    else if o = 0x1A then lane a (i ^^^ 2 ^ (k % 8))
    else if o = 0x1B then lane a (k % 256)
    else if o = 0x1C then let h := (if hi then 128 else 0) + i / 2; if i % 2 = 0 then lane a h else lane b h
    else if o = 0x1D then let t := if hi then 1 else 0; if i < 128 then lane a (2 * i + t) else lane b (2 * (i - 128) + t)
    else if o < 0x28 then if i < k then lane b (256 - k + i) else lane a (i - k)
    else if i + k < 256 then lane a (i + k) else lane b (i + k - 256)
  { res := some (vecOf f) }

/-- VCOMPACT (R190). -/
def vCompact (a m : Vec) : VOut :=
  let keep := ((List.range 256).filter (fun i => lane m i ≠ 0)).map (lane a)
  { res := some (vecOf (fun i => keep.getD i 0)), scal := some (BitVec.ofNat 64 keep.length) }

/-- VSR.SUM, VSR.MAX, VSR.MIN: 0, 1, 2 (R191). -/
def vReduce (k type : Nat) (a : Vec) : VOut :=
  let xs := (List.range 256).map (lane a)
  let (r, fl) := if k = 0 then scanSum type xs
    else (xs.drop 1 |>.foldl (fun x y => maxMin (k = 1) type x y) (xs.getD 0 0), {})
  { scal := some (r.setWidth 64), flags := fl }

/-! ### One vector slot -/

/-- The latency of a vector operation, A1 and B0 (Table 5.2). -/
def vLat (o : Nat) : Nat × Nat :=
  if 4 ≤ o && o ≤ 6 then (5, 5)
  else if 0x0C ≤ o && o ≤ 0x11 then (18, 16)
  else if o = 0x12 || o = 0x17 || (0x30 ≤ o && o ≤ 0x32) then (10, 10)
  else if o = 0x13 then (12, 12)
  else if o = 0x14 || o = 0x15 then (11, 11)
  else if o = 0x16 then (24, 22)
  else (4, 4)

/-- A view of an input: a narrow float view, an I8 view, or a 32-bit one. -/
def srcNarrow : VSrc → Bool
  | .row _ _ v => decide (v ≤ 4)
  | _ => false
def srcI8 : VSrc → Bool
  | .row _ _ v => decide (5 ≤ v)
  | _ => false

/-- The result of a vector slot's operation over its inputs `xs`. -/
def vCompute (ctx : Ctx) (c : Core) (u : Nat) (s : VSlot) (srcs : List VSrc) (xs : List Vec) : VOut :=
  let a := xs.getD 0 0
  let b := xs.getD 1 0
  let d := xs.getD 2 0
  let e := c.eng u
  let regs := slotRegs c u ctx.pos
  let chain := e.chain[s.tc]?.getD 0
  let st := decide (s.var ≥ 4)
  let exc := decide (s.var % 2 = 1)
  let seed := seedAt c ctx.pos
  let h (i : Nat) : W64 := srBits seed ctx.core e.cvt.toNat (0x8000 + (u - 5)) i
  let o := s.vop
  if o = 1 || o = 2 || o = 3 then vArith (o - 1) s.type a b
  else if o = 4 || o = 5 || o = 6 then vFma (o - 4) a b d
  else if o = 7 || o = 8 then vMaxMin (o = 7) s.type a b
  else if o = 9 then vCmp s.type s.var a b
  else if o = 0x0A then vSel a b d
  else if o = 0x0B then
    let v := srcs.getD 0 (.const 0)
    vCvt (8 * s.type + s.var) (srcNarrow v) (srcI8 v) h e.pack a b
  else if o = 0x0C then vTrans exp2F a
  else if o = 0x0D then vTrans log2F a
  else if o = 0x0E then vTrans rsqF a
  else if o = 0x0F then vTrans rcpF a
  else if o = 0x10 then vTrans tanhF a
  else if o = 0x11 then vTrans sigF a
  else if o = 0x12 then vScan s.type exc st none chain a
  else if o = 0x13 then vScan s.type exc st (some b) chain a
  else if o = 0x14 || o = 0x15 then vArg (o = 0x14) s.type st (BitVec.ofNat 32 (cntVal regs (s.b % 16))) chain a
  else if o = 0x16 then vMaxr st chain a
  else if o = 0x17 then vCompact a b
  else if o = 0x18 || o = 0x1A || o = 0x1B then vPerm o s.b false a b
  else if o = 0x19 || o = 0x1C || o = 0x1D then vPerm o 0 (s.var % 2 = 1) a b
  else if o = 0x1E then { scal := some chain }
  else if o = 0x1F then
    match srcs.getD 0 (.const 0) with
    | .scal q _ => { chain := some ((c.head q).setWidth 64) }
    | _ => {}
  else if 0x20 ≤ o && o ≤ 0x2F then vPerm o ((o % 8) * 32 + s.type * 8 + s.var) false a b
  else if 0x30 ≤ o && o ≤ 0x32 then vReduce (o - 0x30) s.type a
  else if vopMx o then vCvtMx o h e.pack a b d
  else {}

/-- Whether an operation's destination field takes its scalar result (R162). -/
def vopScalarOut (o : Nat) : Bool := o = 0x14 || o = 0x15 || o = 0x1E || (0x30 ≤ o && o ≤ 0x32)

/-- The handle rider of the bundle, for this engine: source queue, pop and destination queue (R163, R205). -/
def riderOf (rider : BitVec 9) (u : Nat) : Option (Nat × Bool × Nat) :=
  if bit rider 8 && (b2n (bit rider 7) = u - 5) then some (28 + sel rider 6 5, bit rider 4, 28 + sel rider 3 2) else none

/-- The queues a vector slot pushes (R79). -/
def vPushes (s : VSlot) : List Nat :=
  (match vdst s with
    | .queue q => [q]
    | _ => []) ++ (vscalarDst s).toList

/-- The unmet conditions of a vector slot: queue heads, space, the rider, and in an interlocked run the tile rows whose
value is late (Table 3.4a, R489). -/
def vHolds (ctx : Ctx) (strict : Bool) (u : Nat) (rider : BitVec 9) (w : SlotWord) (c : Core) : List Hold :=
  let s := vslot w
  let srcs := vsrcs s
  let trow := tileRow (slotRegs c u ctx.pos) s
  let pops := srcs.flatMap (fun x => match x.queue? with
    | some (q, _) => popHold c q u ctx.cycle strict
    | none => [])
  let late := if ctx.img.isNone then [] else srcs.flatMap (fun x => match x with
    | .tile t => ((c.eng u).pend.filter (fun p => p.key == 64 * t + trow && decide (p.img ≤ ctx.cycle) && decide (ctx.cycle < p.due))).map
        (fun p => { cause := 1, slot := u, ready := some p.due })
    | _ => [])
  let rid := match riderOf rider u with
    | some (q, _, d) => popHold c q u ctx.cycle strict ++ pushHold c d u ctx.pops
    | none => []
  pops ++ late ++ (vPushes s).flatMap (fun q => pushHold c q u ctx.pops) ++ rid

/-- What a computed result does: inputs popped, chain register, pack buffer and conversion count updated, the result sent on,
the rider's handle passed on, the record counted (R161 to R163, R193). -/
def vDeliver (ctx : Ctx) (op : SlotOp) (out : VOut) (c : Core) : Core :=
  let u := op.unit.val
  let s := vslot op.word
  let trow := tileRow (slotRegs c u ctx.pos) s
  let (a1, b0) := vLat s.vop
  let rid := (riderOf op.rider u).map (fun (q, p, d) => (q, p, d, c.head q))
  let c := (vsrcs s).foldl srcPop c
  let e := c.eng u
  let e := { e with
    chain := match out.chain with
      | some v => e.chain.setIfInBounds s.tc v
      | none => e.chain
    pack := out.pack.getD e.pack
    cvt := if out.cvtInc then e.cvt + 1 else e.cvt }
  let c := c.setEng u e
  let main : Option Vec := if vopScalarOut s.vop then out.scal.map (·.setWidth 8192) else out.res
  let c := match main with
    | some v => putDst ctx u trow a1 b0 (vdst s) v c
    | none => c
  let c := match vscalarDst s, out.scal with
    | some q, some v => c.push q ctx.cycle u (ctx.due a1 b0) (v.setWidth 8192)
    | _, _ => c
  let c := match rid with
    | some (q, p, d, h) => (c.pop q p).push d ctx.cycle u (ctx.due a1 b0) h
    | none => c
  recVec c u ctx.pos out.flags

/-- A vector slot executed: its inputs' 256 lanes taken, its result computed and delivered. -/
def vExec (ctx : Ctx) (op : SlotOp) (c : Core) : Eff :=
  let u := op.unit.val
  let s := vslot op.word
  let trow := tileRow (slotRegs c u ctx.pos) s
  { core := vDeliver ctx op (vCompute ctx c u s (vsrcs s) ((vsrcs s).map (srcVec c u trow))) c }

end Sys2Proof.Machine
end

