-- ==== Sys2Proof/Machine/Slots.lean ====
section
/-!
DEFINITION. Machine/Slots.lean: the ten slots together: which slot words are encoding faults (Table 6.16), the unmet
conditions and the execution of any slot, a core's end of cycle and its results becoming visible (spec/03_core_row.md
R84 to R108; spec/06_sequencer.md R206 to R229).
-/

namespace Sys2Proof.Machine

open Sys2Proof

/-! ### Encoding faults of one slot (Table 6.16) -/

/-- What a view must be for an operation: 0 float views, 1 integer views, 2 any (R165). -/
def viewOk (cls : Nat) (s : VSrc) : Bool :=
  match s with
  | .row _ _ v => cls = 2 || (cls = 0 && v ≤ 4) || (cls = 1 && v ≥ 5)
  | _ => true

/-- What a destination must be: 0 lanes (Q8 to Q15 or a tile row), 1 a row queue, 2 a scalar queue, 3 none (R162). -/
def dstOk (cls : Nat) (d : VDst) : Bool :=
  match d with
  | .none => true
  | .tile _ => cls = 0
  | .queue q => (cls = 0 && 8 ≤ q && q < 16) || (cls = 1 && q < 8) || (cls = 2 && 16 ≤ q && q < 24)

/-- TYPE codes each operation permits (Table 5.2, Table 6.10). -/
def vTypeOk (s : VSlot) : Bool :=
  let o := s.vop
  if 1 ≤ o && o ≤ 3 then s.type ≤ 2
  else if o = 7 || o = 8 then s.type ≠ 2
  else if o = 9 then s.type ≠ 2 && s.var ≤ 5
  else if (0x0C ≤ o && o ≤ 0x11) || o = 0x16 then s.type = 0
  else if o = 0x12 || o = 0x13 then s.type ≤ 2
  else if o = 0x14 || o = 0x15 then s.type ≠ 2
  else if o = 0x30 then s.type ≤ 1
  else if o = 0x31 || o = 0x32 then s.type ≠ 2
  else if o = 0x0B then 8 * s.type + s.var ≤ 0x15
  else true

/-- The class of views an operation takes. -/
def vViewClass (s : VSlot) : Nat :=
  let o := s.vop
  let t := 8 * s.type + s.var
  if o = 4 then 0
  else if o = 5 || o = 6 then 1
  else if o = 0x0A || o = 0x17 || (0x18 ≤ o && o ≤ 0x1D) || (0x20 ≤ o && o ≤ 0x2F) then 2
  else if o = 0x0B then (if t = 0x01 || (0x03 ≤ t && t ≤ 0x06) then 1 else 0)
  else if vopMx o then 0
  else if s.type = 0 then 0 else 1

/-- The class of destinations an operation takes. -/
def vDstClass (s : VSlot) : Nat :=
  let o := s.vop
  let t := 8 * s.type + s.var
  if vopScalarOut o then 2
  else if o = 0x1F then 3
  else if o = 0x0B then (if t ≤ 2 || (7 ≤ t && t ≤ 0x0B) then 0 else if t = 5 then 3 else 1)
  else if vopMx o then (if o = 0x37 || o = 0x3D then 3 else 1)
  else 0

/-- Whether a vector slot is an encoding fault. -/
def vBad (w : SlotWord) : Bool :=
  let s := vslot w
  let o := s.vop
  let needA := vopUsesA o
  let a := decAB s.a
  let b := decAB s.b
  let c := decC s.c
  let d := if vopThree o then decD4 (vopMx o) s.d4 else decD s.d
  let cls := vViewClass s
  let kBad := (o = 0x18 && s.b = 0) || (0x20 ≤ o && o ≤ 0x2F && (o % 8) * 32 + s.type * 8 + s.var = 0)
  let putBad := o = 0x1F && (match a with
    | some (.scal _ _) => false
    | _ => true)
  o = 0x3F || !vTypeOk s || kBad || putBad ||
    (needA && !(a.any (viewOk cls))) || (vopUsesB s && !(b.any (viewOk cls))) || (vopThree o && !(c.any (viewOk cls))) ||
    !(d.any (dstOk (vDstClass s)))

/-- Whether the slot of unit `u` is an encoding fault (Table 6.16); a NOP never is (R206). -/
def slotBad (u : Nat) (w : SlotWord) : Bool :=
  let o := sel w 39 34
  let p := sel w 43 40
  if o = 0 then false
  else if 1 ≤ p && p ≤ 7 then true
  else match u with
    | 0 | 1 => o ≠ 1
    | 2 => o > 4 || (o ≤ 3 && (sel w 29 26 = 0 || sel w 29 26 > 10)) || (o = 3 && !fmtIsMx (sel w 29 26))
    | 3 => o ≠ 1 || sel w 33 30 = 0 || sel w 33 30 > 10
    | 4 => o > 8
    | 5 | 6 => vBad w
    | 7 => o ≠ 1
    | 8 => o > 6
    | _ =>
      o > 8 || (o = 1 && bit w 33 && sel w 30 28 > 5) || (o = 3 && sel w 33 31 = 7) ||
        (o = 4 && bit w 33 && sel w 29 28 = 3) || (o = 5 && sel w 33 32 = 3) || ((o = 6 || o = 7) && sel w 18 0 = 0)

/-! ### Any slot -/

/-- The queues a slot pops (R86). -/
def slotPops (u : Nat) (rider : BitVec 9) (w : SlotWord) : List Nat :=
  let on (b : Bool) (q : Nat) : List Nat := if b then [q] else []
  let o := sel w 39 34
  match u with
  | 0 | 1 => on (bit w 30 && bit w 27) (28 + sel w 29 28)
  | 2 => on (o ≤ 3 && bit w 30) (sel w 33 31)
  | 3 => on (bit w 26) (sel w 29 27) ++ on (fmtIsMx (sel w 33 30) && bit w 21) (sel w 24 22)
  | 4 => on (acAccs o && bit w 33 && bit w 30) (8 + sel w 32 31)
  | 5 | 6 =>
    (vsrcs (vslot w)).flatMap (fun x => match x.queue? with
      | some (q, p) => on p q
      | none => []) ++ (match riderOf rider u with
      | some (q, p, _) => on p q
      | none => [])
  | 7 => on (bit w 29) (sel w 33 30) ++ on (bit w 28 && bit w 25) (28 + sel w 27 26)
  | 8 =>
    match o with
    | 1 => on (bit w 31) (24 + sel w 33 32) ++ on (bit w 26) (if bit w 30 then 28 + sel w 28 27 else sel w 29 27)
    | 2 => on (bit w 31) (24 + sel w 33 32) ++ on (bit w 27) (16 + sel w 30 28)
    | 4 => on (bit w 23) (28 + sel w 25 24)
    | 6 => on (bit w 30) (sel w 33 31) ++ on (bit w 27) (28 + sel w 29 28)
    | _ => []
  | _ =>
    match o with
    | 3 => match cloadQueues w with
      | (some q, _) => on (bit w 27) q
      | _ => []
    | 8 => on (bit w 31) (28 + sel w 33 32)
    | _ => []

/-- The unmet conditions of any slot at cycle `ctx.cycle` (R104). -/
def slotHolds (ctx : Ctx) (strict : Bool) (u : Nat) (rider : BitVec 9) (w : SlotWord) (c : Core) : List Hold :=
  if sel w 39 34 = 0 || !slotEnabled c u ctx.pos w then [] else
  match u with
  | 0 | 1 => rdHolds ctx strict u w c
  | 2 => wlHolds ctx strict w c
  | 3 => mxHolds ctx strict w c
  | 4 => acHolds ctx strict w c
  | 5 | 6 => vHolds ctx strict u rider w c
  | 7 => wrHolds ctx strict u w c
  | 8 => niHolds ctx strict w c
  | _ => ccHolds ctx strict w c

/-- An uncorrectable error in a word store, queue, tile buffer or chain register: the operation is not performed, the gang
stops, UNCORRECTABLE_ROW stays clear, and the event's DETAIL holds 0xFFFF_FFFF (Table 17.6). -/
def recLocalSram (c : Core) (ctx : Ctx) : Eff :=
  { core := c, ev := [{ code := 8, d0 := ctx.core, d := 0xFFFFFFFF }], sramStop := true }

/-- What an error found on an operation's reads does before the operation: RD and the drains check their own memory row, an
ACC checks the accumulator row it adds to, every other operation reads only the core's small stores (R283, R284, R613). -/
def slotSram (ctx : Ctx) (op : SlotOp) (c : Core) : Eff :=
  let u := op.unit.val
  let o := sel op.word 39 34
  if u ≤ 1 || (u = 4 && acDrains o) then { core := c }
  else if u = 4 && o = 1 then recSram c ctx 1 (acArow ctx op.word c) op.err
  else match op.err with
    | .uncorrectable => recLocalSram c ctx
    | _ => { core := c }

/-- A slot operation carried out when its slot is enabled and no condition of Table 3.4a is unmet. A disabled slot does
nothing (R89); an unmet condition is recorded and nothing is performed (R98, R104; log entry 4). -/
def runSlot (ctx : Ctx) (op : SlotOp) (f : Core → Eff) (c : Core) : Eff :=
  let u := op.unit.val
  if !slotEnabled c u ctx.pos op.word then { core := c }
  else
    match slotHolds ctx true u op.rider op.word c with
    | [] =>
      let x := slotSram ctx op c
      let e := if x.sramStop then x else { core := x.core : Eff }.bind f
      if u = 0 ∨ u = 1 ∨ u = 7 then
        let new := e.core.sp.progBanks.take (e.core.sp.progBanks.length - c.sp.progBanks.length)
        { e with core := { e.core with sp := { e.core.sp with early := e.core.sp.early ++ [(u, new.getLast?.getD (32 + u))] } } }
      else { e with core := { e.core with pos := max e.core.pos (ctx.pos + 1) } }
    | hs =>
      let c := recHold c hs
      { core := if u = 9 ∧ sel op.word 39 34 = 5 ∧ !bit op.word 31 then waitwArm ctx op c else c }

/-- What any slot's operation does, by unit and OP: used to look ahead of a check (R98). -/
def slotExec (ctx : Ctx) (op : SlotOp) (c : Core) : Eff :=
  let w := op.word
  let o := sel w 39 34
  match op.unit.val with
  | 0 | 1 => rdExec ctx op c
  | 2 => if o = 1 then wloadExec ctx op false c else if o = 2 then wloadExec ctx op true c
         else if o = 3 then wloadSExec ctx op c else wswapExec ctx c
  | 3 => mmulExec ctx op c
  | 4 =>
    if o = 1 then accExec ctx op false c else if o = 2 then accExec ctx op true c
    else if o = 3 then drainExec ctx op false c else if o = 4 then drainExec ctx op true c
    else accDrainExec ctx op (o ≥ 7) (o = 6 || o = 8) c
  | 5 | 6 => vExec ctx op c
  | 7 => wrExec ctx op c
  | 8 => if o = 1 then sendExec ctx op c else if o = 2 then dowelExec ctx op c else if o = 3 then recvExec ctx op c
         else if o = 4 then wopenExec ctx op c else if o = 5 then wcloseExec ctx op c else updExec ctx op c
  | _ =>
    match o with
    | 1 => if bit w 33 then csetComparator ctx op c else csetCounter ctx op c
    | 2 => cincExec ctx op c
    | 3 => match sel w 33 31 with
      | 0 => cloadQueue ctx op false c
      | 1 => cloadWord ctx op c
      | 2 => cloadQueue ctx op true c
      | 3 => cloadPushWord ctx op c
      | 4 => cloadPushHandle ctx op c
      | 5 => cloadPushDescriptor ctx op c
      | _ => cloadWriteWord ctx op c
    | 4 => if bit w 33 then cmpPredicate ctx op c else cmpCounter ctx op c
    | 5 => if bit w 31 then waitwPoll ctx op c else waitwMonitor ctx op c
    | 6 => incwExec ctx op false c
    | 7 => incwExec ctx op true c
    | _ => waitlExec ctx op c

/-! ### Bundles on one core -/

/-- Slot `s` of a bundle (R202). -/
def bundleSlot (b : Bundle) (s : Nat) : SlotWord := b.extractLsb' (72 + 44 * s) 44

def bundleRider (b : Bundle) : BitVec 9 := b.extractLsb' 0 9

/-- The queues the enabled slots of a bundle pop in a core at a position (R88). -/
def bundlePops (c : Core) (pos : Nat) (b : Bundle) : List Nat :=
  (List.range 10).flatMap (fun u =>
    let w := bundleSlot b u
    if sel w 39 34 ≠ 0 && slotEnabled c u pos w then slotPops u (bundleRider b) w else [])

/-- The bank a program port of a bundle will access in a core: RA and RB by Table 6.6, WR by Table 6.7, none for a slot that is
disabled or whose handle fails its checks (R105, R271). -/
def portBank (ctx : Ctx) (b : Bundle) (c : Core) (u : Nat) : Option Nat :=
  let w := bundleSlot b u
  if sel w 39 34 = 0 || !slotEnabled c u ctx.pos w then none else
  let a := if u = 7 then wrAddr (slotRegs c u ctx.pos) w else rdAddr (slotRegs c u ctx.pos) w
  if a.byHandle then
    let (k, row) := checkHandle ctx.decl c ((c.head a.hq).setWidth 32) a.ofs
    if k = 0 then some (bankOf row) else none
  else some (bankOf a.row)

/-- The program ports of a bundle in a core, in the order they are served, with their banks: those already served, then those
to come (R105). -/
def bundlePorts (ctx : Ctx) (b : Bundle) (c : Core) : List (Nat × Nat) :=
  c.sp.early ++ [0, 1, 7].filterMap (fun u =>
    if c.sp.early.any (fun p => p.1 == u) then none else (portBank ctx b c u).map (fun k => (u, k)))

/-- The largest number of accesses of one bank, and the lowest slot among them (R105). -/
def portClash (ps : List (Nat × Nat)) : Nat × Nat :=
  ps.foldr (fun p a =>
    let k := (ps.filter (fun q => q.2 == p.2)).length
    if k ≥ a.1 then (k, p.1) else a) (0, 0)

/-- How many cycles before its bundle's execution cycle a unit executes: the k accesses of one bank are served one per cycle,
the last of them in the execution cycle, where every other slot executes (R105). -/
def serveLead (ps : List (Nat × Nat)) (u : Nat) : Nat :=
  match ps.find? (fun p => p.1 == u) with
  | none => 0
  | some p =>
    let same := ps.filter (fun q => q.2 == p.2)
    same.length - 1 - (same.takeWhile (fun q => q.1 != u)).length

/-- The drawer slots whose drain a bundle's own RDs or WAITL complete in a core (R262, R269). -/
def bundleDrains (ctx : Ctx) (b : Bundle) (c : Core) : List (Nat × Nat) :=
  let read (u : Nat) : List W32 :=
    let w := bundleSlot b u
    let a := rdAddr (slotRegs c u ctx.pos) w
    let h : W32 := (c.head a.hq).setWidth 32
    if sel w 39 34 = 0 || !slotEnabled c u ctx.pos w || !a.byHandle then []
    else if (checkHandle ctx.decl c h a.ofs).1 = 0 && genDist c h = 0 then [h] else []
  let hs := read 0 ++ read 1
  let w := bundleSlot b 9
  let h : W32 := (c.head (28 + sel w 33 32)).setWidth 32
  let drainReads (h : W32) : Nat := (Tab.get ctx.decl.drawers (hDrawer h) {}).drainReads
  (hs.filter (fun h => decide (drainReads h ≠ 0) &&
    decide (drainReads h ≤ (c.slot (hDrawer h) (hSlot h)).reads.toNat + (hs.filter (fun x => hDrawer x == hDrawer h && hSlot x == hSlot h)).length))
    ++ (if sel w 39 34 = 8 && slotEnabled c 9 ctx.pos w && (handleDecl ctx.decl h).isSome && genDist c h = 0 && drainReads h = 0
        then [h] else [])).map (fun h => (hDrawer h, hSlot h))

/-- The unmet conditions of a bundle in a core, its k accesses of one bank ready k − 1 cycles after cycle `base`, and a WR or WOPEN
that follows a drain of its own bundle one cycle after it (R104, R105, R275, Table 3.4a). A port already served has none. -/
def bundleHolds (ctx : Ctx) (strict : Bool) (base : Nat) (b : Bundle) (c : Core) : List Hold :=
  let ctx := { ctx with pops := bundlePops c ctx.pos b }
  let own := { ctx with draining := bundleDrains ctx b c }
  let c' := { c with sp := { c.sp with progBanks := [] } }
  let at' (x : Ctx) (u : Nat) : List Hold :=
    if c.sp.early.any (fun p => p.1 == u) then [] else slotHolds x strict u (bundleRider b) (bundleSlot b u) c'
  let hs := (List.range 10).flatMap (at' own)
  let k := portClash (bundlePorts ctx b c)
  let wait (n : Nat) (h : Hold) : List Hold := if ctx.cycle < base + n then [{ h with ready := some (base + n) }] else []
  hs ++ (if k.1 ≥ 2 then wait (k.1 - 1) { cause := 3, slot := k.2 } else []) ++
    ([7, 8].flatMap (fun u => if own.draining.isEmpty then [] else
      if (at' ctx u).any (fun h => h.cause == 5) && !(at' own u).any (fun h => h.cause == 5) then wait 1 { cause := 5, slot := u } else []))

/-- A bundle executed in a core: its position passed, and a bundle that met a bank conflict counted (Table 3.6). -/
def bundleDone (pos : Nat) (c : Core) : Core :=
  { c with
    pos := max c.pos (pos + 1)
    waits := []
    sp := { c.sp with early := [] }
    stall := if (portClash c.sp.early).1 ≥ 2 then { c.stall with bankConflicts := bump32 c.stall.bankConflicts 1 } else c.stall }

/-- Results whose cycle has come made visible: queue entries, tile rows in the order their operations executed, scratchpad
rows with their written marks (R84, R108, R159, R261). -/
def visibleNow (cyc : Nat) (c : Core) : Core :=
  let eng (e : VEng) : VEng :=
    let due := e.pend.filter (fun p => decide (p.due ≤ cyc))
    let due := sortBy (fun p q => decide (p.due < q.due) || (p.due == q.due && decide (p.exec ≤ q.exec))) due
    { e with tiles := due.foldl (fun m p => m.set p.key p.val) e.tiles, pend := e.pend.filter (fun p => decide (cyc < p.due)) }
  let rows := c.sp.pend.filter (fun p => decide (p.due ≤ cyc))
  let c := { c with
    queues := c.queues.mapVals (fun _ q => { q with entries := q.entries.map (fun e => if e.due ≤ cyc then { e with vis := true } else e) })
    v0 := eng c.v0, v1 := eng c.v1
    sp := { c.sp with pend := c.sp.pend.filter (fun p => decide (cyc < p.due)) } }
  rows.foldl (fun c p =>
    let c := match p.val with
      | some v => { c with sp := { c.sp with rows := c.sp.rows.set p.row v } }
      | none => c
    match p.mark with
      | some m => markRow c m
      | none => c) c

/-- The end of a core's cycle: pops leave their queues (R86), slots drain (R262, R269), a slice not taken is discarded
(R134), local clamp updates apply (R364), the landing port's and other waits of the cycle are counted. -/
def coreEdge (ctx : Ctx) (c : Core) : Eff :=
  let c := { c with queues := c.queues.mapVals (fun _ q =>
    if q.popped then { entries := q.entries.drop 1, popped := false } else q) }
  let ds := c.sp.drains
  let c := ds.foldl (fun c d => if (c.slot d.drawer d.slot).gen = d.gen then drainSlot c d.drawer d.slot else c)
    { c with sp := { c.sp with drains := [] } }
  let c := dropLatch c
  let s := c.sp
  let yld := s.landing.any (fun r => s.progBanks.contains (bankOf r.row))
  let landing := s.landing.map (fun r => { r with waited := r.waited + 1 })
  let k := s.cnt
  let k := { k with
    landingYieldCycles := if yld then bump48 k.landingYieldCycles 1 else k.landingYieldCycles
    landingFullCycles := if s.landing.length ≥ 32 then bump32 k.landingFullCycles 1 else k.landingFullCycles
    landingWaitMax := landing.foldl (fun m r => max32 m r.waited) k.landingWaitMax }
  let ringWait := c.ni.rx.any (fun m => match m.dest with
    | .ring _ => m.got == m.rows.length
    | _ => false)
  let u := c.upd.cnt
  let u := { u with
    busyCycles := if c.upd.jobs.isEmpty then u.busyCycles else bump48 u.busyCycles 1
    inputFullCycles := if updInputRows c ≥ 8 then bump32 u.inputFullCycles 1 else u.inputFullCycles }
  let c := { c with
    sp := { s with landing := landing, progBanks := [], landBanks := [], landUsed := 0, cnt := k }
    ni := { c.ni with cnt := { c.ni.cnt with
      ringWaitCycles := if ringWait then bump32 c.ni.cnt.ringWaitCycles 1 else c.ni.cnt.ringWaitCycles } }
    upd := { c.upd with cnt := u } }
  clampEdge ctx c

/-- Whether an unmet condition is external (R100): not one that an operation already executed will meet, nor a queue that no
external consumer drains. -/
def Hold.external (h : Hold) : Bool :=
  h.ready.isNone && !(h.cause == 2 && h.slot != 8) && h.cause != 8 && h.cause != 9

/-- The conditions a core still waits for after those unmet in a held cycle are known: an external one that has been met is ready
only 6 cycles after its event, and counts as unmet until then (R100, R111). -/
def waitsAfter (cyc : Nat) (old hs : List Hold) : List Hold :=
  let same (a b : Hold) : Bool := a.cause == b.cause && a.queue == b.queue && a.slot == b.slot
  hs.filter Hold.external ++ (old.filter (fun w => !hs.any (same w))).filterMap (fun w => match w.ready with
    | none => some { w with ready := some (cyc + 6) }
    | some k => if cyc < k then some w else none)

/-- The stall counters of one held cycle in a core (R111). -/
def chargeHolds (cyc : Nat) (c : Core) (hs : List Hold) : Core :=
  let ws := waitsAfter cyc c.waits hs
  let hs := hs ++ ws.filter (fun w => w.ready.isSome)
  let has (k : Nat) : Nat := b2n (hs.any (fun h => h.cause == k))
  let s := c.stall
  let c := { c with waits := ws, stall := { s with
    gangHeld := bump32 s.gangHeld 1
    emptyPop := bump32 s.emptyPop (has 1)
    fullPush := bump32 s.fullPush (has 2)
    bankConflict := bump32 s.bankConflict (has 3)
    drawerGuard := bump32 s.drawerGuard (max (has 4) (has 5))
    landingWait := bump32 s.landingWait (has 6)
    wordWait := bump32 s.wordWait (has 7)
    drainHold := bump32 s.drainHold (has 8)
    swapHold := bump32 s.swapHold (has 9) } }
  recHold c hs

/-- The units of an issued bundle that execute in a core at cycle `cyc`, for execution cycle `e`, executed (R105). -/
def execAt (ctx : Ctx) (b : Issued) (e cyc : Nat) (c : Core) : Core :=
  if cyc > e ∨ cyc + 2 < e then c else
  let c := if cyc = e then settleWords c b.pos else c
  let ctx := { ctx with cycle := cyc, pos := b.pos, addr := b.addr, pops := bundlePops c b.pos b.bundle }
  let ctx := { ctx with draining := bundleDrains ctx b.bundle c }
  let ps := bundlePorts ctx b.bundle c
  let c := (List.range 10).foldl (fun c u =>
    let w := bundleSlot b.bundle u
    let op : SlotOp := { site := 0, unit := Fin.ofNat 10 u, pos := BitVec.ofNat 64 b.pos, addr := BitVec.ofNat 15 b.addr
                         rider := bundleRider b.bundle, word := w, err := .ok }
    if sel w 39 34 = 0 || cyc + serveLead ps u ≠ e || c.sp.early.any (fun p => p.1 == u) then c
    else (runSlot ctx op (slotExec ctx op) c).core) c
  if cyc = e then bundleDone b.pos c else c

/-- A core carried from its cycle to cycle `target`, executing the given bundles at their cycles: what a check six cycles
ahead knows (R98, R99). `n` bounds the cycles. -/
def lookAhead (ctx : Ctx) (bs : List (Issued × Nat)) (target : Nat) : Nat → Nat → Core → Core
  | 0, _, c => c
  | n + 1, cyc, c =>
    if cyc ≥ target then c else
    let x := { ctx with cycle := cyc }
    let c := visibleNow cyc c
    let c := (List.range c.arr.pend.length).foldl (fun c _ => accWrite ctx.decl.halfWidth ctx.core cyc c) c
    let c := shadowComplete cyc c
    let c := bs.foldl (fun c b => execAt x b.1 b.2 cyc c) c
    lookAhead ctx bs target n (cyc + 1) (coreEdge x c).core

end Sys2Proof.Machine
end

