-- ==== Sys2Proof/Machine/NetState.lean ====
section
/-!
DEFINITION. Machine/NetState.lean: the mesh, the splines, the Decler ports with the port switch, and the stock interfaces
(spec/02_story_stick.md R60; spec/09_messages.md R330 to R335; spec/10_decler_links.md; spec/08_stock.md R318 to R321).
-/

namespace Sys2Proof.Machine

open Sys2Proof

/-- One flit in the mesh: the message it belongs to, its index (0 the header), whether it is the last, and its parity. -/
structure Flit where
  msg : Nat
  idx : Nat
  last : Bool
  bad : Bool := false
  deriving DecidableEq, Repr

/-- A message in the mesh: header, payload rows, destination site, the port and link it leaves the plane by, whether it
came from another module, the gang that sent it and the gang it is for (0 for none); the output its header took at each
router, and the sites left of a bypass it is on (R333, R619). -/
structure MeshMsg where
  hdr : W128
  rows : List Row
  dst : Nat
  egress : Option (Nat × Nat) := none
  remote : Bool := false
  gang : Nat := 0
  dgang : Nat := 0
  route : Tab Nat := []
  ring : List Nat := []
  deriving DecidableEq, Repr

/-- The mesh. Buffers are keyed (site · 5 + input port) · 4 + channel with ports 0 west, 1 east, 2 north, 3 south, 4 local;
link ownership (site · 5 + output port) · 4 + channel; splines site · 5 + output port, each flit with its channel; parity
failures site · 4 + input, in all and in the current mark. Routers in `removing` or `removed` are bypassed (R619, R620). -/
structure Mesh where
  msgs : Tab MeshMsg := []
  nextId : Nat := 0
  bufs : Tab (List Flit) := []
  owner : Tab Nat := []
  splines : Tab (List (Nat × Flit)) := []
  removed : List Nat := []
  removing : List Nat := []
  parity : Tab Nat := []
  parityMark : Tab Nat := []
  gateways : Tab (List MeshMsg) := []
  deriving DecidableEq, Repr

/-- Port states (Table 10.6). -/
inductive PortState where
  | down
  | training
  | hello
  | up
  | isolated
  | quiet
  | disabled
  deriving DecidableEq, Repr

def PortState.code : PortState → Nat
  | .down => 0
  | .training => 1
  | .hello => 2
  | .up => 3
  | .isolated => 4
  | .quiet => 5
  | .disabled => 6

/-- A message being received or held at a port's ingress (R396). -/
structure Ingress where
  lch : Nat
  bytes : List Byte
  done : Bool := false
  abort : Bool := false
  deriving DecidableEq, Repr

/-- The port link record's counters (Table 10.10). -/
structure LinkRec where
  flitsTx : W64 := 0
  flitsRx : W64 := 0
  bytesTx : W64 := 0
  bytesRx : W64 := 0
  forwarded : W64 := 0
  fecCorrected : W64 := 0
  creditWait : W64 := 0
  crcErrors : W32 := 0
  retries : W32 := 0
  fecUncorrectable : W32 := 0
  linkDowns : W32 := 0
  failovers : W32 := 0
  replayDrops : W32 := 0
  linkAborts : W32 := 0
  noRouteDrops : W32 := 0
  modeMismatches : W32 := 0
  reservedFlits : W32 := 0
  retryMax : W32 := 0
  alignOffset : W32 := 0
  deriving DecidableEq, Repr

/-- One Decler port: its state (Table 10.6), what its neighbour's last hello said (Table 10.9), the alignment exchange with
twice θ of the current mark (R417, R418), the retry buffer of sequenced flits sent and not acknowledged, oldest first, and
the last batch of flits sent again (R388, R389, R423), messages at ingress, flits sent on each link channel and not yet
credited (R400), the challenge under way (R410), the plug's LINK charge (R640), and the notices sent. -/
structure Port where
  state : PortState := .down
  reason : Nat := 0
  verif : Nat := 0
  aligned : Bool := false
  mismatch : Bool := false
  failover : Bool := false
  nport : Nat := 0
  ncoord : W16 := 0
  nserial : W64 := 0
  npartition : W64 := 0
  ndigest : List Byte := []
  nhello : List Byte := []
  nquiet : Bool := false
  changeStick : W64 := 0
  alignRun : Nat := 0
  theta : Option Int := none
  markTx : Option Int := none
  echoTx : W64 := 0
  echoRx : W64 := 0
  txSeq : Nat := 0
  rxSeq : Nat := 0
  retryBuf : List (List Byte) := []
  resend : List (List Byte) := []
  ingress : List Ingress := []
  credits : Tab Nat := []
  nonce : List Byte := []
  challenge : Option Nat := none
  charge : Nat := 0
  outbox : List NoticeIn := []
  cnt : LinkRec := {}
  deriving DecidableEq, Repr

/-- A region's request for a chunk of a transfer, by the stock address of the chunk divided by 1,024. -/
structure ChunkReq where
  region : Nat
  xfer : Nat
  chunk : Nat
  store : Bool
  deriving DecidableEq, Repr
/-- One stock interface: its place in the wheel, the requests waiting, started, and held for a page (R325), the periods since
one passed to host traffic and since the last steal, and the region in no wheel entry last served (R318 to R321). -/
structure Iface where
  pos : Nat := 0
  waiting : List ChunkReq := []
  started : List ChunkReq := []
  held : List ChunkReq := []
  hostIdle : Nat := 0
  sinceSteal : Nat := 1600
  lastUnnamed : Nat := 24
  deriving DecidableEq, Repr

/-- Stock: the contents of its 1 KiB chunks by physical chunk number, its interfaces, the wheel table, and each device's
training (R290 to R296, R318). -/
structure Stock where
  mem : Mem 8192 := Mem.zero
  ifaces : Tab Iface := []
  wheel : List Nat := List.range 25
  selfRefresh : Bool := false
  deriving DecidableEq, Repr

end Sys2Proof.Machine
end

