-- ==== Sys2Proof/Machine/TirixState.lean ====
section
/-!
DEFINITION. Machine/TirixState.lean: everything AON and Tirix hold: module state, story stick and marks, pins, safe hold,
the mailboxes and sessions, images and placements, stock allocation, settings, change log, events, identity, telemetry,
boot window and host side (spec/01, spec/02, spec/14 to spec/18).
-/

namespace Sys2Proof.Machine

open Sys2Proof

/-- The module states (Table 15.1). -/
inductive ModState where
  | off
  | aux
  | boot
  | verify
  | roughCut
  | full
  | standby
  | safeHold
  deriving DecidableEq, Repr

/-- MODULE_STATE[3:0] (Table 14.2). -/
def ModState.code : ModState → Nat
  | .off => 0
  | .aux => 1
  | .boot => 2
  | .verify => 3
  | .roughCut => 4
  | .full => 5
  | .standby => 6
  | .safeHold => 7

/-- SYNC_IO modes (POLICY_SET item 0x03, Table 14.15). -/
inductive SyncMode where
  | off
  | markOut
  | markIn
  | trigger
  deriving DecidableEq, Repr

def SyncMode.code : SyncMode → Nat
  | .off => 0
  | .markOut => 1
  | .markIn => 2
  | .trigger => 3

/-- The pins and what AON times on them (Table 14.2 PINS, Table 18.6, R598, R611, R627, R643, R649). -/
structure Pins where
  pwrgdMain : Bool := false
  pwrgdAux : Bool := false
  flowOk : Bool := false
  thermAlert : Bool := false
  holdIn : Bool := false
  fault : Bool := false
  syncHigh : Bool := false
  syncOut : Bool := false
  perst : Bool := true
  mainSeen : Bool := false
  precharged : Bool := false
  bifurcated : Bool := false
  smbAddr : BitVec 2 := 3
  syncEdge : Bool := false
  refExternal : Bool := false
  flowSince : Option Nat := none
  refSince : Option Nat := none
  commonClockA : Bool := false
  commonClockB : Bool := false
  deriving DecidableEq, Repr

/-- AON: story-stick master, mark generator, staged change, status page, safe-hold controller (R33 to R40, R66 to R72,
Table 14.2). `refCycles` counts reference cycles since the last mark. -/
structure Aon where
  state : ModState := .off
  stick : W64 := 0
  markNumber : W64 := 0
  stickAtMark : W64 := 0
  refCycles : Nat := 0
  span : Nat := 46080
  trim : Int := 0
  appliedMask : BitVec 25 := 0x1FFFFFF
  maskAtMark : BitVec 25 := 0x1FFFFFF
  inFlight : Bool := false
  commitMark : W64 := 0
  syncIo : SyncMode := .off
  acquiring : Bool := false
  edgeIgnored : Bool := false
  edgeTaken : Bool := false
  missRun : Nat := 0
  markInMiss : W32 := 0
  safeCause : Byte := 0
  entryState : ModState := .off
  heldCauses : BitVec 9 := 0
  tirixRunning : Bool := false
  identityReady : Bool := false
  ownerProven : Bool := false
  ownerInstalled : Bool := false
  fwVersion : W32 := 0
  svn : W16 := 0
  heartbeat : W32 := 0
  beatStopped : Bool := false
  pins : Pins := {}
  deriving DecidableEq, Repr

/-- A session (R509, Table 14.6). Kinds: 1 owner, 2 ordinary, 3 debug. -/
structure Session where
  id : Nat
  mb : Nat
  kind : Nat
  rights : W32
  regions : BitVec 25
  scope : W16 := 0
  quota : Nat
  deriving DecidableEq, Repr

/-- A command mailbox (Table 14.4). Byte areas list their written bytes, the rest reading as zero. -/
structure Mailbox where
  seq : W32 := 0
  ack : W32 := 0
  status : W32 := 0
  irq : Bool := false
  reqCommand : W16 := 0
  reqFlags : W16 := 0
  reqLength : W32 := 0
  reqTag : W64 := 0
  reqBody : List Byte := []
  rspCommand : W16 := 0
  rspStatus : W16 := 0
  rspLength : W32 := 0
  rspTag : W64 := 0
  rspBody : List Byte := []
  cSeq : W32 := 0
  cCommand : W16 := 0
  cStatus : W16 := 0
  cLength : W32 := 0
  cTag : W64 := 0
  cBody : List Byte := []
  deriving DecidableEq, Repr

/-- What a long-running command is doing (R503). -/
inductive JobKind where
  | puf (helper : List Byte)
  | challenge (ports : BitVec 24)
  | pin (first count : Nat)
  | fill (sa bytes done : Nat) (fromHost : Bool) (source : W64)
  | load (source : W64) (length : Nat) (interlock fromStock : Bool)
  | preempt (g0 : Nat)
  | resume (g0 : Nat) (base : W64)
  deriving DecidableEq, Repr

/-- A long-running command outstanding; `orphan` when its session has closed. -/
structure Job where
  mb : Nat
  session : Nat
  seq : W32
  command : W16
  tag : W64
  quiet : Bool
  orphan : Bool := false
  kind : JobKind
  deriving DecidableEq, Repr

/-- A loaded image (R520): its declarations by part and the physical pages its copy takes. -/
structure Image where
  id : Nat
  session : Nat
  interlocked : Bool
  table : W16
  rough : Bool
  seed : W64
  gstep : W64
  parts : List PartDecl
  pages : List Nat
  deriving DecidableEq, Repr

/-- A SIG entry of GANG_PLACE (Table 14.11). -/
structure Sig where
  gang : Nat
  part : Nat
  remote : Bool
  module : Nat
  word : Nat
  deriving DecidableEq, Repr

/-- A part's saved state (R243). -/
structure SavedPart where
  seq : Seq
  dig : Combiner
  cores : List Core
  deriving DecidableEq, Repr

/-- One gang of a placement: its region and sites, its flags, and what GANG_STATUS reports once it no longer holds its
region (Table 14.11). -/
structure Gang where
  id : Nat
  part : Nat
  region : Nat
  sites : List Nat
  started : Bool := false
  running : Bool := false
  pending : Bool := false
  status : Nat := 0xFF
  tickVoid : Bool := false
  cycleVoid : Bool := false
  rough : Bool := false
  admitted : Nat := 0
  bundle : Nat := 0
  position : W64 := 0
  gstep : W64 := 0
  kerfBase : W64 := 0
  boundaries : Nat := 0
  saved : Option SavedPart := none
  deriving DecidableEq, Repr

/-- A region record already written, kept until its module record is (R480). -/
structure RegionRec where
  layer : W64
  part : Nat
  digest : W64
  rows : W64
  flags : Byte
  step : W64
  stick : W64
  deriving DecidableEq, Repr

/-- A digest ring (R481 to R484); `starts` holds where each record not overwritten begins, in bytes written since GANG_START,
oldest first. -/
structure DigRing where
  session : Nat
  sa : Nat
  bytes : Nat
  overwrites : W32 := 0
  written : W64 := 0
  records : W64 := 0
  starts : List Nat := []
  deriving DecidableEq, Repr

/-- A placement (R521, R522). -/
structure Placement where
  g0 : Nat
  session : Nat
  image : Nat
  gangs : List Gang
  sigs : List Sig
  partners : List Nat
  savePages : List Nat
  progress : Nat := 50
  runBase : W64 := 0
  layerBase : W64 := 0
  ring : Option DigRing := none
  regionRecs : List RegionRec := []
  preempted : Bool := false
  deriving DecidableEq, Repr

/-- An event record before its sequence number (Table 14.17). -/
structure EvRec where
  code : Nat
  flags : Nat
  source : Nat
  stick : W64
  count : Nat
  gang : Nat
  d0 : Nat
  d : W64
  deriving DecidableEq, Repr

/-- MB31 and the backlog (R534 to R536). `unsignalled` says a record was written since the last vector 31 message. -/
structure Events where
  produced : W32 := 0
  consumed : W32 := 0
  lost : W32 := 0
  irq : Bool := false
  slots : Tab (W32 × EvRec) := []
  backlog : List EvRec := []
  unsignalled : Bool := false
  pagesServiced : Nat := 0
  deriving DecidableEq, Repr

/-- A change-log entry (Table 15.11). -/
structure LogEntry where
  command : W16
  session : W16
  detail : W32
  stick : W64
  old : W64
  new : W64
  deriving DecidableEq, Repr

/-- The module descriptor (Table 1.2). A site not listed in `fence` has code 0b11. -/
structure Descriptor where
  gen : W32 := 0
  serial : W64 := 0
  tested : BitVec 25 := 0
  short : BitVec 25 := 0
  stockTrained : W32 := 0
  portsTrained : BitVec 24 := 0
  usable : Tab Nat := []
  fence : Tab Nat := []
  deriving DecidableEq, Repr

/-- The partition, the topology and the link state known of other modules (R398, R413 to R416). -/
structure Topo where
  gen : W32 := 0
  partition : W64 := 0
  coord : W16 := 0
  dims : W16 := 0
  requireVerified : Bool := false
  anchor : List Byte := []
  repro : Bool := false
  reach : List Nat := []
  links : Tab (BitVec 24) := []
  remotePreempted : List (Nat × Nat) := []
  remoteEnded : List (Nat × Nat) := []
  deriving DecidableEq, Repr

/-- Owner settings (Table 15.7, Table 15.10) and what is staged (R68). -/
structure Settings where
  envelope : Nat := 40000
  envelopeRaises : Nat := 4
  ceiling : Nat := 3
  ceilingRaises : Nat := 4
  policy : Tab Nat := []
  bar2On : Bool := false
  bar2Base : W64 := 0
  stagedSteps : Tab Nat := []
  stagedWheel : Option (List Nat) := none
  flightSteps : Tab Nat := []
  flightWheel : Option (List Nat) := none
  flightChange : BitVec 3 := 0
  flightValue : BitVec 3 := 0
  modes : BitVec 3 := 0
  deriving DecidableEq, Repr

/-- A chunked transfer of helper or certificate data (R514). -/
structure Chunked where
  total : Nat
  got : List Byte
  deriving DecidableEq, Repr

/-- The responder's answer to an SPDM request, as data (R566 to R568; log entry 23): the version, 0x12 for SPDM 1.2; the
capabilities, MEAS_CAP 2 for signed measurements; the one signing, hashing and measurement algorithm; and the errors. -/
inductive SpdmRsp where
  | version (v : Byte)
  | capabilities (cert chal : Bool) (meas : BitVec 2) (session : Bool)
  | algorithms (rsaPss4096 sha512Hash sha512Meas : Bool)
  | digests (slot0 : Option (List Byte))
  | certificate (chain : List Byte)
  | challengeAuth (slot0 : Option (List Byte)) (nonce signature : List Byte)
  | measurements (total : Nat) (blocks : List (Nat × Bool × List Byte)) (signature : Option (List Byte × List Byte))
  | unsupported
  | busy
  | unexpected
  | invalid
  deriving DecidableEq, Repr

/-- The SPDM connection state of one path (R565). -/
structure SpdmPath where
  stage : Fin 4 := 0
  answer : Option SpdmRsp := none
  deriving DecidableEq, Repr

/-- Identity, owner and attestation (R560 to R571). The identity key is named by the SHA-512 of its public key. -/
structure Ident where
  helper : Option Chunked := none
  certXfer : Option Chunked := none
  key : Option (List Byte) := none
  cert : List Byte := []
  ownerExp : W32 := 0
  ownerMod : List Byte := []
  nonce : Option (List Byte × W64) := none
  nonceCtr : Nat := 0
  fwDigest : List Byte := []
  doe : SpdmPath := {}
  mctp : SpdmPath := {}
  attest : SpdmPath := {}
  endpoint : Byte := 0
  deriving DecidableEq, Repr

/-- Emergency state of one region (R595 to R597): its ceiling (15 for none), the causes detected since the last mark and
those whose step is due at this one, the step R588 lowers its part to, the marks at which its persisting JUNCTION and
OVER_CURRENT causes arose, and the marks in a row without any of causes 0 to 2. -/
structure Emerg where
  ceiling : Nat := 15
  causes : BitVec 4 := 0
  due : BitVec 4 := 0
  lowered : Option Nat := none
  junction : Option Nat := none
  overCurrent : Option Nat := none
  absent : Nat := 0
  warnArmed : Bool := true
  restore : Bool := false
  deriving DecidableEq, Repr

/-- What the last telemetry rewrite recorded of a region (Table 16.6). -/
structure TelemRegion where
  rstate : Nat := 0
  rsteps : Nat := 0x0F
  tjMax : Nat := 0
  gaugeWarns : Nat := 0
  lastEnergy : Nat := 0
  lastDecl : Nat := 0
  deriving DecidableEq, Repr

/-- The telemetry record as last rewritten (Table 16.6). -/
structure Telem where
  gen : W32 := 0
  stick : W64 := 0
  inputMv : Nat := 0
  inputMa : Nat := 0
  loadW : Nat := 0
  envelopeW : Nat := 40000
  admittedW : Nat := 0
  gov : Nat := 3
  inlet : Nat := 0
  outlet : Nat := 0
  auxMw : Nat := 0
  bar2Discards : W32 := 0
  declOverruns : W32 := 0
  declMismatches : W32 := 0
  emergencySteps : W32 := 0
  domainW : List Nat := []
  regions : List TelemRegion := []
  sensors : Tab Nat := []
  deriving DecidableEq, Repr

/-- Power and measurement (R546, R577, R590 to R597, R628): latest sensor samples by 16 · region + sensor, the period's
maxima, live counters, the limit from the input voltage, whether a lowering under R588 waits for the next mark, the stick at
which each sleeping region fell asleep, and the uncorrectable errors of each site's core in this power-on (Table 17.7). -/
structure Power where
  sensors : Tab Nat := []
  tjMax : Tab Nat := []
  warns : Tab Nat := []
  lastEnergy : Tab Nat := []
  lastDecl : Tab Nat := []
  emerg : Tab Emerg := []
  governorDown : List Nat := []
  inputLimit : Option Nat := none
  envelopeDue : Bool := false
  sramErrs : Tab Nat := []
  bar2Discards : W32 := 0
  emergencySteps : W32 := 0
  sleepSince : Tab Nat := []
  lastRewrite : Nat := 0
  telem : Telem := {}
  deriving DecidableEq, Repr

/-- The states of MEMW and MEME, and of LINK (Table 16.1). -/
inductive EdgeState where
  | off
  | training
  | on
  | selfRefresh
  deriving DecidableEq, Repr

/-- Bring-up (R542 to R545, R558). -/
structure Bringup where
  west : EdgeState := .off
  east : EdgeState := .off
  narrowWest : Bool := false
  narrowEast : Bool := false
  link : Bool := false
  devFails : Tab Nat := []
  settled : BitVec 24 := 0
  bootResult : Byte := 0
  bootAttempts : W16 := 0
  bootLength : W32 := 0
  bootImage : Mem 8 := Mem.undef 0
  bootCopy : Option (Nat × Mem 8) := none
  verified : Bool := false
  refMeasured : Bool := false
  pcieReady : Bool := false
  deriving DecidableEq, Repr

/-- Stock allocation (R293 to R298, R517 to R519): page-table entries by session · 2^27 + page, host maps by
session · 2^31 + index, and the pages to be freed when a transfer ends. -/
structure Alloc where
  pt : Tab W64 := []
  hostMap : Tab W64 := []
  defer : List Nat := []
  deriving DecidableEq, Repr

/-- The host side: MSI-X messages sent by vector, host memory as the module reads and writes it, the
latest BAR2 answer, and the BAR2 accesses that wait for stock to leave self-refresh: offset, write, bytes (R495). -/
structure HostSide where
  msixOn : Bool := false
  msixSent : Tab Nat := []
  mem : Mem 8 := Mem.undef 0
  bar2Data : List Byte := []
  bar2Wait : List (Nat × Bool × List Byte) := []
  deriving DecidableEq, Repr

end Sys2Proof.Machine
end

