-- ==== Sys2Proof/Machine/State.lean ====
section
/-!
DEFINITION. Machine/State.lean: the state of one KW25-M1 and its value after reset (R9, R539), the queue of commands, the
faults and the refusals (log entries 2, 6, 7 and 8).
-/

namespace Sys2Proof.Machine

open Sys2Proof

/-- Why a command stops. Safe: the module itself never takes such a command. -/
inductive Fault where
  /-- The command's operands do not spell its row of the table: raised by every meaning through its well-formedness
  check. Safe. -/
  | illFormed
  deriving DecidableEq, Repr

/-- Why the model answers nothing. -/
inductive Refusal where
  /-- A command whose meaning is not written; raised by exec's arms only. Safe. -/
  | notModelled (mnemonic : String)
  deriving DecidableEq, Repr

/-- Everything the module holds beside the queue of commands. Cores are keyed by site index, regions by region number,
ports by port number, mailboxes by number; a key not listed holds the default. `b0` is the stepping (R1). `freeCtr`
counts the events that leave contents undefined (log entry 9). -/
structure Mod where
  b0 : Bool := false
  freeCtr : Nat := 1
  aon : Aon := {}
  regions : Tab Region := []
  cores : Tab Core := []
  mesh : Mesh := {}
  ports : Tab Port := []
  stock : Stock := {}
  desc : Descriptor := {}
  topo : Topo := {}
  settings : Settings := {}
  mailboxes : Tab Mailbox := []
  sessions : List Session := []
  nextSession : Nat := 1
  jobs : List Job := []
  images : List Image := []
  nextImage : Nat := 1
  placements : List Placement := []
  nextGang : Nat := 1
  alloc : Alloc := {}
  events : Events := {}
  log : List LogEntry := []
  logTotal : W32 := 0
  ident : Ident := {}
  power : Power := {}
  bringup : Bringup := {}
  host : HostSide := {}
  deriving DecidableEq, Repr

/-- The state of the block: the module and the commands that wait, first in first out. -/
structure State where
  m : Mod
  pending : List Instr
  deriving DecidableEq, Repr

/-- The module after reset: it is OFF, with nothing powered and no command waiting (R539, R540). -/
def State.reset : State := { m := {}, pending := [] }

end Sys2Proof.Machine
end

