-- ==== Sys2Proof/Machine/Ops.lean ====
section
/-!
DEFINITION. Machine/Ops.lean: the named operations on the module that every family of commands is written over: reading and
changing a region, a core, a port or a mailbox; sites and regions; ticks and steps; a gang's surroundings; running a
command.
-/

namespace Sys2Proof.Machine

open Sys2Proof

/-- A command carried out when its operands spell its row. -/
def State.runIf (s : State) (ok : Bool) (f : Mod → Mod) : Host.Outcome State Fault Refusal :=
  if ok then .next { s with m := f s.m } else .fault .illFormed

/-! ### Parts of the module -/

def Mod.region (m : Mod) (r : Nat) : Region := Tab.get m.regions r {}

def Mod.setRegion (m : Mod) (r : Nat) (x : Region) : Mod := { m with regions := Tab.set m.regions r x }

def Mod.onRegion (m : Mod) (r : Nat) (f : Region → Region) : Mod := m.setRegion r (f (m.region r))

/-- The region of a site (R16). -/
def siteRegion (s : Nat) : Nat := s % 160 / 32 + 5 * (s / 160 / 32)

/-- The in-region index of a site (R17). -/
def siteInner (s : Nat) : Nat := s / 160 % 32 * 32 + s % 160 % 32

/-- The site at an in-region index of a region (R16, R17). -/
def siteAt (r i : Nat) : Nat := (r / 5 * 32 + i / 32) * 160 + (r % 5 * 32 + i % 32)

/-- A core; one that nothing has changed since its region's power-up holds undefined contents (R285). -/
def Mod.core (m : Mod) (s : Nat) : Core :=
  match Tab.find m.cores s with
  | some c => c
  | none => Core.powerUp ((m.region (siteRegion s)).undef + s)

def Mod.setCore (m : Mod) (s : Nat) (c : Core) : Mod := { m with cores := Tab.set m.cores s c }

def Mod.onCore (m : Mod) (s : Nat) (f : Core → Core) : Mod := m.setCore s (f (m.core s))

def Mod.port (m : Mod) (p : Nat) : Port := Tab.get m.ports p {}

def Mod.onPort (m : Mod) (p : Nat) (f : Port → Port) : Mod := { m with ports := Tab.set m.ports p (f (m.port p)) }

def Mod.mailbox (m : Mod) (b : Nat) : Mailbox := Tab.get m.mailboxes b {}

def Mod.onMailbox (m : Mod) (b : Nat) (f : Mailbox → Mailbox) : Mod := { m with mailboxes := Tab.set m.mailboxes b (f (m.mailbox b)) }

def Mod.iface (m : Mod) (i : Nat) : Iface := Tab.get m.stock.ifaces i {}

def Mod.onIface (m : Mod) (i : Nat) (f : Iface → Iface) : Mod :=
  { m with stock := { m.stock with ifaces := Tab.set m.stock.ifaces i (f (m.iface i)) } }

def allRegions : List Nat := List.range 25

/-- Every region changed. -/
def Mod.forRegions (m : Mod) (f : Mod → Nat → Mod) : Mod := allRegions.foldl f m

/-! ### Steps, cycles and ticks -/

/-- N of a step code (R31). -/
def stepN (s : Nat) : Nat := [0, 3, 4, 6, 8, 9, 10, 11, 12].getD s 12

/-- The view ratio of a step code in 2^-16 ticks per cycle (Table 2.1). -/
def viewRatio (s : Nat) : Nat :=
  [0, 0x40000, 0x30000, 0x20000, 0x18000, 0x15555, 0x13333, 0x11745, 0x10000].getD s 0

/-- The integer part of a region's local view (R41). -/
def Region.ticks (g : Region) : Nat := g.view / 65536

/-- Whether the region is clocked. -/
def Region.clocked (g : Region) : Bool := g.dom == .awake

/-- The tick increment of an interval at a step (Table 2.2). -/
def intervalTicks (ticks : Bool) (len step : Nat) : Nat := if ticks then len else len * 12 / stepN step

/-! ### Gangs -/

/-- The placement that holds a gang identifier. -/
def Mod.placementOf (m : Mod) (g : Nat) : Option Placement := m.placements.find? (fun p => p.gangs.any (fun x => x.id == g))

def Mod.placement (m : Mod) (g0 : Nat) : Option Placement := m.placements.find? (fun p => p.g0 == g0)

def Mod.setPlacement (m : Mod) (p : Placement) : Mod :=
  { m with placements := m.placements.map (fun x => if x.g0 == p.g0 then p else x) }

def Mod.image (m : Mod) (i : Nat) : Option Image := m.images.find? (fun x => x.id == i)

/-- A gang of a placement changed. -/
def Mod.onGang (m : Mod) (id : Nat) (f : Gang → Gang) : Mod :=
  { m with placements := m.placements.map (fun p => { p with gangs := p.gangs.map (fun g => if g.id == id then f g else g) }) }

/-- The declared core counts of the parts placed with a gang (R336). -/
def Mod.partCores (m : Mod) (gang : Nat) : Tab Nat :=
  match m.placementOf gang with
  | none => []
  | some p =>
    match m.image p.image with
    | none => []
    | some i => i.parts.foldl (fun t d => Tab.set t d.part d.cores) []

/-- The sites of a region's gang, by logical core (R336). -/
def Region.siteOf (g : Region) (core : Nat) : Nat := g.site.getD core 0

/-- The logical core of a site in its region's gang, if it has one. -/
def Region.coreOf (g : Region) (site : Nat) : Option Nat :=
  let k := g.site.findIdx (· == site)
  if k < g.site.length then some k else none

/-- What an operation in a core sees of its region, at a position and address (CoreOps, Ctx). -/
def Mod.ctx (m : Mod) (r core pos addr : Nat) : Ctx :=
  let g := m.region r
  { cycle := g.cycle, view := g.ticks, pos := pos, addr := addr, decl := g.decl, core := core
    accNearest := g.accNearest, digestOn := g.digestOn, b0 := m.b0, img := g.run.interlocked, pops := []
    bounds := g.dig.pending.map (·.pos), parts := m.partCores g.run.gang, modules := m.topo.reach }

/-- The surroundings of a site's core, none when no core of a running gang is there. -/
def Mod.siteCtx (m : Mod) (site pos addr : Nat) : Option Ctx :=
  let g := m.region (siteRegion site)
  match g.coreOf site with
  | some k => if g.run.running then some (m.ctx (siteRegion site) k pos addr) else none
  | none => none

/-- Every gang of the module that is running, by region. -/
def Mod.runningRegions (m : Mod) : List Nat := allRegions.filter (fun r => (m.region r).run.running)

def Mod.anyRunning (m : Mod) : Bool := allRegions.any (fun r => (m.region r).run.running)

/-- TICK_VOID of a region's running gang set (R55). -/
def Mod.voidTicks (m : Mod) (r : Nat) : Mod :=
  if (m.region r).run.running then m.onRegion r (fun g => { g with run := { g.run with tickVoid := true } }) else m

/-- CYCLE_VOID of a region's running gang set (R465). -/
def Mod.voidCycles (m : Mod) (r : Nat) : Mod :=
  if (m.region r).run.running then m.onRegion r (fun g => { g with run := { g.run with cycleVoid := true } }) else m

/-- An occurrence of an event counted in the region's mark: the first one's details are kept, or the largest overrun's
(R601, Table 14.18). -/
def countEv (g : Region) (x : EvOut) : Region :=
  { g with ev := Tab.upd g.ev x.code {} (fun c =>
      if c.count = 0 then { count := 1, gang := if g.run.running || !g.run.settled then g.run.gang else 0, d0 := x.d0, d := x.d }
      else { c with count := c.count + 1, d0 := c.d0, d := if x.code = 2 then max c.d x.d else c.d }) }

/-! ### Fences and usable sites -/

/-- The fence code of a site (Table 1.3). -/
def Mod.fence (m : Mod) (s : Nat) : Nat := Tab.get m.desc.fence s 3

/-- Whether a site's core is gated off: fenced, or being fenced in full (R618, R620). -/
def Mod.gated (m : Mod) (s : Nat) : Bool := m.fence s != 0 || m.mesh.removing.contains s

/-- The sites of a region. -/
def regionSites (r : Nat) : List Nat := (List.range 1024).map (siteAt r)

/-- The usable sites of a region by ascending in-region index, the order in which logical cores are mapped (log entry 14). -/
def Mod.usableSites (m : Mod) (r : Nat) : List Nat := (regionSites r).filter (fun s => !m.gated s)

/-! ### Bytes -/

/-- `bs` with `v` written at offset `o`, zeros filling any gap. -/
def writeBytes (bs : List Byte) (o : Nat) (v : List Byte) : List Byte :=
  let p := bs.take o
  p ++ zeros (o - p.length) ++ v ++ bs.drop (o + v.length)

/-- `k` bytes of a memory from address `a`. -/
def Mem.bytes (m : Mem 8) (a : Nat) (k : Nat) : List Byte := (List.range k).map (fun i => m.get (a + i))

/-- `v` written to a memory from address `a`. -/
def Mem.writeAll (m : Mem 8) (a : Nat) : List Byte → Mem 8
  | [] => m
  | b :: bs => Mem.writeAll (m.set a b) (a + 1) bs

end Sys2Proof.Machine
end

