-- ==== Sys2Proof/Machine/Events.lean ====
section
/-!
DEFINITION. Machine/Events.lean: the event ring and its backlog, the change log, MSI-X messages and notices sent
(spec/14_tirix.md R506, R507, R534 to R537; spec/15_bringup.md R573, R574; spec/17_faults.md R599 to R604).
-/

namespace Sys2Proof.Machine

open Sys2Proof

/-- An MSI-X message on a vector; none is sent in SAFE_HOLD or while the host has MSI-X disabled (R507, R541). -/
def sendMsix (v : Nat) (m : Mod) : Mod :=
  if m.aon.state = .safeHold ∨ !m.host.msixOn then m
  else { m with host := { m.host with msixSent := Tab.upd m.host.msixSent v 0 (· + 1) } }

/-- Whether the ring has a free slot (R536). -/
def Events.room (e : Events) : Bool := decide ((e.produced - e.consumed).toNat < 126)

/-- A record written to its slot of MB31 (R534, R535). -/
def Events.write (e : Events) (x : EvRec) : Events :=
  { e with slots := Tab.set e.slots (e.produced.toNat % 126) (e.produced, x), produced := e.produced + 1, unsignalled := true }

/-- A record delivered: to the ring, else to the backlog, else lost (R536, R604). -/
def recordEvent (x : EvRec) (m : Mod) : Mod :=
  let e := m.events
  { m with events :=
      if m.aon.state ≠ .safeHold ∧ e.backlog = [] ∧ e.room then e.write x
      else if e.backlog.length < 1024 then { e with backlog := e.backlog ++ [x] }
      else { e with lost := e.lost + 1 } }

/-- Backlogged records written in order while slots are free (R536, R604). -/
def Events.flush (e : Events) : Events :=
  e.backlog.foldl (fun a x => if a.room && !a.backlog.isEmpty then { a.write x with backlog := a.backlog.drop 1 } else a) e

/-- The policy level of an event code, the default of Table 17.2 until set (R599, R600). -/
def evDefault (code : Nat) : Nat := if code = 0x08 then 2 else if code = 0x0E then 3 else 1

def Mod.level (m : Mod) (code : Nat) : Nat := Tab.get m.settings.policy code (evDefault code)

/-- The events that POLICY_SET may lower to 0 (Table 17.2). -/
def evLowerable (code : Nat) : Bool := [0x02, 0x03, 0x05, 0x0A, 0x0C, 0x10, 0x12, 0x14].contains code

/-- The change log's newest 512 entries (R573). -/
def logChange (cmd sess item target : Nat) (failed : Bool) (old new : Nat) (m : Mod) : Mod :=
  let e : LogEntry := { command := BitVec.ofNat 16 cmd, session := BitVec.ofNat 16 sess
                        detail := BitVec.ofNat 32 ((b2n failed <<< 31) + ((item % 256) <<< 16) + target % 65536)
                        stick := m.aon.stick, old := BitVec.ofNat 64 old, new := BitVec.ofNat 64 new }
  let l := m.log ++ [e]
  { m with log := l.drop (l.length - 512), logTotal := m.logTotal + 1 }

/-- A notice flooded over every port that carries notices (R372, R416, Table 10.6). -/
def floodNotice (n : NoticeIn) (except : Option Nat) (m : Mod) : Mod :=
  (List.range 24).foldl (fun m p =>
    let s := (m.port p).state
    if (s = .hello ∨ s = .up ∨ s = .isolated) ∧ except ≠ some p then m.onPort p (fun x => { x with outbox := x.outbox ++ [n] }) else m) m

/-- The module index x + 16y + 256z of a COORD (R398). -/
def coordIndex (c : W16) : Nat := sel c 3 0 + 16 * sel c 7 4 + 256 * sel c 11 8

end Sys2Proof.Machine
end

