-- ==== Sys2Proof/Machine/StockOps.lean ====
section
/-!
DEFINITION. Machine/StockOps.lean: stock as sessions and engines see it: page-table entries, translation, rows and bytes by
stock address, free physical pages and quotas (spec/08_stock.md R292 to R298; spec/14_tirix.md R510, R517 to R519).
A physical page is named by its PPN, or by 2^20 + 256 · device + n for narrow page n (R296).
-/

namespace Sys2Proof.Machine

open Sys2Proof

/-! ### Page-table entries (Table 8.2) -/

def pteKey (sess page : Nat) : Nat := sess * 2 ^ 27 + page % 2 ^ 27

def Mod.pte (m : Mod) (sess page : Nat) : W64 := Tab.get m.alloc.pt (pteKey sess page) 0

def Mod.setPte (m : Mod) (sess page : Nat) (e : W64) : Mod :=
  { m with alloc := { m.alloc with pt := if e = 0 then Tab.erase m.alloc.pt (pteKey sess page)
                                         else Tab.set m.alloc.pt (pteKey sess page) e } }

def pteValid (e : W64) : Bool := bit e 63
def pteResident (e : W64) : Bool := bit e 62
def ptePageable (e : W64) : Bool := bit e 61
def ptePinned (e : W64) : Bool := bit e 60
def pteWritable (e : W64) : Bool := bit e 59
def pteDirty (e : W64) : Bool := bit e 58
def pteNarrow (e : W64) : Bool := bit e 56

/-- The physical page an entry names (R295, R296). -/
def ptePage (e : W64) : Nat :=
  if pteNarrow e then 2 ^ 20 + 256 * sel e 55 51 + sel e 39 32 else sel e 50 32 + 2 ^ 19 * sel e 31 31

/-- An entry made to name a physical page. -/
def pteWithPage (e : W64) (p : Nat) : W64 :=
  if p < 2 ^ 20 then put (put (put e 50 32 (p % 2 ^ 19)) 31 31 (p / 2 ^ 19)) 56 56 0
  else put (put (put e 55 51 ((p - 2 ^ 20) / 256)) 50 32 ((p - 2 ^ 20) % 256)) 56 56 1

/-- Chunk `j` of a physical page, as 256 · (interface address / 1,024) + interface (R292, R296). -/
def pageChunk (p j : Nat) : Nat :=
  if p < 2 ^ 20 then p * 2048 + j
  else (0x7F0000 + 256 * ((p - 2 ^ 20) % 256) + j / 8) * 256 + 8 * ((p - 2 ^ 20) / 256) + j % 8

/-- The physical page a chunk belongs to, given whether narrow pages are meant. -/
def chunkIface (k : Nat) : Nat := k % 256

/-- The chunk a stock address falls in, of a page named by its entry (R293). -/
def saChunk (e : W64) (sa : Nat) : Nat := pageChunk (ptePage e) (sa % 2 ^ 21 / 1024)

/-! ### Contents -/

def Mod.chunk (m : Mod) (k : Nat) : Vec := m.stock.mem.get k

def Mod.setChunk (m : Mod) (k : Nat) (v : Vec) : Mod := { m with stock := { m.stock with mem := m.stock.mem.set k v } }

/-- Whether a chunk lies in a physical page (R292, R296). -/
def chunkInPage (p k : Nat) : Bool :=
  if p < 2 ^ 20 then k / 2048 == p
  else decide (0x7F0000 ≤ k / 256) && (k / 256 - 0x7F0000) / 256 == (p - 2 ^ 20) % 256 && k % 256 / 8 == (p - 2 ^ 20) / 256

/-- A page made to read zero in every byte (R518). -/
def Mod.zeroPage (m : Mod) (p : Nat) : Mod :=
  match m.stock.mem.base with
  | none => { m with stock := { m.stock with mem := { m.stock.mem with cells := m.stock.mem.cells.filter (fun x => !chunkInPage p x.1) } } }
  | some _ => (List.range 2048).foldl (fun m j => m.setChunk (pageChunk p j) 0) m

/-- The row at a stock address, of a chunk. -/
def chunkRow (v : Vec) (sa : Nat) : Row := elem 4096 v (sa % 1024 / 512)

def setChunkRow (v : Vec) (sa : Nat) (r : Row) : Vec :=
  if sa % 1024 / 512 = 0 then put v 4095 0 r.toNat else put v 8191 4096 r.toNat

/-- A translator's marks on an access (R295). -/
def Mod.touchPage (m : Mod) (sess page : Nat) (write : Bool) : Mod :=
  let e := m.pte sess page
  m.setPte sess page (if write then put (put e 57 57 1) 58 58 1 else put e 57 57 1)

/-- Whether a byte range lies on valid pages, resident and writable where asked. -/
def Mod.rangeOk (m : Mod) (sess sa len : Nat) (resident writable : Bool) : Bool :=
  (List.range ((sa + len + 2 ^ 21 - 1) / 2 ^ 21 - sa / 2 ^ 21)).all (fun i =>
    let e := m.pte sess (sa / 2 ^ 21 + i)
    pteValid e && (!resident || pteResident e) && (!writable || pteWritable e))

/-- One byte of a session's stock. -/
def Mod.stockByte (m : Mod) (sess sa : Nat) : Byte :=
  elem 8 (m.chunk (saChunk (m.pte sess (sa / 2 ^ 21)) sa)) (sa % 1024)

def Mod.stockBytes (m : Mod) (sess sa len : Nat) : List Byte := (List.range len).map (fun i => m.stockByte sess (sa + i))

/-- Bytes written to a session's stock (R6). -/
def Mod.stockWrite (m : Mod) (sess : Nat) : Nat → List Byte → Mod
  | _, [] => m
  | sa, b :: bs =>
    let k := saChunk (m.pte sess (sa / 2 ^ 21)) sa
    let lo := 8 * (sa % 1024)
    Mod.stockWrite (m.setChunk k (put (m.chunk k) (lo + 7) lo b.toNat)) sess (sa + 1) bs

/-- A chunk's 1,024 bytes as one word. -/
def chunkOf (bs : List Byte) : Vec := wordOf 8192 bs

/-! ### Chunk requests -/

/-- The page-table entry of a chunk request's page, in the address space of its region's session. -/
def Mod.reqPte (m : Mod) (q : ChunkReq) : W64 := m.pte (m.region q.region).run.session (q.chunk / 2048)

/-- The interface a chunk of a session's stock lies on (R292, R296). -/
def Mod.chunkAt (m : Mod) (sess chunk : Nat) : Nat := saChunk (m.pte sess (chunk / 2048)) (chunk * 1024) % 256

/-- The rows a STORE has read of one chunk. -/
def Mod.storeRows (m : Mod) (q : ChunkReq) : List StoreRow :=
  (m.region q.region).eng.stores.filter (fun x => x.xfer == q.xfer && x.sa / 1024 == q.chunk)

/-- A STORE's rows of one chunk written, together (R311); the translator marks the page (R295). -/
def Mod.storeChunk (m : Mod) (q : ChunkReq) : Mod :=
  let k := saChunk (m.reqPte q) (q.chunk * 1024)
  let v := (m.storeRows q).foldl (fun v x => setChunkRow v x.sa x.val) (m.chunk k)
  (m.setChunk k v).touchPage (m.region q.region).run.session (q.chunk / 2048) true

/-! ### Pages that transfers hold (R304, R519) -/

/-- The rows of a transfer, counted once. -/
def Xfer.len (x : Xfer) : Nat := x.pieces.foldl (fun n p => n + p.rows) 0

/-- The chunks a transfer touches, by stock address divided by 1,024. -/
def Xfer.chunks (x : Xfer) : List Nat :=
  (List.range ((x.sa % 1024 + 512 * x.len + 1023) / 1024)).map (fun i => (x.sa / 1024 + i) % 2 ^ 38)

/-- Whether a transfer that is not complete touches a page of a session. -/
def Mod.pageHeld (m : Mod) (sess page : Nat) : Bool :=
  allRegions.any (fun r => (m.region r).run.session == sess &&
    (m.region r).eng.xfers.any (fun t => t.chunks.any (fun k => k / 2048 == page)))

/-- A page freed, or left to be freed when the transfers that hold it complete (R519). -/
def Mod.freePage (m : Mod) (sess page : Nat) : Mod :=
  if m.pageHeld sess page then { m with alloc := { m.alloc with defer := m.alloc.defer ++ [pteKey sess page] } }
  else m.setPte sess page 0

/-- The pages freed whose transfers have completed. -/
def Mod.freeDeferred (m : Mod) : Mod :=
  let ready := m.alloc.defer.filter (fun k => !m.pageHeld (k / 2 ^ 27) (k % 2 ^ 27))
  ready.foldl (fun m k => m.setPte (k / 2 ^ 27) (k % 2 ^ 27) 0)
    { m with alloc := { m.alloc with defer := m.alloc.defer.filter (fun k => !ready.contains k) } }

/-! ### Free pages and quotas -/

/-- The physical pages in use: resident pages of sessions, and pages of images and save areas. -/
def Mod.usedPages (m : Mod) : List Nat :=
  (m.alloc.pt.filterMap (fun x => if pteResident x.2 then some (ptePage x.2) else none)) ++ m.images.flatMap (·.pages) ++
    m.placements.flatMap (·.savePages)

/-- The free runs between rising used numbers, from `k` to `lim`. -/
def freeRuns (lim : Nat) : Nat → List Nat → List (Nat × Nat)
  | k, [] => [(k, lim - k)]
  | k, u :: us => (k, u - k) :: freeRuns lim (max k (u + 1)) us

/-- The first `n` numbers of a list of runs. -/
def takeRuns : Nat → List (Nat × Nat) → List Nat
  | _, [] => []
  | n, (k, l) :: t => (List.range' k (min n l)) ++ takeRuns (n - l) t

/-- The `n` lowest free physical pages within `[lo, hi)`, if there are so many (log entry 16). -/
def Mod.freeIn (m : Mod) (lo hi n : Nat) : Option (List Nat) :=
  let used := sortBy (fun a b => decide (a ≤ b)) (m.usedPages.filter (fun p => decide (lo ≤ p) && decide (p < hi)))
  let l := takeRuns n (freeRuns hi lo used)
  if l.length = n then some l else none

/-- Whether any narrow page exists, or any wide page lies on the narrow-page PPNs (R297). -/
def Mod.anyNarrow (m : Mod) : Bool := m.alloc.pt.any (fun x => pteNarrow x.2) || m.usedPages.any (fun p => decide (2 ^ 20 ≤ p))
def Mod.anyHighWide (m : Mod) : Bool := m.usedPages.any (fun p => decide (1040384 ≤ p) && decide (p < 2 ^ 20))

/-- The `n` lowest free wide pages (R297). -/
def Mod.freeWide (m : Mod) (n : Nat) : Option (List Nat) := m.freeIn 0 (if m.anyNarrow then 1040384 else 2 ^ 20) n

/-- `n` free narrow pages of one trained device, the named one or the lowest with room (R298). -/
def Mod.freeNarrow (m : Mod) (dev : Option Nat) (n : Nat) : Option (List Nat) :=
  if m.anyHighWide then none else
  let try' (d : Nat) : Option (List Nat) :=
    if bit m.desc.stockTrained d then m.freeIn (2 ^ 20 + 256 * d) (2 ^ 20 + 256 * d + 256) n else none
  match dev with
  | some d => if d < 32 then try' d else none
  | none => (List.range 32).findSome? try'

/-- Free narrow pages of the trained devices, in device order (log entry 16). -/
def Mod.narrowPages (m : Mod) : List Nat :=
  if m.anyHighWide then [] else
  let used := m.usedPages
  ((List.range 32).filter (fun d => bit m.desc.stockTrained d)).flatMap (fun d =>
    (List.range' (2 ^ 20 + 256 * d) 256).filter (fun p => !used.contains p))

/-- Pages for Tirix's own use: narrow in ROUGH_CUT, over several devices if need be, and wide otherwise (R298, R520). -/
def Mod.tirixPages (m : Mod) (n : Nat) : Option (List Nat) :=
  if m.aon.state = .roughCut then
    let l := m.narrowPages.take n
    if l.length = n then some l else none
  else m.freeWide n

/-- The pages a session's quota is charged with (R510, R520, R521). -/
def Mod.quotaUsed (m : Mod) (sess : Nat) : Nat :=
  (m.alloc.pt.filter (fun x => x.1 / 2 ^ 27 == sess)).length +
  (m.images.filter (fun i => i.session == sess)).foldl (fun n i => n + i.pages.length) 0 +
  (m.placements.filter (fun p => p.session == sess)).foldl (fun n p => n + p.savePages.length) 0

/-- A session's quota; the owner's, which the spec does not limit, is all of stock (log entry 16). -/
def Mod.quotaOf (m : Mod) (sess : Nat) : Nat :=
  match m.sessions.find? (fun s => s.id == sess) with
  | some s => s.quota
  | none => 0

end Sys2Proof.Machine
end

