-- ==== Sys2Proof/Machine/GangOps.lean ====
section
/-!
DEFINITION. Machine/GangOps.lean: ending a gang: settling issued bundles, the final digest boundary, leftover entries and
tokens, abandoned clamp words, and the completion of long-running commands (spec/06_sequencer.md R246 to R248;
spec/03_core_row.md R90; spec/08_stock.md R317; spec/09_messages.md R370, R372; spec/13_determinism.md R474 to R478;
spec/14_tirix.md R503). Log entry 20 says what GANG_STOP does in one step.
-/

namespace Sys2Proof.Machine

open Sys2Proof

/-! ### Long-running commands -/

/-- A long-running command completed: the completion record, C_SEQ last, LONG cleared and the vector sent; nothing is
written for a mailbox whose session has closed (R503, R505). -/
def completeJob (j : Job) (status : Nat) (body : List Byte) (m : Mod) : Mod :=
  let m := { m with jobs := m.jobs.filter (fun x => !(x.mb == j.mb && x.seq == j.seq && x.command == j.command)) }
  if j.orphan then m else
  let m := m.onMailbox j.mb (fun b => { b with
    cCommand := j.command, cStatus := BitVec.ofNat 16 status, cLength := BitVec.ofNat 32 body.length
    cTag := j.tag, cBody := body, cSeq := j.seq })
  if (m.mailbox j.mb).irq && !j.quiet then sendMsix j.mb m else m

/-- Whether FLAGS.LONG is set on a mailbox. -/
def Mod.long (m : Mod) (mb : Nat) : Bool := m.jobs.any (fun j => j.mb == mb && !j.orphan)

/-! ### Executing what is issued -/

/-- What STEP would have written for bundles discarded from position `p` on, dropped (R226, R246). -/
def dropSteps (p : Nat) (c : Core) : Core :=
  { c with cc := { c.cc with future := c.cc.future.filter (fun f => !(f.word == 0x7FC && decide (p < f.pos))) } }

/-- A core carried on until every operation has completed. -/
def finishOps (ctx : Ctx) (cyc : Nat) (c : Core) : Core := lookAhead ctx [] (cyc + 40) 40 cyc c

/-- The cores of a gang carried through its issued bundles: each executes in order at its cycle while no core has an unmet
condition but a bank conflict, which takes its k cycles; the first held bundle and every later one is discarded (R105, R246).
A bundle whose slots a core has executed is not executed there again. The logical core of each is its place. -/
def runPipe (ctx : Nat → Ctx) : List Issued → Nat → List (Nat × Core) → Nat × List (Nat × Core)
  | [], cyc, cs => (cyc + 40, cs.map (fun x => (x.1, finishOps (ctx x.1) cyc x.2)))
  | b :: bs, cyc, cs =>
    let t := max b.sched cyc
    let cs := cs.map (fun x => (x.1, visibleNow t (lookAhead (ctx x.1) [] t (t - cyc) cyc x.2)))
    let ctx' (k : Nat) : Ctx := { ctx k with cycle := t, pos := b.pos, addr := b.addr }
    let hs := cs.map (fun x => if x.2.pos ≤ b.pos then bundleHolds (ctx' x.1) true t b.bundle (settleWords x.2 b.pos) else [])
    if hs.any (fun h => h.any (fun x => x.cause != 3))
    then (t + 40, cs.map (fun x => (x.1, dropSteps b.pos (finishOps (ctx x.1) t x.2))))
    else
      let e := hs.foldl (fun e h => h.foldl (fun e x => max e (x.ready.getD e)) e) t
      let cs := cs.map (fun x =>
        (x.1, lookAhead (ctx x.1) (if x.2.pos ≤ b.pos then [(b, e)] else []) (e + 1) (e + 1 - t) t x.2))
      runPipe ctx bs (e + 1) cs

/-- A region's issued bundles settled in one step, in the cores that are not gated (R246, R616; log entry 20). -/
def settleIssued (r : Nat) (m : Mod) : Mod :=
  let g := m.region r
  let cs := (g.site.zipIdx.filter (fun x => !m.gated x.1)).map (fun x => (x.2, m.core x.1))
  let (cyc, cs) := runPipe (fun k => m.ctx r k 0 0) g.seq.pipe g.cycle cs
  let m := cs.foldl (fun m x => m.setCore (g.siteOf x.1) x.2) m
  m.onRegion r (fun g => { g with cycle := cyc, seq := { g.seq with pipe := [] } })

/-! ### Digest boundaries -/

/-- RFLAGS of a region at a boundary (Table 13.4). -/
def regionFlags (g : Region) (final : Bool) : Byte :=
  BitVec.ofNat 8 (b2n final * 16 + b2n g.run.interlocked.isSome * 8 + b2n g.accNearest * 4 + b2n g.run.cycleVoid * 2 +
    b2n g.run.tickVoid)

/-- The digest ring of the gang a region runs or last ran. -/
def Mod.ringOf (m : Mod) (r : Nat) : Option DigRing := (m.placementOf (m.region r).run.gang).bind (·.ring)

/-- Each core's interval closed at the boundaries whose earlier bundles have all executed (R475); with no ring no record
follows, and the snapshot frees (Table 14.11 RING_SA). -/
def pruneBounds (r : Nat) (m : Mod) : Mod :=
  let g := m.region r
  if (m.ringOf r).isSome then m else
  let (done, rest) := g.dig.pending.partition (fun s => g.seq.pipe.all (fun b => decide (s.pos ≤ b.pos)))
  let m := g.site.foldl (fun m s => m.onCore s (fun c =>
    let d := closeDigest c.dig (done.map (·.pos)) (done.foldl (fun a s => max a s.pos) 0)
    { c with dig := { d with closed := d.closed.filter (fun x => !(done.any (fun s => s.pos == x.1))) } })) m
  m.onRegion r (fun g => { g with dig := { g.dig with pending := rest } })

/-- A digest boundary before position `pos` (R474, R475, R478). -/
def takeBoundary (r pos : Nat) (final : Bool) (m : Mod) : Mod :=
  let m := m.onRegion r (fun g => { g with dig := { g.dig with
    boundaries := g.dig.boundaries + 1
    pending := g.dig.pending ++ [{ layer := g.dig.layerBase + BitVec.ofNat 64 g.dig.boundaries.toNat, pos := pos, final := final
                                   g := g.seq.g, stick := BitVec.ofNat 64 g.ticks, flags := regionFlags g final }] } })
  pruneBounds r m

/-! ### Abandoned words -/

/-- ABANDONED set in the declared words of one core whose owner the test names, and their waiters released (R370, R372). -/
def abandonCore (decl : PartDecl) (owned : W128 → Bool) (c : Core) : Core :=
  decl.clamps.foldl (fun c d =>
    if owned (c.cc.shadow.get d.word) then
      releaseMonitor d.word { c with cc := { c.cc with words := c.cc.words.set d.word (c.cc.words.get d.word ||| 0x2000000000000000#64) } }
    else c) c

/-- ABANDONED set in every running gang of the module (R370). -/
def abandonWords (owned : W128 → Bool) (m : Mod) : Mod :=
  m.runningRegions.foldl (fun m r =>
    let g := m.region r
    g.site.foldl (fun m s => m.onCore s (abandonCore g.decl owned)) m) m

/-- The owner fields of a shadow record (Table 9.8). -/
def ownedLocal (gang : Nat) (s : W128) : Bool := sel s 127 112 == gang && gang != 0 && !bit s 52
def ownedRemote (module gang : Nat) (s : W128) : Bool := sel s 127 112 == gang && gang != 0 && bit s 52 && sel s 51 40 == module
def ownedModule (module : Nat) (s : W128) : Bool := bit s 52 && sel s 51 40 == module

/-! ### The end of a part -/

/-- A core when its gang ends: queue entries and results in flight discarded and counted (R90), tokens and unserved RECV
requests discarded (R317, R248). The second value is the tokens discarded. -/
def endCore (c : Core) : Core × Nat :=
  let c := settleWords c (2 ^ 80)
  let n := c.queues.foldl (fun n q => n + q.2.entries.length) 0
  let k := c.ni.tokens.length + c.ni.tokWait.length
  ({ c with queues := [], waits := [], sp := { c.sp with early := [] }, stall := { c.stall with leftover := bump32 c.stall.leftover n }
            ni := { c.ni with tokens := [], tokWait := [], recvs := [], monitor := none } }, k)

/-- The messages that a core whose gang has ended had matched and not yet delivered: stray writes, now or with their last flit
(R245, R248). -/
def strayRx (c : Core) : Eff :=
  let late (x : RxMsg) : Bool := match x.dest with
    | .undecided => false
    | .stray _ => false
    | .error _ => false
    | _ => true
  let gone := c.ni.rx.filter (fun x => late x && x.complete)
  let rx := (c.ni.rx.filter (fun x => !(late x && x.complete))).map (fun x => if late x then { x with dest := .stray 3 } else x)
  gone.foldl (fun e x => e.bind (fun c => recStray c x 3)) { core := { c with ni := { c.ni with rx := rx } } }

/-- A core ended in its place, its stray writes counted in the region's mark. -/
def endSite (r s : Nat) (m : Mod) : Mod × Nat :=
  let (c, k) := endCore (m.core s)
  let e := strayRx c
  (e.ev.foldl (fun m x => m.onRegion r (fun g => countEv g x)) (m.setCore s e.core), k)

/-- The completion of a pre-emption that an end cuts off (R524). -/
def failPreempt (gang : Nat) (m : Mod) : Mod :=
  match m.placementOf gang with
  | none => m
  | some p =>
    match m.jobs.find? (fun j => match j.kind with
      | .preempt g => g == p.g0
      | _ => false) with
    | none => m
    | some j =>
      let m := p.gangs.foldl (fun m g => m.onRegion g.region (fun x =>
        if x.run.gang = g.id then { x with run := { x.run with preempting := false } } else x)) m
      completeJob j 0x010A [] m

/-- A part ended with a completion status (R247, R248): its leftover work discarded, its flags kept for GANG_STATUS, its
signalled words abandoned unless it ended normally (R370), its final boundary taken where R478 asks one. -/
def endPart (r status : Nat) (m : Mod) : Mod :=
  let g := m.region r
  if !g.run.running then m else
  let m := if [1, 2, 3, 4, 5].contains status then takeBoundary r g.seq.pos true m else m
  let (m, k) := g.site.foldl (fun (a : Mod × Nat) s => let x := endSite r s a.1; (x.1, a.2 + x.2)) (m, 0)
  let m := m.onGang g.run.gang (fun x => { x with
    running := false, pending := false, status := status, tickVoid := g.run.tickVoid, cycleVoid := g.run.cycleVoid
    admitted := g.run.admitted, bundle := g.seq.addr, position := BitVec.ofNat 64 g.seq.pos, gstep := g.seq.g
    kerfBase := BitVec.ofNat 64 g.seq.kerfBase, boundaries := (m.region r).dig.boundaries.toNat })
  let m := m.onRegion r (fun g => { g with
    run := { g.run with running := false, ended := true, settled := false, status := status, preempting := false
                        heldMarks := 0, stalled := false }
    seq := { g.seq with pipe := [], wait := .none, interval := none, stopping := none, kerfBase := 0 }
    eng := { g.eng with queue := [], cnt := { g.eng.cnt with tokensDiscarded := bump32 g.eng.cnt.tokensDiscarded k } } })
  let m := failPreempt g.run.gang m
  if status = 0 then m else
  floodNotice (.gangEnd (Fin.ofNat 4096 (coordIndex m.topo.coord)) (BitVec.ofNat 16 g.run.gang)) none
    (abandonWords (ownedLocal g.run.gang) m)

/-- The completion status of a gang that meets a further reason to end: the first one stands, but an END that has been issued
and not yet executed gives way to whatever ends the gang before it (R227, R229, R246, Table 6.20). -/
def endStatus (now : Option Nat) (status : Nat) : Nat :=
  match now with
  | some (k + 1) => k + 1
  | _ => status

/-- One running part stopped: issued bundles settled, then ended; a part already ending keeps its own status (R246). -/
def stopPart (status r : Nat) (m : Mod) : Mod :=
  if (m.region r).run.running then
    let st := endStatus (m.region r).seq.stopping status
    endPart r st (settleIssued r m)
  else m

/-- Every running part of a placement stopped (R246, R524, R602). -/
def stopPlacement (status g0 : Nat) (m : Mod) : Mod :=
  match m.placement g0 with
  | none => m
  | some p => p.gangs.foldl (fun m g => if (m.region g.region).run.gang = g.id then stopPart status g.region m else m) m

/-- Issue stopped in a region that ends with a status once its issued work is settled (R229, R616). -/
def stopIssue (r status : Nat) (m : Mod) : Mod :=
  m.onRegion r (fun g =>
    if g.run.running then { g with seq := { g.seq with stopping := some (endStatus g.seq.stopping status) } } else g)

end Sys2Proof.Machine
end

