-- ==== Sys2Proof/Machine/SafeHold.lean ====
section
/-!
DEFINITION. Machine/SafeHold.lean: entry to safe hold, and raising an event under its policy, which may stop a gang or enter
safe hold (spec/17_faults.md R599 to R609; spec/16_power.md R598; spec/10_decler_links.md R428).
-/

namespace Sys2Proof.Machine

open Sys2Proof

/-- A chunk request already started on its interface completed as the hold begins (Table 17.3): a STORE's rows written. -/
def finishChunk (m : Mod) (q : ChunkReq) : Mod := if q.store && pteResident (m.reqPte q) then m.storeChunk q else m

/-- The status a long-running command completes with at entry, and its completion body (R505, STOCK_FILL in R519's
section). -/
def holdJob (m : Mod) (j : Job) : Mod :=
  match j.kind with
  | .fill _ _ done _ _ => completeJob j 0x010C (le 8 done) m
  | _ => completeJob j 0x010C [] m

/-- Every event code's record, with the flags its level gives (R599, Table 17.1). -/
def evRecord (code source count gang d0 d flags : Nat) (m : Mod) : EvRec :=
  { code := code, flags := flags + (if m.level code ≥ 2 then 4 else 0), source := source, stick := m.aon.stick
    count := count, gang := gang, d0 := d0, d := BitVec.ofNat 64 d }

/-- GANG_DONE of a part, with its status, the position of the last bundle issued and the INTERLOCKED flag (Table 14.18,
R491). -/
def doneRecord (r status : Nat) (m : Mod) : EvRec :=
  let g := m.region r
  evRecord 0x0F r 1 g.run.gang status (g.seq.pos - 1) (b2n g.run.interlocked.isSome) m

/-- The GANG_DONE of a gang that safe hold has ended: its transfers are abandoned, so its work is settled (R247, R608; log entry 59). -/
def doneSafeHold (r : Nat) (m old : Mod) : Mod :=
  if (old.region r).run.running then recordEvent (doneRecord r 6 m) m else m

/-- A region at entry: its clock stops, its gang ends with SAFE_HOLD, its transfers are abandoned (R606 to R608). -/
def holdRegion (m : Mod) (r : Nat) : Mod :=
  let m := doneSafeHold r (endPart r 6 m) m
  let g := m.region r
  let eng := { g.eng with queue := [], jobs := [], xfers := [], landing := [], stores := [] }
  m.onRegion r (fun g => { g with
    dom := if g.dom = .off ∨ g.dom = .selfTest then g.dom else .sleep
    viewValid := false, step := if g.dom = .awake then 0 else g.step, eng := eng
    run := { g.run with settled := true }, dig := { g.dig with pending := [] } })

/-- A region domain that has lost power: its cores and records gone (R285, R576). -/
def clearRegion (r : Nat) (m : Mod) : Mod :=
  let m := { m with cores := m.cores.filter (fun x => siteRegion x.1 != r), freeCtr := m.freeCtr + 25600 }
  m.onRegion r (fun g => g.cleared m.freeCtr)

/-- The main input lost: every region and both stock edges lose their contents (Table 17.4, R611). -/
def loseMain (m : Mod) : Mod :=
  let m := allRegions.foldl (fun m r => clearRegion r m) m
  { m with stock := { m.stock with mem := Mem.undef m.freeCtr }, freeCtr := m.freeCtr + 1
           bringup := { m.bringup with west := .off, east := .off } }

/-- A port at entry: QUIET sent, every message held in the switch discarded (R428); leaving UP is reported (R409). -/
def holdPort (m : Mod) (p : Nat) : Mod :=
  let x := m.port p
  let m := if x.state = .up then
      recordEvent (evRecord 0x0B p 1 0 0 x.nserial.toNat 2 m)
        (m.onPort p (fun x => { x with cnt := { x.cnt with linkDowns := bump32 x.cnt.linkDowns 1 } }))
    else m
  if x.state = .down ∨ x.state = .training ∨ x.state = .disabled then m
  else m.onPort p (fun x => { x with state := .quiet, ingress := [], retryBuf := [], resend := [], changeStick := m.aon.stick })

/-- Entry to SAFE_HOLD (Table 17.3, R606 to R609), contents lost under cause 0x04. A further cause while held changes no
SAFE_HOLD_CAUSE; it is kept for the clearing conditions of R611. -/
def enterSafeHold (cause : Nat) (m : Mod) : Mod :=
  if m.aon.state = .off then m else
  let again := bit m.aon.heldCauses cause
  let m := { m with aon := { m.aon with heldCauses := sticky m.aon.heldCauses cause } }
  if m.aon.state = .safeHold then (if cause = 4 ∧ !again then loseMain m else m) else
  let started := (List.range 256).flatMap (fun i => (m.iface i).started)
  let m := started.foldl finishChunk m
  let m := { m with aon := { m.aon with
    entryState := m.aon.state, state := .safeHold, safeCause := BitVec.ofNat 8 cause
    pins := { m.aon.pins with fault := true, syncOut := false } } }
  let m := (allRegions.foldl holdRegion m).freeDeferred
  let m := m.jobs.foldl holdJob m
  let m := (List.range 24).foldl holdPort m
  let edge (e : EdgeState) : EdgeState := if e = .on then .selfRefresh else e
  let m := { m with
    mesh := { m.mesh with msgs := [], bufs := [], owner := [], splines := [], gateways := [] }
    topo := { m.topo with reach := [], gen := m.topo.gen + 1 }
    stock := { m.stock with ifaces := m.stock.ifaces.mapVals (fun _ i => { i with waiting := [], started := [], held := [] })
                            selfRefresh := true }
    bringup := { m.bringup with west := edge m.bringup.west, east := edge m.bringup.east } }
  let m := if cause = 4 then loseMain m else m
  recordEvent { (evRecord 0x0E 0xFFFF 1 0 cause 0 0 m) with flags := 4 } m

/-- An event raised: its record, then what its level asks (R599 to R604). `gang` is 0 when the event names none; the gang
stopped at level 2 is then the one running on the region named by `source`. -/
def raiseEvent (code source count gang d0 d flags : Nat) (m : Mod) : Mod :=
  let l := m.level code
  if l = 0 then m else
  let held : Bool := m.aon.state == .safeHold
  let m := recordEvent (evRecord code source count gang d0 d flags m) m
  if held ∨ l = 1 then m
  else if l = 2 then
    let g := if gang ≠ 0 then gang else if source < 25 ∧ (m.region source).run.running then (m.region source).run.gang else 0
    match m.placementOf g with
    | some p => stopPlacement 1 p.g0 m
    | none => m
  else enterSafeHold 6 m

/-- A core left by an operation: its state, its events counted in the region's mark, an uncorrectable error raised at once
and stopping the gang (R284, R601, Table 17.2). -/
def Mod.applyEff (m : Mod) (site : Nat) (e : Eff) : Mod :=
  let r := siteRegion site
  let m := m.setCore site e.core
  let m := if e.sramStop then
      let m := { m with power := { m.power with sramErrs := Tab.upd m.power.sramErrs site 0 (· + 1) } }
      stopIssue r 4 m
    else m
  e.ev.foldl (fun m x =>
    if x.code = 8 then raiseEvent 8 r 1 (m.region r).run.gang x.d0 x.d 0 m else m.onRegion r (fun g => countEv g x)) m

end Sys2Proof.Machine
end

