-- ==== Sys2Proof/WellFormed.lean ====
section
/-!
DEFINITION. WellFormed.lean: which commands spell their row: the operation code, selector byte or length that tells the row
from its neighbours in spec/opcode_table.json (log entries 3, 4 and 5).
-/

namespace Sys2Proof

open Sys2Proof.Machine

/-- A request names a mailbox that takes commands, or MB31, and has a body of at most 2,016 bytes (Table 14.4). -/
def Req.ok (q : Req) : Bool := decide (q.body.length ≤ 2016)

/-- An SPDM request's path; through a mailbox its request must be well formed. -/
def SpdmVia.ok : SpdmVia → Bool
  | .attest q => q.ok
  | _ => true

/-- The OP field of a slot (R206). -/
def SlotOp.op (x : SlotOp) : Nat := sel x.word 39 34

/-- The command codes of Table 14.7. -/
def commandCodes : List Nat :=
  [0x01, 0x02, 0x03, 0x04, 0x05, 0x06, 0x07, 0x08, 0x10, 0x11, 0x12, 0x13, 0x20, 0x21, 0x22, 0x23, 0x24, 0x25, 0x30, 0x31,
   0x32, 0x33, 0x34, 0x35, 0x36, 0x37] ++
  [0x40, 0x41, 0x42, 0x43, 0x44, 0x45, 0x50, 0x51, 0x52, 0x53, 0x54, 0x60, 0x61, 0x62, 0x63, 0x64]

def knownCommand (code : Nat) : Bool := commandCodes.contains code

/-- Whether a command's operands spell its row. -/
def Instr.wf : Instr → Bool
  | .hello q => q.ok
  | .openSession q => q.ok
  | .closeSession q => q.ok
  | .installOwner q => q.ok
  | .ownerProveNonce q => q.ok && decide (q.byte 0 ≠ 1)
  | .ownerProveProof q => q.ok && decide (q.byte 0 = 1)
  | .supplyPufHelper q => q.ok
  | .pufRegenerationDone _ digest => decide (digest.length = 64)
  | .supplyIdentityCert q => q.ok
  | .getDescriptor q => q.ok
  | .getTopology q => q.ok
  | .setPartition q => q.ok
  | .linkDisable q => q.ok && decide (q.byte 0 = 0 ∨ 4 < q.byte 0)
  | .linkEnable q => q.ok && decide (q.byte 0 = 1)
  | .linkChallenge q => q.ok && decide (q.byte 0 = 2)
  | .linkChallengeDone _ => true
  | .requireVerified q => q.ok && decide (q.byte 0 = 3)
  | .trustAnchor q => q.ok && decide (q.byte 0 = 4)
  | .stockAlloc q => q.ok
  | .stockFree q => q.ok
  | .stockMapHost q => q.ok
  | .stockPin q => q.ok && decide (q.byte 0x0C = 1)
  | .stockUnpin q => q.ok && decide (q.byte 0x0C ≠ 1)
  | .stockPinDone _ => true
  | .stockFill q => q.ok
  | .stockFillDone _ => true
  | .wheelSet q => q.ok
  | .programLoad q => q.ok
  | .programLoadDone _ => true
  | .programUnload q => q.ok
  | .gangPlace q => q.ok && decide (q.byte 2 % 2 = 0)
  | .gangPlaceRelease q => q.ok && decide (q.byte 2 % 2 = 1)
  | .gangStart q => q.ok
  | .gangStop q => q.ok
  | .gangPreempt q => q.ok
  | .gangResume q => q.ok
  | .gangResumeDone _ => true
  | .gangStatus q => q.ok
  | .clampRead q => q.ok
  | .clampSetWord q => q.ok && decide (q.byte 0 ≠ 1)
  | .clampSetRing q => q.ok && decide (q.byte 0 = 1)
  | .countersRead q => q.ok
  | .traceConfig q => q.ok
  | .digestRead q => q.ok
  | .corePeek q => q.ok
  | .stepStage q => q.ok
  | .modeCommit q => q.ok && decide (q.byte 8 < 128)
  | .modeCommitWithdraw q => q.ok && decide (128 ≤ q.byte 8)
  | .envelopeSet q => q.ok
  | .ceilingSet q => q.ok
  | .telemetryRead q => q.ok
  | .eventAck q => q.ok
  | .logRead q => q.ok
  | .fenceCore q => q.ok
  | .safeHoldClear q => q.ok
  | .eventPolicy q => q.ok && decide (q.byte 0 < 2 ∨ 4 < q.byte 0)
  | .progressMarks q => q.ok && decide (q.byte 0 = 2)
  | .syncIo q => q.ok && decide (q.byte 0 = 3)
  | .bar2Window q => q.ok && decide (q.byte 0 = 4)
  | .getVersion via => via.ok
  | .getCapabilities via => via.ok
  | .negotiateAlgorithms via => via.ok
  | .getDigests via => via.ok
  | .getCertificate via _ _ => via.ok
  | .challenge via nonce => via.ok && decide (nonce.length = 32)
  | .getMeasurements via nonce _ _ => via.ok && decide (nonce.length = 32)
  | .spdmUnsupportedRequest via => via.ok
  | .setEndpointId _ => true
  | .registerWrite offset bytes => decide (0 < bytes.length) && decide (bytes.length ≤ 64) && decide (offset.toNat % 4096 + bytes.length ≤ 4096)
  | .bootGo _ => true
  | .bar2Read offset len => decide (0 < len.toNat) && decide (offset.toNat % 4096 + len.toNat ≤ 4096)
  | .bar2Write offset bytes => decide (0 < bytes.length) && decide (offset.toNat % 4096 + bytes.length ≤ 4096)
  | .bar2AccessComplete => true
  | .bundleIssue _ _ => true
  | .checkStage _ => true
  | .gangHoldRelease _ => true
  | .resultVisible _ => true
  | .loopSet _ scond _ _ => decide (8 ≤ scond.toNat)
  | .loop _ scond _ _ => decide (scond.toNat < 8)
  | .br _ _ _ _ => true
  | .kerf _ _ _ _ => true
  | .kerfRelease _ _ => true
  | .preemptPoint _ _ _ _ => true
  | .preemptSave _ => true
  | .launch _ _ _ _ => true
  | .launchRelease _ => true
  | .gangFirstRelease _ => true
  | .stock _ _ _ _ => true
  | .curve _ _ _ _ => true
  | .step _ _ _ _ => true
  | .endOp _ _ _ _ => true
  | .gangEnd _ => true
  | .gangSettled _ => true
  | .rd op => (op.unit.val == 0 || op.unit.val == 1) && op.op == 0x1 && !slotBad op.unit.val op.word
  | .wload op => (op.unit.val == 2) && op.op == 0x1 && !slotBad op.unit.val op.word
  | .wloadt op => (op.unit.val == 2) && op.op == 0x2 && !slotBad op.unit.val op.word
  | .wloadS op => (op.unit.val == 2) && op.op == 0x3 && !slotBad op.unit.val op.word
  | .shadowComplete _ => true
  | .wswap op => (op.unit.val == 2) && op.op == 0x4 && !slotBad op.unit.val op.word
  | .mmul op => (op.unit.val == 3) && op.op == 0x1 && !slotBad op.unit.val op.word
  | .acc op => (op.unit.val == 4) && op.op == 0x1 && !slotBad op.unit.val op.word
  | .accz op => (op.unit.val == 4) && op.op == 0x2 && !slotBad op.unit.val op.word
  | .accDrain op => (op.unit.val == 4) && op.op == 0x5 && !slotBad op.unit.val op.word
  | .accDrainz op => (op.unit.val == 4) && op.op == 0x6 && !slotBad op.unit.val op.word
  | .acczDrain op => (op.unit.val == 4) && op.op == 0x7 && !slotBad op.unit.val op.word
  | .acczDrainz op => (op.unit.val == 4) && op.op == 0x8 && !slotBad op.unit.val op.word
  | .accRowWritten _ => true
  | .drain op => (op.unit.val == 4) && op.op == 0x3 && !slotBad op.unit.val op.word
  | .drainz op => (op.unit.val == 4) && op.op == 0x4 && !slotBad op.unit.val op.word
  | .vadd op => (op.unit.val == 5 || op.unit.val == 6) && op.op == 0x1 && !slotBad op.unit.val op.word
  | .vsub op => (op.unit.val == 5 || op.unit.val == 6) && op.op == 0x2 && !slotBad op.unit.val op.word
  | .vmul op => (op.unit.val == 5 || op.unit.val == 6) && op.op == 0x3 && !slotBad op.unit.val op.word
  | .vfma op => (op.unit.val == 5 || op.unit.val == 6) && decide (0x4 ≤ op.op) && decide (op.op ≤ 0x6) && !slotBad op.unit.val op.word
  | .vmax op => (op.unit.val == 5 || op.unit.val == 6) && op.op == 0x7 && !slotBad op.unit.val op.word
  | .vmin op => (op.unit.val == 5 || op.unit.val == 6) && op.op == 0x8 && !slotBad op.unit.val op.word
  | .vcmp op => (op.unit.val == 5 || op.unit.val == 6) && op.op == 0x9 && !slotBad op.unit.val op.word
  | .vsel op => (op.unit.val == 5 || op.unit.val == 6) && op.op == 0xA && !slotBad op.unit.val op.word
  | .vcvt op => (op.unit.val == 5 || op.unit.val == 6) && op.op == 0xB && !slotBad op.unit.val op.word
  | .vcvtMx op => (op.unit.val == 5 || op.unit.val == 6) && decide (0x33 ≤ op.op) && decide (op.op ≤ 0x3E) && !slotBad op.unit.val op.word
  | .vexp2 op => (op.unit.val == 5 || op.unit.val == 6) && op.op == 0xC && !slotBad op.unit.val op.word
  | .vlog2 op => (op.unit.val == 5 || op.unit.val == 6) && op.op == 0xD && !slotBad op.unit.val op.word
  | .vrsq op => (op.unit.val == 5 || op.unit.val == 6) && op.op == 0xE && !slotBad op.unit.val op.word
  | .vrcp op => (op.unit.val == 5 || op.unit.val == 6) && op.op == 0xF && !slotBad op.unit.val op.word
  | .vtanh op => (op.unit.val == 5 || op.unit.val == 6) && op.op == 0x10 && !slotBad op.unit.val op.word
  | .vsig op => (op.unit.val == 5 || op.unit.val == 6) && op.op == 0x11 && !slotBad op.unit.val op.word
  | .vscan op => (op.unit.val == 5 || op.unit.val == 6) && op.op == 0x12 && !slotBad op.unit.val op.word
  | .vsegscan op => (op.unit.val == 5 || op.unit.val == 6) && op.op == 0x13 && !slotBad op.unit.val op.word
  | .vargmax op => (op.unit.val == 5 || op.unit.val == 6) && op.op == 0x14 && !slotBad op.unit.val op.word
  | .vargmin op => (op.unit.val == 5 || op.unit.val == 6) && op.op == 0x15 && !slotBad op.unit.val op.word
  | .vmaxr op => (op.unit.val == 5 || op.unit.val == 6) && op.op == 0x16 && !slotBad op.unit.val op.word
  | .vcompact op => (op.unit.val == 5 || op.unit.val == 6) && op.op == 0x17 && !slotBad op.unit.val op.word
  | .vpermRot op => (op.unit.val == 5 || op.unit.val == 6) && op.op == 0x18 && !slotBad op.unit.val op.word
  | .vpermRev op => (op.unit.val == 5 || op.unit.val == 6) && op.op == 0x19 && !slotBad op.unit.val op.word
  | .vpermXchg op => (op.unit.val == 5 || op.unit.val == 6) && op.op == 0x1A && !slotBad op.unit.val op.word
  | .vpermBcast op => (op.unit.val == 5 || op.unit.val == 6) && op.op == 0x1B && !slotBad op.unit.val op.word
  | .vpermZip op => (op.unit.val == 5 || op.unit.val == 6) && op.op == 0x1C && !slotBad op.unit.val op.word
  | .vpermUnzip op => (op.unit.val == 5 || op.unit.val == 6) && op.op == 0x1D && !slotBad op.unit.val op.word
  | .vpermFunnel op => (op.unit.val == 5 || op.unit.val == 6) && decide (0x20 ≤ op.op) && decide (op.op ≤ 0x27) && !slotBad op.unit.val op.word
  | .vpermFunneld op => (op.unit.val == 5 || op.unit.val == 6) && decide (0x28 ≤ op.op) && decide (op.op ≤ 0x2F) && !slotBad op.unit.val op.word
  | .vsrGet op => (op.unit.val == 5 || op.unit.val == 6) && op.op == 0x1E && !slotBad op.unit.val op.word
  | .vsrPut op => (op.unit.val == 5 || op.unit.val == 6) && op.op == 0x1F && !slotBad op.unit.val op.word
  | .vsrSum op => (op.unit.val == 5 || op.unit.val == 6) && op.op == 0x30 && !slotBad op.unit.val op.word
  | .vsrMax op => (op.unit.val == 5 || op.unit.val == 6) && op.op == 0x31 && !slotBad op.unit.val op.word
  | .vsrMin op => (op.unit.val == 5 || op.unit.val == 6) && op.op == 0x32 && !slotBad op.unit.val op.word
  | .wr op => (op.unit.val == 7) && op.op == 0x1 && !slotBad op.unit.val op.word
  | .send op => (op.unit.val == 8) && op.op == 0x1 && !slotBad op.unit.val op.word
  | .dowel op => (op.unit.val == 8) && op.op == 0x2 && !slotBad op.unit.val op.word
  | .recv op => (op.unit.val == 8) && op.op == 0x3 && !slotBad op.unit.val op.word
  | .wopen op => (op.unit.val == 8) && op.op == 0x4 && !slotBad op.unit.val op.word
  | .wclose op => (op.unit.val == 8) && op.op == 0x5 && !slotBad op.unit.val op.word
  | .upd op => (op.unit.val == 8) && op.op == 0x6 && !slotBad op.unit.val op.word
  | .csetCounter op => (op.unit.val == 9) && op.op == 0x1 && !bit op.word 33 && !slotBad op.unit.val op.word
  | .csetComparator op => (op.unit.val == 9) && op.op == 0x1 && bit op.word 33 && !slotBad op.unit.val op.word
  | .cinc op => (op.unit.val == 9) && op.op == 0x2 && !slotBad op.unit.val op.word
  | .cloadCounterFromQueue op => (op.unit.val == 9) && op.op == 0x3 && sel op.word 33 31 == 0 && !slotBad op.unit.val op.word
  | .cloadCounterFromWord op => (op.unit.val == 9) && op.op == 0x3 && sel op.word 33 31 == 1 && !slotBad op.unit.val op.word
  | .cloadPredicates op => (op.unit.val == 9) && op.op == 0x3 && sel op.word 33 31 == 2 && !slotBad op.unit.val op.word
  | .cloadPushWord op => (op.unit.val == 9) && op.op == 0x3 && sel op.word 33 31 == 3 && !slotBad op.unit.val op.word
  | .cloadPushHandle op => (op.unit.val == 9) && op.op == 0x3 && sel op.word 33 31 == 4 && !slotBad op.unit.val op.word
  | .cloadPushDescriptor op => (op.unit.val == 9) && op.op == 0x3 && sel op.word 33 31 == 5 && !slotBad op.unit.val op.word
  | .cloadWriteWord op => (op.unit.val == 9) && op.op == 0x3 && sel op.word 33 31 == 6 && !slotBad op.unit.val op.word
  | .cmpCounter op => (op.unit.val == 9) && op.op == 0x4 && !bit op.word 33 && !slotBad op.unit.val op.word
  | .cmpPredicate op => (op.unit.val == 9) && op.op == 0x4 && bit op.word 33 && !slotBad op.unit.val op.word
  | .waitwMonitor op => (op.unit.val == 9) && op.op == 0x5 && !bit op.word 31 && !slotBad op.unit.val op.word
  | .waitwPoll op => (op.unit.val == 9) && op.op == 0x5 && bit op.word 31 && !slotBad op.unit.val op.word
  | .incw op => (op.unit.val == 9) && op.op == 0x6 && !slotBad op.unit.val op.word
  | .decw op => (op.unit.val == 9) && op.op == 0x7 && !slotBad op.unit.val op.word
  | .waitl op => (op.unit.val == 9) && op.op == 0x8 && !slotBad op.unit.val op.word
  | .descriptorTake _ => true
  | .transferIssue _ => true
  | .wheelPeriod _ => true
  | .chunkAccess _ _ _ => true
  | .pageService _ _ => true
  | .landingRow _ _ => true
  | .landingPortService _ => true
  | .storeRowRead _ _ => true
  | .tokenPlaced _ => true
  | .messageTransmit _ _ => true
  | .flitHop _ _ _ => true
  | .splineCross _ _ => true
  | .messageArrival _ => true
  | .ringPlace _ => true
  | .recvService _ _ => true
  | .updateRow _ _ => true
  | .updateCopyWrite _ => true
  | .updateReplicaSend _ => true
  | .updateAck _ => true
  | .mark => true
  | .syncIoEdge => true
  | .changeAck _ => true
  | .modeApply _ => true
  | .shim _ _ => true
  | .emergencyStep _ => true
  | .progressStall _ => true
  | .heartbeatLost => true
  | .telemetryRewrite _ => true
  | .sensorSample _ temps _ => decide (temps.length = 16)
  | .overCurrent _ => true
  | .digestRecordWrite _ => true
  | .coreFault _ _ => true
  | .routerParityFailure _ _ => true
  | .routerRemove _ => true
  | .selfTestDone _ _ _ => true
  | .stockTrainingDone _ _ => true
  | .portTrained _ => true
  | .portTrainingTimeout _ => true
  | .helloSend _ => true
  | .helloReceived _ hrec => decide (hrec.length = 128)
  | .portDown _ _ => true
  | .flitReceive _ flit _ => decide (flit.length = 256)
  | .retry _ _ => true
  | .markFlit _ _ _ _ _ => true
  | .notice _ _ => true
  | .challengeReceived _ nonce _ => decide (nonce.length = 32)
  | .challengeRetry _ => true
  | .linkEgress _ _ => true
  | .messageForward _ => true
  | .ingressInject _ => true
  | .plugInsert _ watts => decide (watts.toNat ≤ 25)
  | .regionSleep _ => true
  | .regionOff _ => true
  | .regionWake _ => true
  | .pwrgdAuxAssert _ _ => true
  | .auxEntry _ => true
  | .bootEntry => true
  | .verifyDone => true
  | .tirixRunning => true
  | .standbyEntry => true
  | .pwrgdMainAssert => true
  | .pwrgdMainDeassert => true
  | .mainUndervoltage => true
  | .precharge => true
  | .flowLoss => true
  | .holdIn => true
  | .referenceLost => true
  | .ctrlMemoryUncorrectable => true
  | .safeHoldEntry cause => decide (1 ≤ cause.toNat) && decide (cause.toNat ≤ 8)
  | .auxPowerLoss => true
  | .perstN _ _ _ => true
  | .narrowPageAreaSetUp _ => true
  | .mailboxUnknownCommand code q => q.ok && !knownCommand code.toNat
  | .flowOkAssert => true
  | .holdInRelease => true
  | .referenceRestored => true
  | .cycleEdge _ _ => true
  | .referenceCycle _ => true

end Sys2Proof
end

