-- ==== Sys2Proof/Machine/Cores.lean ====
section
/-!
DEFINITION. Machine/Cores.lean: the slot operations of the ten units as commands, and the events of a core's own results
(spec/03_core_row.md, spec/04_array.md, spec/05_vector.md, spec/07_scratchpad.md, spec/09_messages.md). Each command is one
enabled slot of one bundle executing in one core (log entry 4).
-/

namespace Sys2Proof.Machine

open Sys2Proof

/-- What a slot's operation takes from the bundle it belongs to: the queues the bundle pops and the drains it completes in the
core, of the issued bundle where it is in the pipe, else of the slot alone (R88, R275). -/
def bundleCtx (g : Region) (c : Core) (op : SlotOp) (ctx : Ctx) : Ctx :=
  match g.seq.pipe.find? (fun b => b.pos == op.pos.toNat) with
  | some b =>
    let ctx := { ctx with pops := bundlePops c b.pos b.bundle }
    { ctx with draining := c.sp.drains.map (fun d => (d.drawer, d.slot)) ++ bundleDrains ctx b.bundle c }
  | none => { ctx with pops := slotPops op.unit.val op.rider op.word }

/-- A slot operation executing in its core. With no core of a running gang at the site nothing happens. -/
def coreSlot (f : Ctx → SlotOp → Core → Eff) (op : SlotOp) (m : Mod) : Mod :=
  match m.siteCtx op.site op.pos.toNat op.addr.toNat with
  | none => m
  | some ctx =>
    let c := settleWords (m.core op.site) op.pos.toNat
    let ctx := bundleCtx (m.region (siteRegion op.site)) c op ctx
    m.applyEff op.site (runSlot ctx op (f ctx op) c)

/-! ### Trace capture (R527) -/

/-- One 32-byte trace record written to a region's stock ring, wrapping at BYTES. The row address lies in bits [31:0] of its
field and the slot in bits [63:32] (log entry 26). -/
def traceRecord (r pos row slot last : Nat) (m : Mod) : Mod :=
  let t := (m.region r).trace
  let sa := t.ring + t.written % t.bytes
  if t.bytes = 0 ∨ !m.rangeOk t.session sa 32 true true then m else
  let bs := le 8 pos ++ le 8 (m.region r).ticks ++ le 8 (row + slot * 2 ^ 32) ++ le 8 last
  (m.stockWrite t.session sa bs).onRegion r (fun g => { g with trace := { g.trace with written := g.trace.written + 32 } })

/-- The rows a WR writes traced, when its region's WR tap captures its core (R527). -/
def traceWr (op : SlotOp) (m : Mod) : Mod :=
  let r := siteRegion op.site
  let t := (m.region r).trace
  if !(t.on && t.tap == 1 && t.core == siteInner op.site && !t.armed) then m else
  match m.siteCtx op.site op.pos.toNat op.addr.toNat with
  | none => m
  | some ctx =>
    let c := settleWords (m.core op.site) op.pos.toNat
    let ctx := bundleCtx (m.region r) c op ctx
    if !slotEnabled c 7 ctx.pos op.word || !(wrHolds ctx true 7 op.word c).isEmpty then m else
    let a := wrAddr (slotRegs c 7 ctx.pos) op.word
    let q := sel op.word 33 30
    let base := if a.byHandle then (checkHandle ctx.decl c ((c.head a.hq).setWidth 32) a.ofs).2 else a.row
    (wrRows q (c.head q)).zipIdx.foldl (fun m x =>
      traceRecord r ctx.pos ((base + x.2) % 16384) 7 (crcFinish (crcFeed 0xFFFFFFFFFFFFFFFF#64 (bytesOf x.1 512))).toNat m) m

/-- RD: Reads one scratchpad row by address or through a handle, with guards and checks, into a row queue. -/
def execRd (op : SlotOp) (s : State) : Host.Outcome State Fault Refusal :=
  s.runIf (Instr.wf (.rd op)) (coreSlot (fun ctx op c => rdExec ctx op c) op)

/-- WLOAD: Writes one row into plane rows of the shadow plane. -/
def execWload (op : SlotOp) (s : State) : Host.Outcome State Fault Refusal :=
  s.runIf (Instr.wf (.wload op)) (coreSlot (fun ctx op c => wloadExec ctx op false c) op)

/-- WLOADT: Writes one row into plane columns of the shadow plane. -/
def execWloadt (op : SlotOp) (s : State) : Host.Outcome State Fault Refusal :=
  s.runIf (Instr.wf (.wloadt op)) (coreSlot (fun ctx op c => wloadExec ctx op true c) op)

/-- WLOAD_S: Writes one row of MX block scales into the shadow plane. -/
def execWloadS (op : SlotOp) (s : State) : Host.Outcome State Fault Refusal :=
  s.runIf (Instr.wf (.wloadS op)) (coreSlot (fun ctx op c => wloadSExec ctx op c) op)

/-- WSWAP: Exchanges active and shadow planes. -/
def execWswap (op : SlotOp) (s : State) : Host.Outcome State Fault Refusal :=
  s.runIf (Instr.wf (.wswap op)) (coreSlot (fun ctx _ c => wswapExec ctx c) op)

/-- MMUL: Multiplies input vectors against the active plane, producing exact slices rounded once to FP32. -/
def execMmul (op : SlotOp) (s : State) : Host.Outcome State Fault Refusal :=
  s.runIf (Instr.wf (.mmul op)) (coreSlot (fun ctx op c => mmulExec ctx op c) op)

/-- ACC: Adds a slice into an accumulator row with one rounding. -/
def execAcc (op : SlotOp) (s : State) : Host.Outcome State Fault Refusal :=
  s.runIf (Instr.wf (.acc op)) (coreSlot (fun ctx op c => accExec ctx op false c) op)

/-- ACCZ: Replaces an accumulator row with a slice. -/
def execAccz (op : SlotOp) (s : State) : Host.Outcome State Fault Refusal :=
  s.runIf (Instr.wf (.accz op)) (coreSlot (fun ctx op c => accExec ctx op true c) op)

/-- ACC_DRAIN: ACC with a DRAIN rider in the same AC operation. -/
def execAccDrain (op : SlotOp) (s : State) : Host.Outcome State Fault Refusal :=
  s.runIf (Instr.wf (.accDrain op)) (coreSlot (fun ctx op c => accDrainExec ctx op false false c) op)

/-- ACC_DRAINZ: ACC with a DRAINZ rider in the same AC operation. -/
def execAccDrainz (op : SlotOp) (s : State) : Host.Outcome State Fault Refusal :=
  s.runIf (Instr.wf (.accDrainz op)) (coreSlot (fun ctx op c => accDrainExec ctx op false true c) op)

/-- ACCZ_DRAIN: ACCZ with a DRAIN rider in the same AC operation. -/
def execAcczDrain (op : SlotOp) (s : State) : Host.Outcome State Fault Refusal :=
  s.runIf (Instr.wf (.acczDrain op)) (coreSlot (fun ctx op c => accDrainExec ctx op true false c) op)

/-- ACCZ_DRAINZ: ACCZ with a DRAINZ rider in the same AC operation. -/
def execAcczDrainz (op : SlotOp) (s : State) : Host.Outcome State Fault Refusal :=
  s.runIf (Instr.wf (.acczDrainz op)) (coreSlot (fun ctx op c => accDrainExec ctx op true true c) op)

/-- DRAIN: Pushes an accumulator row to an accumulator-row queue leaving it unchanged. -/
def execDrain (op : SlotOp) (s : State) : Host.Outcome State Fault Refusal :=
  s.runIf (Instr.wf (.drain op)) (coreSlot (fun ctx op c => drainExec ctx op false c) op)

/-- DRAINZ: Pushes an accumulator row to a queue and zeroes it and its slice counter. -/
def execDrainz (op : SlotOp) (s : State) : Host.Outcome State Fault Refusal :=
  s.runIf (Instr.wf (.drainz op)) (coreSlot (fun ctx op c => drainExec ctx op true c) op)

/-- VADD: Lane-wise addition in F32 or I32. -/
def execVadd (op : SlotOp) (s : State) : Host.Outcome State Fault Refusal :=
  s.runIf (Instr.wf (.vadd op)) (coreSlot (fun ctx op c => vExec ctx op c) op)

/-- VSUB: Lane-wise subtraction in F32 or I32. -/
def execVsub (op : SlotOp) (s : State) : Host.Outcome State Fault Refusal :=
  s.runIf (Instr.wf (.vsub op)) (coreSlot (fun ctx op c => vExec ctx op c) op)

/-- VMUL: Lane-wise multiplication in F32 or I32. -/
def execVmul (op : SlotOp) (s : State) : Host.Outcome State Fault Refusal :=
  s.runIf (Instr.wf (.vmul op)) (coreSlot (fun ctx op c => vExec ctx op c) op)

/-- VFMA: Lane-wise fused multiply-add with one rounding. -/
def execVfma (op : SlotOp) (s : State) : Host.Outcome State Fault Refusal :=
  s.runIf (Instr.wf (.vfma op)) (coreSlot (fun ctx op c => vExec ctx op c) op)

/-- VMAX: Lane-wise maximum. -/
def execVmax (op : SlotOp) (s : State) : Host.Outcome State Fault Refusal :=
  s.runIf (Instr.wf (.vmax op)) (coreSlot (fun ctx op c => vExec ctx op c) op)

/-- VMIN: Lane-wise minimum. -/
def execVmin (op : SlotOp) (s : State) : Host.Outcome State Fault Refusal :=
  s.runIf (Instr.wf (.vmin op)) (coreSlot (fun ctx op c => vExec ctx op c) op)

/-- VCMP: Lane-wise comparison writing a 0-or-1 mask. -/
def execVcmp (op : SlotOp) (s : State) : Host.Outcome State Fault Refusal :=
  s.runIf (Instr.wf (.vcmp op)) (coreSlot (fun ctx op c => vExec ctx op c) op)

/-- VSEL: Selects each lane from a or b by a mask. -/
def execVsel (op : SlotOp) (s : State) : Host.Outcome State Fault Refusal :=
  s.runIf (Instr.wf (.vsel op)) (coreSlot (fun ctx op c => vExec ctx op c) op)

/-- VCVT: Converts lanes to the target format of its code, with saturation and rounding rules. -/
def execVcvt (op : SlotOp) (s : State) : Host.Outcome State Fault Refusal :=
  s.runIf (Instr.wf (.vcvt op)) (coreSlot (fun ctx op c => vExec ctx op c) op)

/-- VCVT_MX: Converts lanes to MX8, MX6 or MX4 elements using a scale vector. -/
def execVcvtMx (op : SlotOp) (s : State) : Host.Outcome State Fault Refusal :=
  s.runIf (Instr.wf (.vcvtMx op)) (coreSlot (fun ctx op c => vExec ctx op c) op)

/-- VEXP2: Correctly rounded 2^a. -/
def execVexp2 (op : SlotOp) (s : State) : Host.Outcome State Fault Refusal :=
  s.runIf (Instr.wf (.vexp2 op)) (coreSlot (fun ctx op c => vExec ctx op c) op)

/-- VLOG2: Correctly rounded log2 a. -/
def execVlog2 (op : SlotOp) (s : State) : Host.Outcome State Fault Refusal :=
  s.runIf (Instr.wf (.vlog2 op)) (coreSlot (fun ctx op c => vExec ctx op c) op)

/-- VRSQ: Correctly rounded reciprocal square root. -/
def execVrsq (op : SlotOp) (s : State) : Host.Outcome State Fault Refusal :=
  s.runIf (Instr.wf (.vrsq op)) (coreSlot (fun ctx op c => vExec ctx op c) op)

/-- VRCP: Correctly rounded reciprocal. -/
def execVrcp (op : SlotOp) (s : State) : Host.Outcome State Fault Refusal :=
  s.runIf (Instr.wf (.vrcp op)) (coreSlot (fun ctx op c => vExec ctx op c) op)

/-- VTANH: Correctly rounded tanh. -/
def execVtanh (op : SlotOp) (s : State) : Host.Outcome State Fault Refusal :=
  s.runIf (Instr.wf (.vtanh op)) (coreSlot (fun ctx op c => vExec ctx op c) op)

/-- VSIG: Correctly rounded logistic sigmoid. -/
def execVsig (op : SlotOp) (s : State) : Host.Outcome State Fault Refusal :=
  s.runIf (Instr.wf (.vsig op)) (coreSlot (fun ctx op c => vExec ctx op c) op)

/-- VSCAN: Inclusive or exclusive prefix sums with a chained carry. -/
def execVscan (op : SlotOp) (s : State) : Host.Outcome State Fault Refusal :=
  s.runIf (Instr.wf (.vscan op)) (coreSlot (fun ctx op c => vExec ctx op c) op)

/-- VSEGSCAN: Segmented prefix sums by a segment-start mask with a chained carry. -/
def execVsegscan (op : SlotOp) (s : State) : Host.Outcome State Fault Refusal :=
  s.runIf (Instr.wf (.vsegscan op)) (coreSlot (fun ctx op c => vExec ctx op c) op)

/-- VARGMAX: Finds the highest-ranking lane and its index, chained across rows. -/
def execVargmax (op : SlotOp) (s : State) : Host.Outcome State Fault Refusal :=
  s.runIf (Instr.wf (.vargmax op)) (coreSlot (fun ctx op c => vExec ctx op c) op)

/-- VARGMIN: Finds the lowest-ranking lane and its index, chained across rows. -/
def execVargmin (op : SlotOp) (s : State) : Host.Outcome State Fault Refusal :=
  s.runIf (Instr.wf (.vargmin op)) (coreSlot (fun ctx op c => vExec ctx op c) op)

/-- VMAXR: One streaming-softmax row: running maximum and sum, exponentiated row and rescale factor. -/
def execVmaxr (op : SlotOp) (s : State) : Host.Outcome State Fault Refusal :=
  s.runIf (Instr.wf (.vmaxr op)) (coreSlot (fun ctx op c => vExec ctx op c) op)

/-- VCOMPACT: Packs lanes whose mask is true to the front and optionally pushes their count. -/
def execVcompact (op : SlotOp) (s : State) : Host.Outcome State Fault Refusal :=
  s.runIf (Instr.wf (.vcompact op)) (coreSlot (fun ctx op c => vExec ctx op c) op)

/-- VPERM_ROT: Rotates lanes by k. -/
def execVpermRot (op : SlotOp) (s : State) : Host.Outcome State Fault Refusal :=
  s.runIf (Instr.wf (.vpermRot op)) (coreSlot (fun ctx op c => vExec ctx op c) op)

/-- VPERM_REV: Reverses lane order. -/
def execVpermRev (op : SlotOp) (s : State) : Host.Outcome State Fault Refusal :=
  s.runIf (Instr.wf (.vpermRev op)) (coreSlot (fun ctx op c => vExec ctx op c) op)

/-- VPERM_XCHG: Exchanges lanes i and i xor 2^j. -/
def execVpermXchg (op : SlotOp) (s : State) : Host.Outcome State Fault Refusal :=
  s.runIf (Instr.wf (.vpermXchg op)) (coreSlot (fun ctx op c => vExec ctx op c) op)

/-- VPERM_BCAST: Broadcasts lane j to every lane. -/
def execVpermBcast (op : SlotOp) (s : State) : Host.Outcome State Fault Refusal :=
  s.runIf (Instr.wf (.vpermBcast op)) (coreSlot (fun ctx op c => vExec ctx op c) op)

/-- VPERM_ZIP: Interleaves halves of a and b. -/
def execVpermZip (op : SlotOp) (s : State) : Host.Outcome State Fault Refusal :=
  s.runIf (Instr.wf (.vpermZip op)) (coreSlot (fun ctx op c => vExec ctx op c) op)

/-- VPERM_UNZIP: De-interleaves even or odd lanes of a and b. -/
def execVpermUnzip (op : SlotOp) (s : State) : Host.Outcome State Fault Refusal :=
  s.runIf (Instr.wf (.vpermUnzip op)) (coreSlot (fun ctx op c => vExec ctx op c) op)

/-- VPERM_FUNNEL: Shifts lanes up by k taking the top lanes of b. -/
def execVpermFunnel (op : SlotOp) (s : State) : Host.Outcome State Fault Refusal :=
  s.runIf (Instr.wf (.vpermFunnel op)) (coreSlot (fun ctx op c => vExec ctx op c) op)

/-- VPERM_FUNNELD: Shifts lanes down by k taking the bottom lanes of b. -/
def execVpermFunneld (op : SlotOp) (s : State) : Host.Outcome State Fault Refusal :=
  s.runIf (Instr.wf (.vpermFunneld op)) (coreSlot (fun ctx op c => vExec ctx op c) op)

/-- VSR_GET: Pushes a chain register to a scalar queue. -/
def execVsrGet (op : SlotOp) (s : State) : Host.Outcome State Fault Refusal :=
  s.runIf (Instr.wf (.vsrGet op)) (coreSlot (fun ctx op c => vExec ctx op c) op)

/-- VSR_PUT: Loads a chain register from a scalar queue entry. -/
def execVsrPut (op : SlotOp) (s : State) : Host.Outcome State Fault Refusal :=
  s.runIf (Instr.wf (.vsrPut op)) (coreSlot (fun ctx op c => vExec ctx op c) op)

/-- VSR_SUM: Pushes the sum of 256 lanes to a scalar queue. -/
def execVsrSum (op : SlotOp) (s : State) : Host.Outcome State Fault Refusal :=
  s.runIf (Instr.wf (.vsrSum op)) (coreSlot (fun ctx op c => vExec ctx op c) op)

/-- VSR_MAX: Pushes the maximum of 256 lanes to a scalar queue. -/
def execVsrMax (op : SlotOp) (s : State) : Host.Outcome State Fault Refusal :=
  s.runIf (Instr.wf (.vsrMax op)) (coreSlot (fun ctx op c => vExec ctx op c) op)

/-- VSR_MIN: Pushes the minimum of 256 lanes to a scalar queue. -/
def execVsrMin (op : SlotOp) (s : State) : Host.Outcome State Fault Refusal :=
  s.runIf (Instr.wf (.vsrMin op)) (coreSlot (fun ctx op c => vExec ctx op c) op)

/-- WR: Pops a row entry and writes it to scratchpad by address or handle, with guard, checks and digest. -/
def execWr (op : SlotOp) (s : State) : Host.Outcome State Fault Refusal :=
  s.runIf (Instr.wf (.wr op)) (fun m => coreSlot (fun ctx op c => wrExec ctx op c) op (traceWr op m))

/-- SEND: Checks a message descriptor and enters a DATA message with row or slot payload in the transmit list. -/
def execSend (op : SlotOp) (s : State) : Host.Outcome State Fault Refusal :=
  s.runIf (Instr.wf (.send op)) (coreSlot (fun ctx op c => sendExec ctx op c) op)

/-- DOWEL: Checks and enters a header-only message carrying a 64-bit value in the transmit list. -/
def execDowel (op : SlotOp) (s : State) : Host.Outcome State Fault Refusal :=
  s.runIf (Instr.wf (.dowel op)) (coreSlot (fun ctx op c => dowelExec ctx op c) op)

/-- RECV: Places a request for an inbox ring's oldest undelivered message. -/
def execRecv (op : SlotOp) (s : State) : Host.Outcome State Fault Refusal :=
  s.runIf (Instr.wf (.recv op)) (coreSlot (fun ctx op c => recvExec ctx op c) op)

/-- WOPEN: Checks a handle and opens a window tag-table entry onto its slot. -/
def execWopen (op : SlotOp) (s : State) : Host.Outcome State Fault Refusal :=
  s.runIf (Instr.wf (.wopen op)) (coreSlot (fun ctx op c => wopenExec ctx op c) op)

/-- WCLOSE: Closes a window tag-table entry. -/
def execWclose (op : SlotOp) (s : State) : Host.Outcome State Fault Refusal :=
  s.runIf (Instr.wf (.wclose op)) (coreSlot (fun ctx op c => wcloseExec ctx op c) op)

/-- UPD: Hands a gradient row and a parameter-slot handle to the update unit. -/
def execUpd (op : SlotOp) (s : State) : Host.Outcome State Fault Refusal :=
  s.runIf (Instr.wf (.upd op)) (coreSlot (fun ctx op c => updExec ctx op c) op)

/-- CSET_COUNTER: CSET sets a counter to an immediate. -/
def execCsetCounter (op : SlotOp) (s : State) : Host.Outcome State Fault Refusal :=
  s.runIf (Instr.wf (.csetCounter op)) (coreSlot (fun ctx op c => csetCounter ctx op c) op)

/-- CSET_COMPARATOR: CSET sets a comparator's reference and relation. -/
def execCsetComparator (op : SlotOp) (s : State) : Host.Outcome State Fault Refusal :=
  s.runIf (Instr.wf (.csetComparator op)) (coreSlot (fun ctx op c => csetComparator ctx op c) op)

/-- CINC: Adds a signed immediate to a counter modulo 2^32. -/
def execCinc (op : SlotOp) (s : State) : Host.Outcome State Fault Refusal :=
  s.runIf (Instr.wf (.cinc op)) (coreSlot (fun ctx op c => cincExec ctx op c) op)

/-- CLOAD_COUNTER_FROM_QUEUE: CLOAD form 0 loads a counter from a scalar-queue entry. -/
def execCloadCounterFromQueue (op : SlotOp) (s : State) : Host.Outcome State Fault Refusal :=
  s.runIf (Instr.wf (.cloadCounterFromQueue op)) (coreSlot (fun ctx op c => cloadQueue ctx op false c) op)

/-- CLOAD_COUNTER_FROM_WORD: CLOAD form 1 loads a counter from a word-store word. -/
def execCloadCounterFromWord (op : SlotOp) (s : State) : Host.Outcome State Fault Refusal :=
  s.runIf (Instr.wf (.cloadCounterFromWord op)) (coreSlot (fun ctx op c => cloadWord ctx op c) op)

/-- CLOAD_PREDICATES: CLOAD form 2 loads P7 to P0 from a scalar-queue entry. -/
def execCloadPredicates (op : SlotOp) (s : State) : Host.Outcome State Fault Refusal :=
  s.runIf (Instr.wf (.cloadPredicates op)) (coreSlot (fun ctx op c => cloadQueue ctx op true c) op)

/-- CLOAD_PUSH_WORD: CLOAD form 3 pushes a word to a scalar queue. -/
def execCloadPushWord (op : SlotOp) (s : State) : Host.Outcome State Fault Refusal :=
  s.runIf (Instr.wf (.cloadPushWord op)) (coreSlot (fun ctx op c => cloadPushWord ctx op c) op)

/-- CLOAD_PUSH_HANDLE: CLOAD form 4 pushes a word as a handle, advancing a drawer cursor when it is one. -/
def execCloadPushHandle (op : SlotOp) (s : State) : Host.Outcome State Fault Refusal :=
  s.runIf (Instr.wf (.cloadPushHandle op)) (coreSlot (fun ctx op c => cloadPushHandle ctx op c) op)

/-- CLOAD_PUSH_DESCRIPTOR: CLOAD form 5 pushes two words as a message descriptor to a network queue. -/
def execCloadPushDescriptor (op : SlotOp) (s : State) : Host.Outcome State Fault Refusal :=
  s.runIf (Instr.wf (.cloadPushDescriptor op)) (coreSlot (fun ctx op c => cloadPushDescriptor ctx op c) op)

/-- CLOAD_WRITE_WORD: CLOAD form 6 writes a scalar-queue entry into a word. -/
def execCloadWriteWord (op : SlotOp) (s : State) : Host.Outcome State Fault Refusal :=
  s.runIf (Instr.wf (.cloadWriteWord op)) (coreSlot (fun ctx op c => cloadWriteWord ctx op c) op)

/-- CMP_COUNTER: CMP writes a predicate from a counter compared with a comparator. -/
def execCmpCounter (op : SlotOp) (s : State) : Host.Outcome State Fault Refusal :=
  s.runIf (Instr.wf (.cmpCounter op)) (coreSlot (fun ctx op c => cmpCounter ctx op c) op)

/-- CMP_PREDICATE: CMP writes a predicate from the AND, OR or AND-NOT of two predicates. -/
def execCmpPredicate (op : SlotOp) (s : State) : Host.Outcome State Fault Refusal :=
  s.runIf (Instr.wf (.cmpPredicate op)) (coreSlot (fun ctx op c => cmpPredicate ctx op c) op)

/-- WAITW_MONITOR: Waits until a clamp word's COUNT meets the relation, or FAULT or ABANDONED is set, writing a predicate. -/
def execWaitwMonitor (op : SlotOp) (s : State) : Host.Outcome State Fault Refusal :=
  s.runIf (Instr.wf (.waitwMonitor op)) (coreSlot (fun ctx op c => waitwMonitor ctx op c) op)

/-- WAITW_POLL: Writes a predicate with whether a clamp word meets the relation, never waiting. -/
def execWaitwPoll (op : SlotOp) (s : State) : Host.Outcome State Fault Refusal :=
  s.runIf (Instr.wf (.waitwPoll op)) (coreSlot (fun ctx op c => waitwPoll ctx op c) op)

/-- INCW: Raises a clamp word's COUNT in the next cycle, refused past the maximum. -/
def execIncw (op : SlotOp) (s : State) : Host.Outcome State Fault Refusal :=
  s.runIf (Instr.wf (.incw op)) (coreSlot (fun ctx op c => incwExec ctx op false c) op)

/-- DECW: Lowers a clamp word's COUNT in the next cycle, refused below zero. -/
def execDecw (op : SlotOp) (s : State) : Host.Outcome State Fault Refusal :=
  s.runIf (Instr.wf (.decw op)) (coreSlot (fun ctx op c => incwExec ctx op true c) op)

/-- WAITL: Consumes the oldest landing token with a handle's key, waiting until one arrives, and may drain the slot. -/
def execWaitl (op : SlotOp) (s : State) : Host.Outcome State Fault Refusal :=
  s.runIf (Instr.wf (.waitl op)) (coreSlot (fun ctx op c => waitlExec ctx op c) op)

/-- RESULT_VISIBLE: the results of a core whose cycle has come are made visible (R84, R108, R159, R488). -/
def execResultVisible (site : Fin 25600) (s : State) : Host.Outcome State Fault Refusal :=
  s.runIf (Instr.wf (.resultVisible site)) (fun m =>
    m.onCore site (visibleNow (m.region (siteRegion site)).cycle))

/-- SHADOW_COMPLETE: the shadow plane is complete from the cycle its load asks on (R117). -/
def execShadowComplete (site : Fin 25600) (s : State) : Host.Outcome State Fault Refusal :=
  s.runIf (Instr.wf (.shadowComplete site)) (fun m =>
    m.onCore site (shadowComplete (m.region (siteRegion site)).cycle))

/-- ACC_ROW_WRITTEN: the oldest accumulation that is due writes its row and leaves the in-flight count (R136, R137, R144,
R150). -/
def execAccRowWritten (site : Fin 25600) (s : State) : Host.Outcome State Fault Refusal :=
  s.runIf (Instr.wf (.accRowWritten site)) (fun m =>
    match (m.region (siteRegion site)).coreOf site with
    | some k => m.onCore site (accWrite (m.region (siteRegion site)).decl.halfWidth k (m.region (siteRegion site)).cycle)
    | none => m)

end Sys2Proof.Machine
end

