-- ==== Sys2Proof/Machine/Sequencer.lean ====
section
/-!
DEFINITION. Machine/Sequencer.lean: issue, the check stage, the sequencer operations of a bundle's header, and the ends of
their waits (spec/06_sequencer.md R197 to R229; spec/02_story_stick.md R47 to R55; spec/03_core_row.md R98 to R106;
spec/13_determinism.md R465, R474 to R476; spec/16_power.md R583, R584, R590, R591). Log entry 5 says what the header rows do.
-/

namespace Sys2Proof.Machine

open Sys2Proof

/-! ### Header fields (Table 6.3) -/

def bSop (b : Bundle) : Nat := sel b 71 68
def bScond (b : Bundle) : Nat := sel b 67 64
def bSarg (b : Bundle) : Nat := sel b 63 32
def bTarget (b : Bundle) : Nat := sel b 31 17
def bRep (b : Bundle) : Nat := sel b 16 9

/-! ### Encoding faults (Table 6.16) -/

/-- Whether a header is an encoding fault in a part. -/
def headerBad (d : PartDecl) (sop sarg target rep : Nat) : Bool :=
  sop ≥ 0xA || (rep ≠ 0 && sop ≠ 0) ||
  ((sop = 1 || sop = 2) && target ≥ d.bundleCount) ||
  (sop = 6 && sarg / 2 ^ 17 + sarg / 2 ^ 9 % 256 ≥ d.bundleCount) ||
  (sop = 7 && sarg / 2 ^ 24 + sarg / 2 ^ 16 % 256 > 255) ||
  ((sop = 3 || sop = 4) && target / 128 ≥ d.energy.length)

/-- Whether a bundle holds an MMUL, or an ACC or ACCZ (R126). -/
def bundleMmul (b : Bundle) : Bool := sel (bundleSlot b 3) 39 34 = 1
def bundleAcc (b : Bundle) : Bool := acAccs (sel (bundleSlot b 4) 39 34)
def bundleMmulBf16 (b : Bundle) : Bool := bundleMmul b && sel (bundleSlot b 3) 33 30 = 0xA

/-- R126: the three positions after an MMUL.BF16. -/
def bf16Bad (last : Option Nat) (pos : Nat) (b : Bundle) : Bool :=
  match last with
  | some p => decide (pos ≤ p + 3) && (bundleMmul b || bundleAcc b)
  | none => false

/-- Whether the bundle at issue is an encoding fault. -/
def bundleBad (d : PartDecl) (addr : Nat) (b : Bundle) : Bool :=
  addr ≥ d.bundleCount || headerBad d (bSop b) (bSarg b) (bTarget b) (bRep b) ||
    (List.range 10).any (fun u => slotBad u (bundleSlot b u))

/-! ### The state of issue -/

/-- Whether the region's gang is held: its oldest issued bundle has reached its cycle and is not ready (R101, R102). -/
def seqHeld (g : Region) : Bool :=
  match g.seq.pipe with
  | [] => false
  | b :: _ => decide (b.sched ≤ g.cycle) && (match b.ready with
    | none => false
    | some none => true
    | some (some t) => decide (g.cycle < t))

/-- Whether the sequencer runs: its clock runs, its view is valid (R45), and it has not stopped. -/
def seqRuns (g : Region) : Bool :=
  g.run.running && g.clocked && g.viewValid && g.switching == 0 && g.seq.stopping.isNone

/-- Whether the sequencer may issue in this cycle: at most one bundle a cycle, none while held or waiting (R197, R199). -/
def canIssue (g : Region) : Bool :=
  seqRuns g && !seqHeld g && (match g.seq.pipe.getLast? with
    | some b => decide (b.sched < g.cycle + 12)
    | none => true)

/-- Whether what the sequencer waits for lets the bundle at issue be evaluated. -/
def waitOpen : Wait → Bool
  | .none => true
  | .ready => true
  | .stock => true
  | .digest => true
  | _ => false

def setWait (w : Wait) (g : Region) : Region := { g with seq := { g.seq with wait := w } }

/-- A local view advanced; ticks that pass in a kerf or launch wait are counted (Table 2.5). -/
def Region.setView (g : Region) (v : Nat) : Region :=
  let d := v / 65536 - g.view / 65536
  let t := match g.seq.wait with
    | .kerf => { g.time with kerfWait := bump48 g.time.kerfWait d }
    | .launch _ => { g.time with launchWait := bump48 g.time.launchWait d }
    | _ => g.time
  { g with view := v, time := t }

/-- Whether a committed change is due at the region's next kerf end and not yet applied (R70, R72). -/
def Mod.changeDue (m : Mod) (r : Nat) : Bool :=
  (m.region r).pendingChange && m.aon.inFlight && decide (m.aon.commitMark ≤ m.aon.markNumber)

/-! ### Kerfs (R50, R51, R55, R216 to R220) -/

/-- A kerf end passed `d` ticks late (R55). -/
def kerfOverrun (r d : Nat) (m : Mod) : Mod :=
  (m.onRegion r (fun g => countEv { g with time := { g.time with
      kerfOverruns := bump48 g.time.kerfOverruns 1, kerfOverrunMax := max32 g.time.kerfOverrunMax d } }
    { code := 2, d := d })).voidTicks r

/-- The latest sample of a region's hottest sensor. -/
def Mod.hottest (m : Mod) (r : Nat) : Nat :=
  (List.range 16).foldl (fun a k => max a (Tab.get m.power.sensors (16 * r + k) 0)) 0

/-- An interval begins at the kerf base, its target computed with the step applied now (R50, R216); a length of 0 begins
none (R217). What the governor measures restarts (R590). -/
def beginInterval (r : Nat) (ticks : Bool) (len eclass : Nat) (m : Mod) : Mod :=
  m.onRegion r (fun g =>
    if len = 0 then { g with seq := { g.seq with interval := none } }
    else { g with
      seq := { g.seq with interval := some { ticks := ticks, len := len, eclass := eclass
                                             target := g.seq.kerfBase + intervalTicks ticks len g.step } }
      warnInterval := 0, cyclesInterval := 0, tmaxInterval := m.hottest r })

/-- The gang arrives at the end of a pending interval (R50, R55, R72; log entry 64). -/
def kerfArrive (r : Nat) (iv : Interval) (m : Mod) : Mod :=
  let g := m.region r
  let m := m.onRegion r (fun g => setWait .kerf { g with time := { g.time with kerfCount := bump48 g.time.kerfCount 1 } })
  let m := if iv.target < g.ticks then kerfOverrun r (g.ticks - iv.target) m else m
  if m.changeDue r && !g.ack then m.voidTicks r else m

/-- Whether the combiner can hold one more snapshot (R476). -/
def digestRoom (g : Region) : Bool := decide (g.dig.pending.length < 4)

/-- A wait for the digest combiner; it sets CYCLE_VOID (R476, R465). -/
def digestWait (r : Nat) (m : Mod) : Mod := (m.onRegion r (setWait .digest)).voidCycles r

/-- KERF and PREEMPT_POINT at issue. The second value is whether the bundle issues. A pending pre-emption is taken before
anything else (R241); after a resume the old target is not waited for (R244). -/
def kerfOp (r : Nat) (preempt : Bool) (scond sarg target : Nat) (m : Mod) : Mod × Bool :=
  let g := m.region r
  if preempt && g.run.preempting && !g.seq.resumeIssue then (m.onRegion r (setWait .preempt), false)
  else
    let iv := if preempt && g.seq.resumeIssue then none else g.seq.interval
    match iv with
    | some iv => (kerfArrive r iv m, false)
    | none =>
      if !digestRoom g then (digestWait r m, false)
      else
        let ticks := scond % 2 = 1
        let e := target / 128
        let m := takeBoundary r g.seq.pos false m
        let m := m.onRegion r (fun g => { g with seq := { g.seq with resumeIssue := false } })
        let m := beginInterval r ticks sarg e m
        let bad : Bool := decide (sarg ≠ 0) && (match g.decl.energy[e]? with
          | some x => x.interval != sarg || x.ticks != ticks
          | none => true)
        (if bad then m.onRegion r (fun g => { g with declMismatches := bump32 g.declMismatches 1 }) else m, true)

/-! ### The governor (R583, R590, R591, R597) -/

/-- A change between two non-zero steps: the clock stops for two reference cycles (R32). -/
def switchStep (r s : Nat) (m : Mod) : Mod :=
  m.onRegion r (fun g => if g.step = s ∨ g.step = 0 ∨ s = 0 then g else { g with step := s, switching := 2 })

def Mod.emerg (m : Mod) (r : Nat) : Emerg := Tab.get m.power.emerg r {}
def Mod.onEmerg (m : Mod) (r : Nat) (f : Emerg → Emerg) : Mod :=
  { m with power := { m.power with emerg := Tab.set m.power.emerg r (f (m.emerg r)) } }

/-- The step the throughput governor chooses at a kerf end (R590). -/
def governed (g : Region) : Nat :=
  let s := g.step
  if g.tmaxInterval ≥ 9500 ∨ g.warnInterval * 1024 > g.cyclesInterval then (if max 1 g.decl.floor < s then s - 1 else s)
  else if g.tmaxInterval < 9000 ∧ g.warnInterval = 0 then (if s < g.run.admitted then s + 1 else s)
  else s

/-- The governor at a kerf end: nothing while a staged change or a ceiling applies to the region; in reproducible mode only
the return to the admitted step after a ceiling's release (R589, R590, R591, R597). -/
def governKerf (r : Nat) (m : Mod) : Mod :=
  let g := m.region r
  let e := m.emerg r
  if g.pendingChange || e.ceiling != 15 then m
  else if g.reprMode then
    if e.restore then switchStep r g.run.admitted (m.onEmerg r (fun e => { e with restore := false })) else m
  else
    let m := m.onEmerg r (fun e => { e with restore := false })
    let s := governed g
    let s := if m.power.governorDown.contains r ∧ s = g.step ∧ max 1 g.decl.floor < s then s - 1 else s
    switchStep r s { m with power := { m.power with governorDown := m.power.governorDown.filter (· != r) } }

/-- The interval's measured energy against its declaration (R583, Table 16.6). -/
def energyCheck (r : Nat) (iv : Interval) (energy : Nat) (m : Mod) : Mod :=
  let g := m.region r
  let e := match g.decl.energy[iv.eclass]? with
    | some x => x.energy.getD (g.step - 1) 0
    | none => 0
  let m := { m with power := { m.power with lastEnergy := Tab.set m.power.lastEnergy r energy
                                            lastDecl := Tab.set m.power.lastDecl r e } }
  if 100 * energy > 103 * e then m.onRegion r (fun g => { g with declOverruns := bump32 g.declOverruns 1 }) else m

/-- A gang released at a kerf end: the kerf base becomes the target, never the tick of release (R50, R51). -/
def kerfRelease (r energy : Nat) (m : Mod) : Mod :=
  let g := m.region r
  match g.seq.wait, g.seq.interval with
  | .kerf, some iv =>
    if seqRuns g && decide (iv.target ≤ g.ticks) && !m.changeDue r then
      let m := m.onRegion r (fun g => { g with seq := { g.seq with kerfBase := iv.target, interval := none, wait := .none } })
      governKerf r (energyCheck r iv energy m)
    else m
  | _, _ => m

/-! ### The other header operations -/

/-- LAUNCH at issue (R53, R55, R221). -/
def launchOp (r sarg : Nat) (m : Mod) : Mod × Bool :=
  let g := m.region r
  let t := g.seq.kerfBase + sarg
  match g.seq.wait with
  | .ready => (m, true)
  | _ =>
    if g.ticks < t then (m.onRegion r (setWait (.launch t)), false)
    else if t < g.ticks then
      ((m.onRegion r (fun g => { g with time := { g.time with launchLate := bump48 g.time.launchLate 1 } })).voidTicks r, true)
    else (m, true)

/-- STOCK at issue: descriptors delivered, or held for space, which sets CYCLE_VOID (R222, R465). -/
def stockOp (r scond sarg : Nat) (m : Mod) : Mod × Bool :=
  let g := m.region r
  let first := sarg / 2 ^ 17
  let count := sarg / 2 ^ 9 % 256 + 1
  if 2048 < g.eng.queue.length + count then ((m.onRegion r (setWait .stock)).voidCycles r, false)
  else
    let v : W32 := if scond % 2 = 1 then g.seq.loops[sarg / 2 ^ 6 % 8]?.getD 0 else 0
    let ds := (List.range count).map (fun k =>
      ({ addr := first + k, desc := g.decl.bundles.get (first + k), v := v, exec := g.seq.pos } : DescIn))
    (m.onRegion r (fun g => { g with eng := { g.eng with queue := g.eng.queue ++ ds } }), true)

/-- A knot of the curve store (Table 11.4). -/
structure Knot where
  step : Nat
  value : W32
  seg : Nat
  qty : Nat
  deriving DecidableEq, Repr

/-- The knots of one quantity of a group, in store order (R455). -/
def knotsOf (d : PartDecl) (group qty : Nat) : List Knot :=
  ((List.range 64).map (fun k =>
    let w := d.knots.get (64 * group + k)
    ({ step := sel w 63 0, value := BitVec.ofNat 32 (sel w 95 64), seg := sel w 99 98, qty := sel w 97 96 } : Knot))).filter
    (fun k => k.qty == qty)

/-- The value of a curve at G (R457); no knots give 0.0 (R225). -/
def evalCurve (g : Nat) : List Knot → W32
  | [] => 0
  | [k] => k.value
  | k :: j :: t =>
    if g < k.step then k.value
    else if j.step ≤ g then evalCurve g (j :: t)
    else if k.seg = 0 then k.value
    else
      let f := divF (f32OfNat (g - k.step)) (f32OfNat (j.step - k.step))
      if k.seg = 1 then fmaF f (subF j.value k.value) k.value
      else fmaF (mulF (addF one32 (cospiF f)) half32) (subF k.value j.value) j.value

/-- CURVE at issue: η, β and λ of each group written to every core, each group four positions later (R223 to R225). -/
def curveOp (r sarg : Nat) (m : Mod) : Mod :=
  let g := m.region r
  let first := sarg / 2 ^ 24
  let count := sarg / 2 ^ 16 % 256 + 1
  let base := sarg / 2 ^ 5 % 2048
  let ws : List FutureWord := (List.range count).flatMap (fun k => (List.range 3).map (fun j =>
    { word := (base + 3 * k + j) % 2048, pos := g.seq.pos + 16 + 4 * k
      val := (evalCurve g.seq.g.toNat (knotsOf g.decl (first + k) (j + 1))).setWidth 64 }))
  g.site.foldl (fun m s => m.onCore s (fun c => { c with cc := { c.cc with future := ws.foldl (fun t f => insertFuture f t) c.cc.future } })) m

/-- STEP at issue: G advanced, and written to word 0x7FC of every core, read from the next position on (R226). -/
def stepOp (r scond sarg : Nat) (m : Mod) : Mod :=
  let g := m.region r
  let v := g.seq.g + BitVec.ofNat 64 (if scond % 2 = 1 then sarg else 1)
  let m := m.onRegion r (fun g => { g with seq := { g.seq with g := v } })
  g.site.foldl (fun m s => m.onCore s (fun c => { c with cc := { c.cc with
    future := insertFuture { word := 0x7FC, pos := g.seq.pos + 1, val := v } c.cc.future } })) m

/-- END at issue: a digest boundary, then nothing more issues (R227, R474). -/
def endOfGang (r : Nat) (m : Mod) : Mod × Bool :=
  let g := m.region r
  if !digestRoom g then (digestWait r m, false)
  else (stopIssue r 0 (takeBoundary r g.seq.pos false m), true)

/-- LOOP at issue: the next address (R214). -/
def loopOp (r scond sarg target : Nat) (m : Mod) : Mod × Nat :=
  let g := m.region r
  let next := (g.seq.addr + 1) % 32768
  let n := scond % 8
  if scond ≥ 8 then
    (m.onRegion r (fun g => { g with seq := { g.seq with loops := g.seq.loops.setIfInBounds n (BitVec.ofNat 32 sarg) } }), next)
  else
    let v := g.seq.loops[n]?.getD 0 - 1
    let m := m.onRegion r (fun g => { g with seq := { g.seq with loops := g.seq.loops.setIfInBounds n v } })
    if v = 0 then (m, next)
    else (m.onRegion r (fun g => { g with seq := { g.seq with cnt := { g.seq.cnt with branches := bump32 g.seq.cnt.branches 1 } } }), target)

/-- Whether a BR is taken: its reduction over the gang's cores of a predicate as written up to 32 positions before (R215). -/
def brTaken (r scond sarg : Nat) (m : Mod) : Bool :=
  let g := m.region r
  let ps := g.site.map (fun s => bit (regsAt (m.core s).cc.hist ((g.seq.pos : Int) - 32)).pred (sarg % 8))
  match scond / 4 with
  | 0 => true
  | 1 => ps.any id
  | 2 => ps.all id
  | _ => !ps.any id

/-- BR at issue: the next address (R215). -/
def brOp (r scond sarg target : Nat) (m : Mod) : Mod × Nat :=
  let g := m.region r
  if brTaken r scond sarg m then
    (m.onRegion r (fun g => { g with seq := { g.seq with cnt := { g.seq.cnt with branches := bump32 g.seq.cnt.branches 1 } } }), target)
  else (m, (g.seq.addr + 1) % 32768)

/-- A header's operation evaluated at issue (R200, R213): the module after it, and the address of the next bundle when the
bundle issues. -/
def headerOp (r sop scond sarg target : Nat) (m : Mod) : Mod × Option Nat :=
  let next := ((m.region r).seq.addr + 1) % 32768
  let go (x : Mod × Bool) : Mod × Option Nat := (x.1, if x.2 then some next else none)
  match sop with
  | 1 => let x := loopOp r scond sarg target m; (x.1, some x.2)
  | 2 => let x := brOp r scond sarg target m; (x.1, some x.2)
  | 3 => go (kerfOp r false scond sarg target m)
  | 4 => go (kerfOp r true scond sarg target m)
  | 5 => go (launchOp r sarg m)
  | 6 => go (stockOp r scond sarg m)
  | 7 => (curveOp r sarg m, some next)
  | 8 => (stepOp r scond sarg m, some next)
  | 9 => go (endOfGang r m)
  | _ => (m, some next)

/-! ### Issue (R197 to R200, R228, R229) -/

/-- The bundle broadcast: it takes the position, a repeat keeps its address, and issue again ends a stall (R198, R228,
R373). -/
def broadcast (r : Nat) (b : Bundle) (next : Nat) (m : Mod) : Mod :=
  let g := m.region r
  let more := decide (g.seq.repDone < bRep b)
  let m := m.onRegion r (fun x => { x with
    seq := { x.seq with
      pipe := x.seq.pipe ++ [{ addr := g.seq.addr, pos := g.seq.pos, bundle := b, sched := g.cycle + 12 }]
      pos := g.seq.pos + 1
      addr := if more then g.seq.addr else next
      repDone := if more then g.seq.repDone + 1 else 0
      wait := .none
      lastMmulBf16 := if bundleMmulBf16 b then some g.seq.pos else x.seq.lastMmulBf16
      cnt := { x.seq.cnt with issued := bump48 x.seq.cnt.issued 1 } }
    run := { x.run with issuedThisMark := true, heldMarks := 0, stalled := false } })
  let t := g.trace
  let m := if t.on && t.tap == 2 && !t.armed then traceRecord r g.seq.pos 0 0 g.seq.addr m else m
  if g.run.stalled then raiseEvent 0x14 r 1 g.run.gang 0 g.seq.pos 0 m else m

/-- BUNDLE_ISSUE: the bundle at the sequencer's address checked, its header evaluated, and broadcast when nothing holds it.
An uncorrectable error in the bundle store ends the gang (Table 17.6; log entry 71). -/
def issueBundle (r : Nat) (err : SramErr) (m : Mod) : Mod :=
  let g := m.region r
  if !canIssue g || !waitOpen g.seq.wait then m else
  if err = .uncorrectable then
    raiseEvent 8 r 1 g.run.gang 0xFFFF (2 ^ 63 + g.seq.addr) 0 (stopIssue r 4 m)
  else
    let b := g.decl.bundles.get g.seq.addr
    if bundleBad g.decl g.seq.addr b || bf16Bad g.seq.lastMmulBf16 g.seq.pos b then stopIssue r 2 m
    else
      match headerOp r (bSop b) (bScond b) (bSarg b) (bTarget b) m with
      | (m, none) => m
      | (m, some next) => broadcast r b next m

/-- A header row: the operation evaluated at the sequencer's present address and position, which then goes on to the next
address; the slots of a bundle, and its position, are BUNDLE_ISSUE's (log entry 5). -/
def headerRow (r sop scond sarg target : Nat) (m : Mod) : Mod :=
  let g := m.region r
  if !canIssue g || !waitOpen g.seq.wait then m else
  match headerOp r sop scond sarg target m with
  | (m, none) => m
  | (m, some next) => m.onRegion r (fun g => { g with seq := { g.seq with addr := next, wait := .none } })

/-! ### The check stage and the gang hold (R98 to R106) -/

/-- The unmet conditions of bundle `b` in one core at cycle `target`, with the bundles before it executed at theirs. -/
def checkCore (ctx : Ctx) (cycle target : Nat) (before : List (Issued × Nat)) (b : Issued) (c : Core) : List Hold :=
  let c' := lookAhead ctx (before.filter (fun x => decide (c.pos ≤ x.1.pos))) target (target - cycle) cycle c
  let ctx := { ctx with cycle := target, pos := b.pos, addr := b.addr }
  bundleHolds ctx false target b.bundle (visibleNow target (settleWords c' b.pos))

/-- The ready cycle over all cores: unknown while any condition's is (R101, R106). -/
def readyOf (target : Nat) (hs : List Hold) : Option Nat :=
  hs.foldl (fun a h => match a, h.ready with
    | some x, some t => some (max x t)
    | _, _ => none) (some target)

def Mod.checkAll (m : Mod) (r target : Nat) (before : List (Issued × Nat)) (b : Issued) : List Hold :=
  let g := m.region r
  g.site.zipIdx.flatMap (fun x => checkCore (m.ctx r x.2 0 0) g.cycle target before b (m.core x.1))

/-- The ready cycle of an issued bundle recorded. -/
def setReady (pos : Nat) (t : Option Nat) (g : Region) : Region :=
  { g with seq := { g.seq with pipe := g.seq.pipe.map (fun x => if x.pos == pos then { x with ready := some t } else x) } }

/-- The execution cycles of issued bundles whose ready cycles are known, from cycle `cyc` with `d` held cycles before them, and
the held cycles they add; none while one is unchecked or its ready cycle is unknown (R101, R102). -/
def execCycles (cyc : Nat) : List Issued → Nat → Option (List (Issued × Nat) × Nat)
  | [], d => some ([], d)
  | b :: bs, d =>
    let t := max (b.sched + d) cyc
    match b.ready with
    | some (some k) => (execCycles cyc bs (d + (max t k - t))).map (fun x => ((b, max t k) :: x.1, x.2))
    | _ => none

/-- CHECK_STAGE: the oldest unchecked bundle within six cycles of its execution is checked in every core; an unmet external
condition sets CYCLE_VOID (R98, R465). A bundle behind one whose ready cycle is unknown is not yet within six cycles (R102). -/
def checkStage (r : Nat) (m : Mod) : Mod :=
  let g := m.region r
  match g.seq.pipe.find? (fun b => b.ready.isNone), execCycles g.cycle (g.seq.pipe.takeWhile (fun b => b.ready.isSome)) 0 with
  | some b, some (before, d) =>
    let target := max (b.sched + d) g.cycle
    if g.run.running && decide (target ≤ g.cycle + 6) then
      let hs := m.checkAll r target before b
      let m := m.onRegion r (setReady b.pos (readyOf target hs))
      if hs.any Hold.external then m.voidCycles r else m
    else m
  | _, _ => m

/-- GANG_HOLD_RELEASE: the oldest bundle, held with an unknown ready cycle, is ready six cycles after its awaited
conditions are met, or when an internal one is, if later (R100, R101). -/
def holdRelease (r : Nat) (m : Mod) : Mod :=
  let g := m.region r
  match g.seq.pipe with
  | b :: _ =>
    if g.run.running && b.ready == some none then
      let target := max b.sched (g.cycle + 6)
      match readyOf target (m.checkAll r target [] b) with
      | some t => m.onRegion r (setReady b.pos (some t))
      | none => m
    else m
  | [] => m

/-! ### The end of a gang (R227, R246 to R248) -/

/-- Whether every operation that has executed in a core has completed. -/
def coreIdle (c : Core) : Bool :=
  c.queues.all (fun q => q.2.entries.all (·.vis)) && c.arr.pend.isEmpty && c.v0.pend.isEmpty && c.v1.pend.isEmpty &&
    c.sp.pend.isEmpty && c.ni.clampPend.isEmpty

/-- GANG_END: a gang whose issue has stopped ends once its issued bundles have executed and every operation has completed.
Except after END, the first held bundle and those after it are discarded (R227, R229, R246). -/
def gangEnd (r : Nat) (m : Mod) : Mod :=
  let g := m.region r
  match g.seq.stopping with
  | some st =>
    if g.run.running && (g.seq.pipe.isEmpty || (st != 0 && seqHeld g)) && g.site.all (fun s => coreIdle (m.core s)) then
      endPart r st m
    else m
  | none => m

/-- Whether a message at a core's NI came from a part of the same placement and has not been delivered or discarded. -/
def unsettledAt (part : Nat) (c : Core) : Bool := c.ni.rx.any (fun x => !x.remote && hdrSpart x.hdr == part)

/-- Whether an ended gang's work is settled: its transfers complete, its transmit lists empty, its messages delivered or
discarded (R248). -/
def workSettled (r : Nat) (m : Mod) : Bool :=
  let g := m.region r
  let sites : List Nat := match m.placementOf g.run.gang with
    | some p => p.gangs.flatMap (fun x => x.sites)
    | none => g.site
  g.eng.xfers.isEmpty && g.eng.landing.isEmpty && g.eng.stores.isEmpty && g.eng.jobs.isEmpty &&
    g.site.all (fun s => (m.core s).ni.tx.isEmpty) &&
    m.mesh.msgs.all (fun x => x.2.gang != g.run.gang) && sites.all (fun s => !unsettledAt g.decl.part (m.core s))

/-- GANG_SETTLED: the ended gang's work is settled and GANG_DONE is raised, with its status and the position of the last
bundle issued (R248, R491, Table 14.18). -/
def gangSettled (r : Nat) (m : Mod) : Mod :=
  let g := m.region r
  if g.run.gang = 0 || g.run.running || g.run.settled || !workSettled r m then m
  else
    let d := doneRecord r g.run.status m
    raiseEvent 0x0F r 1 g.run.gang d.d0 d.d.toNat d.flags
      (m.onRegion r (fun g => { g with run := { g.run with settled := true } }))

/-! ### The commands -/

/-- BUNDLE_ISSUE. -/
def execBundleIssue (r : Fin 25) (err : SramErr) (s : State) : Host.Outcome State Fault Refusal :=
  s.runIf (Instr.wf (.bundleIssue r err)) (issueBundle r err)

/-- CHECK_STAGE. -/
def execCheckStage (r : Fin 25) (s : State) : Host.Outcome State Fault Refusal :=
  s.runIf (Instr.wf (.checkStage r)) (checkStage r)

/-- GANG_HOLD_RELEASE. -/
def execGangHoldRelease (r : Fin 25) (s : State) : Host.Outcome State Fault Refusal :=
  s.runIf (Instr.wf (.gangHoldRelease r)) (holdRelease r)

/-- LOOP with SET (R214). -/
def execLoopSet (r : Fin 25) (scond : BitVec 4) (sarg : W32) (target : BitVec 15) (s : State) : Host.Outcome State Fault Refusal :=
  s.runIf (Instr.wf (.loopSet r scond sarg target)) (headerRow r 1 scond.toNat sarg.toNat target.toNat)

/-- LOOP (R214). -/
def execLoop (r : Fin 25) (scond : BitVec 4) (sarg : W32) (target : BitVec 15) (s : State) : Host.Outcome State Fault Refusal :=
  s.runIf (Instr.wf (.loop r scond sarg target)) (headerRow r 1 scond.toNat sarg.toNat target.toNat)

/-- BR (R215). -/
def execBr (r : Fin 25) (scond : BitVec 4) (sarg : W32) (target : BitVec 15) (s : State) : Host.Outcome State Fault Refusal :=
  s.runIf (Instr.wf (.br r scond sarg target)) (headerRow r 2 scond.toNat sarg.toNat target.toNat)

/-- KERF (R216, R217). -/
def execKerf (r : Fin 25) (scond : BitVec 4) (sarg : W32) (target : BitVec 15) (s : State) : Host.Outcome State Fault Refusal :=
  s.runIf (Instr.wf (.kerf r scond sarg target)) (headerRow r 3 scond.toNat sarg.toNat target.toNat)

/-- KERF_RELEASE (R50, R51), with the interval's measured energy (log entry 22). -/
def execKerfRelease (r : Fin 25) (energy : W32) (s : State) : Host.Outcome State Fault Refusal :=
  s.runIf (Instr.wf (.kerfRelease r energy)) (kerfRelease r energy.toNat)

/-- PREEMPT_POINT (R220, R241). -/
def execPreemptPoint (r : Fin 25) (scond : BitVec 4) (sarg : W32) (target : BitVec 15) (s : State) : Host.Outcome State Fault Refusal :=
  s.runIf (Instr.wf (.preemptPoint r scond sarg target)) (headerRow r 4 scond.toNat sarg.toNat target.toNat)

/-- LAUNCH (R221). -/
def execLaunch (r : Fin 25) (scond : BitVec 4) (sarg : W32) (target : BitVec 15) (s : State) : Host.Outcome State Fault Refusal :=
  s.runIf (Instr.wf (.launch r scond sarg target)) (headerRow r 5 scond.toNat sarg.toNat target.toNat)

/-- LAUNCH_RELEASE: the view has met a launch's target; its bundle may be broadcast (R53). -/
def execLaunchRelease (r : Fin 25) (s : State) : Host.Outcome State Fault Refusal :=
  s.runIf (Instr.wf (.launchRelease r)) (fun m =>
    let g := m.region r
    match g.seq.wait with
    | .launch t => if seqRuns g && decide (t ≤ g.ticks) then m.onRegion r (setWait .ready) else m
    | _ => m)

/-- GANG_FIRST_RELEASE: the view has reached the run base (R49). -/
def execGangFirstRelease (r : Fin 25) (s : State) : Host.Outcome State Fault Refusal :=
  s.runIf (Instr.wf (.gangFirstRelease r)) (fun m =>
    let g := m.region r
    match g.seq.wait with
    | .first => if seqRuns g && decide (g.seq.kerfBase ≤ g.ticks) then m.onRegion r (setWait .none) else m
    | _ => m)

/-- STOCK (R222). -/
def execStock (r : Fin 25) (scond : BitVec 4) (sarg : W32) (target : BitVec 15) (s : State) : Host.Outcome State Fault Refusal :=
  s.runIf (Instr.wf (.stock r scond sarg target)) (headerRow r 6 scond.toNat sarg.toNat target.toNat)

/-- CURVE (R223). -/
def execCurve (r : Fin 25) (scond : BitVec 4) (sarg : W32) (target : BitVec 15) (s : State) : Host.Outcome State Fault Refusal :=
  s.runIf (Instr.wf (.curve r scond sarg target)) (headerRow r 7 scond.toNat sarg.toNat target.toNat)

/-- STEP (R226). -/
def execStep (r : Fin 25) (scond : BitVec 4) (sarg : W32) (target : BitVec 15) (s : State) : Host.Outcome State Fault Refusal :=
  s.runIf (Instr.wf (.step r scond sarg target)) (headerRow r 8 scond.toNat sarg.toNat target.toNat)

/-- END (R227). -/
def execEndOp (r : Fin 25) (scond : BitVec 4) (sarg : W32) (target : BitVec 15) (s : State) : Host.Outcome State Fault Refusal :=
  s.runIf (Instr.wf (.endOp r scond sarg target)) (headerRow r 9 scond.toNat sarg.toNat target.toNat)

/-- GANG_END. -/
def execGangEnd (r : Fin 25) (s : State) : Host.Outcome State Fault Refusal :=
  s.runIf (Instr.wf (.gangEnd r)) (gangEnd r)

/-- GANG_SETTLED. -/
def execGangSettled (r : Fin 25) (s : State) : Host.Outcome State Fault Refusal :=
  s.runIf (Instr.wf (.gangSettled r)) (gangSettled r)

end Sys2Proof.Machine
end

