-- ==== Sys2Proof/Machine/StockEngine.lean ====
section
/-!
DEFINITION. Machine/StockEngine.lean: the stock engines, the memory wheel, chunk accesses, paging, the landing port and
landing tokens (spec/08_stock.md R290 to R329; spec/07_scratchpad.md R252 to R256, R275, R281 to R284; spec/17_faults.md
Table 17.6). Log entry 16 says which pages are taken and evicted.
-/

namespace Sys2Proof.Machine

open Sys2Proof

def onEng (r : Nat) (f : Engine → Engine) (m : Mod) : Mod := m.onRegion r (fun g => { g with eng := f g.eng })

def onEngRec (f : EngRec → EngRec) (e : Engine) : Engine := { e with cnt := f e.cnt }

/-! ### Descriptors (Table 8.3, R299 to R305) -/

/-- The `k`-byte field at byte offset `o` of a descriptor. -/
def dfld (d : Bundle) (o k : Nat) : Nat := sel d (8 * (o + k) - 1) (8 * o)

/-- The stock address of row 0 for the k-th core served (R300). -/
def descSa (d : Bundle) (v k : Nat) : Nat :=
  let t := v * dfld d 0x18 6
  let s := dfld d 0x08 6 + k * dfld d 0x10 4
  (if bit d 10 then s + 2 ^ 80 - t else s + t) % 2 ^ 48

/-- The loop value that applies: v when LSCALE is 1 (R300). -/
def descV (x : DescIn) : Nat := if bit x.desc 9 then x.v.toNat else 0

/-- The handle index K (R300). -/
def descK (x : DescIn) : Nat :=
  let v := descV x
  (if bit x.desc 10 then dfld x.desc 0x24 4 + 2 ^ 64 - v else dfld x.desc 0x24 4 + v) % 2 ^ 32

/-- The target handle, or the key, of a descriptor; an undeclared drawer counts as one of a single slot (R301, R303). -/
def descKey (decl : PartDecl) (x : DescIn) : W32 :=
  if bit x.desc 8 then
    let dr := dfld x.desc 0x20 4 / 2 ^ 26
    let n := match Tab.find decl.drawers dr with
      | some d => max 1 d.slotCount
      | none => 1
    mkHandle dr (descK x % n) (descK x / n)
  else BitVec.ofNat 32 (dfld x.desc 0x24 4)

/-- The checks of Table 8.4 in order: 0, or the token status. -/
def descCheck (m : Mod) (r : Nat) (x : DescIn) : Nat :=
  let g := m.region r
  let d := x.desc
  let dop := dfld d 0 1
  let tm := bit d 8
  let target := dfld d 0x20 4
  let len := dfld d 2 2
  let first := dfld d 4 2
  let count := dfld d 6 2
  let cs := dfld d 0x10 4
  let fmtBad := dop = 0 ∨ dop > 2 ∨ sel d 15 11 ≠ 0 ∨ sel d 127 112 ≠ 0 ∨ dfld d 0x14 4 ≠ 0 ∨ sel d 255 240 ≠ 0 ∨
    (if tm then target / 2 ^ 11 % 2 ^ 15 else target / 2 ^ 14) ≠ 0 ∨ dfld d 0x28 24 ≠ 0 ∨ (dop = 2 ∧ cs = 0 ∧ count > 1)
  if fmtBad then 6
  else if len = 0 then 1
  else if count = 0 ∨ first + count > g.decl.cores then 2
  else
    let targetBad := if tm then match Tab.find g.decl.drawers (target / 2 ^ 26) with
        | some dr => decide (target % 2 ^ 11 + len > dr.slotRows)
        | none => true
      else decide (target % 2 ^ 14 + len > 16384)
    if targetBad then 2
    else
      let pageBad := (List.range (if cs = 0 then 1 else count)).any (fun k =>
        !m.rangeOk g.run.session (descSa d (descV x) k) (512 * len) false (dop = 2))
      if dfld d 8 6 % 512 ≠ 0 ∨ cs % 512 ≠ 0 ∨ dfld d 0x18 6 % 512 ≠ 0 ∨ pageBad then 3 else 0

/-- The transfers of a descriptor, in order: at most 128 rows each, one per core per row range, or one per row range for all
cores of a multicast LOAD (R304). -/
def descXfers (x : DescIn) (id : Nat) : List Xfer :=
  let d := x.desc
  let store : Bool := dfld d 0 1 = 2
  let len := dfld d 2 2
  let first := dfld d 4 2
  let count := dfld d 6 2
  let cs := dfld d 0x10 4
  let multi : Bool := !store && cs = 0
  let groups : List (Nat × Nat × Nat) := if multi then [(0, first, count)] else (List.range count).map (fun k => (k, first + k, 1))
  groups.flatMap (fun g => (List.range ((len + 127) / 128)).map (fun j =>
    let rows := min 128 (len - 128 * j)
    ({ id := 0, store := store, sa := (descSa d (descV x) g.1 + 512 * 128 * j) % 2 ^ 48, cstride := cs
       pieces := [{ desc := id, core := g.2.1, count := g.2.2, row := 128 * j, rows := rows }], left := rows * g.2.2 } : Xfer)))

def Engine.job (e : Engine) (id : Nat) : Option DescJob := e.jobs.find? (fun j => j.id == id)
def Engine.xfer (e : Engine) (id : Nat) : Option Xfer := e.xfers.find? (fun x => x.id == id)
def Engine.onJob (e : Engine) (id : Nat) (f : DescJob → DescJob) : Engine :=
  { e with jobs := e.jobs.map (fun j => if j.id == id then f j else j) }
def Engine.onXfer (e : Engine) (id : Nat) (f : Xfer → Xfer) : Engine :=
  { e with xfers := e.xfers.map (fun x => if x.id == id then f x else x) }

/-- Whether a new transfer merges into the last one waiting (R305). -/
def mergeable (e : Engine) (a b : Xfer) : Bool :=
  match a.pieces.getLast?, b.pieces.head? with
  | some p, some q =>
    match e.job p.desc, e.job q.desc with
    | some j, some k =>
      !a.tagged && a.store == b.store && a.cstride == b.cstride && p.core == q.core && p.count == q.count &&
        (a.sa + 512 * a.len) % 2 ^ 48 == b.sa && decide (a.len + b.len ≤ 128) && j.tmode == k.tmode &&
        (!j.tmode || j.handle == k.handle) && j.row0 + p.row + p.rows == k.row0 + q.row
    | _, _ => false
  | _, _ => false

/-- A transfer added behind the others, merged where R305 asks. -/
def addXfer (e : Engine) (x : Xfer) : Engine :=
  match e.xfers.getLast? with
  | some a =>
    if mergeable e a x then
      { e with xfers := e.xfers.dropLast ++ [{ a with pieces := a.pieces ++ x.pieces, left := a.left + x.left }]
               cnt := { e.cnt with merges := bump48 e.cnt.merges 1 } }
    else { e with xfers := e.xfers ++ [{ x with id := e.nextId }], nextId := e.nextId + 1 }
  | none => { e with xfers := e.xfers ++ [{ x with id := e.nextId }], nextId := e.nextId + 1 }

/-- DESCRIPTOR_TAKE: the oldest descriptor checked and divided into transfers, or rejected with a token to each core of its
range that the part declares (R303, R304). -/
def descriptorTake (r : Nat) (m : Mod) : Mod :=
  let g := m.region r
  match g.eng.queue with
  | [] => m
  | x :: q =>
    if m.aon.state = .safeHold then m else
    let st := descCheck m r x
    let d := x.desc
    let dop := dfld d 0 1
    let cores := (List.range (dfld d 6 2)).filterMap (fun k => if dfld d 4 2 + k < g.decl.cores then some (dfld d 4 2 + k) else none)
    let j : DescJob :=
      { id := g.eng.nextId, addr := x.addr, store := dop = 2, tmode := bit d 8
        row0 := if bit d 8 then dfld d 0x20 4 % 2 ^ 11 else dfld d 0x20 4 % 2 ^ 14
        handle := descKey g.decl x, key := descKey g.decl x, exec := x.exec
        kind := if dop = 1 ∨ dop = 2 then dop else 0
        left := if st = 0 then cores.map (fun c => (c, dfld d 2 2)) else []
        status := if st = 0 then [] else cores.map (fun c => (c, st)), pending := cores }
    let m := onEng r (fun e => { e with queue := q, jobs := e.jobs ++ (if cores.isEmpty then [] else [j]), nextId := e.nextId + 1
                                        cnt := { e.cnt with descriptors := bump48 e.cnt.descriptors 1 } }) m
    if st = 0 then onEng r (fun e => (descXfers x j.id).foldl addXfer e) m
    else
      let w : W32 := BitVec.ofNat 32 (2 ^ 31 + (st <<< 27) + x.addr)
      m.onRegion r (fun g => countEv { g with eng := onEngRec (fun c =>
        { c with descErrors := bump32 c.descErrors 1, firstDescError := firstOf c.firstDescError w }) g.eng }
        { code := 6, d0 := x.addr, d := st })

/-! ### Transfers and tags (R306, R310) -/

/-- Whether an earlier transfer still outstanding shares a chunk, one of the two being a STORE (R310). -/
def orderBlocked (e : Engine) (x : Xfer) : Bool :=
  e.xfers.any (fun y => decide (y.id < x.id) && (x.store || y.store) && y.chunks.any (fun k => x.chunks.contains k))

def tagsUsed (e : Engine) : Nat := (e.xfers.filter (·.tagged)).length

/-- A chunk request put behind the others at its interface. -/
def requestChunk (q : ChunkReq) (m : Mod) : Mod :=
  m.onIface (m.chunkAt (m.region q.region).run.session q.chunk) (fun i => { i with waiting := i.waiting ++ [q] })

/-- TRANSFER_ISSUE: the oldest waiting transfer obtains a tag, and a LOAD's chunks go to their interfaces (R306, R310). -/
def transferIssue (r : Nat) (m : Mod) : Mod :=
  let g := m.region r
  match g.eng.xfers.find? (fun x => !x.tagged) with
  | none => m
  | some x =>
    if tagsUsed g.eng ≥ 512 || orderBlocked g.eng x then m else
    let m := onEng r (fun e =>
      let e := e.onXfer x.id (fun y => { y with tagged := true, tick0 := g.ticks })
      onEngRec (fun c => { c with transfers := bump48 c.transfers 1, tagsMax := max32 c.tagsMax (tagsUsed e) }) e) m
    if x.store then m
    else x.chunks.foldl (fun m k => requestChunk { region := r, xfer := x.id, chunk := k, store := false } m) m

/-- The piece that holds row `k` of a transfer, and the row's index in its descriptor. -/
def pieceAt : List XferPiece → Nat → Option (XferPiece × Nat)
  | [], _ => none
  | p :: t, k => if k < p.rows then some (p, p.row + k) else pieceAt t (k - p.rows)

/-- The rows of a transfer that lie in a chunk, by their index in the transfer and their half of the chunk. -/
def rowsIn (x : Xfer) (chunk : Nat) : List (Nat × Nat) :=
  (List.range x.len).filterMap (fun k =>
    let sa := (x.sa + 512 * k) % 2 ^ 48
    if sa / 1024 = chunk then some (k, sa % 1024 / 512) else none)

/-- One row of a core finished for its descriptor and its transfer; `counted` says whether it was moved. -/
def rowDone (desc xfer core st : Nat) (counted : Bool) (e : Engine) : Engine :=
  let e := e.onJob desc (fun j => { j with
    left := Tab.set j.left core (Tab.get j.left core 0 - 1)
    rows := if counted then Tab.set j.rows core (Tab.get j.rows core 0 + 1) else j.rows
    status := if st = 0 then j.status else Tab.set j.status core (max st (Tab.get j.status core 0)) })
  e.onXfer xfer (fun x => { x with left := x.left - 1 })

/-- Whether a transfer has released its tag: its rows are all moved, and no core it served waits for the token of a finished
descriptor (R306, R313). -/
def xferDone (e : Engine) (x : Xfer) : Bool :=
  x.tagged && x.left == 0 && !(x.pieces.any (fun p => match e.job p.desc with
    | some j => j.pending.any (fun c => decide (p.core ≤ c) && decide (c < p.core + p.count) && Tab.get j.left c 0 == 0)
    | none => false))

/-- Tags released, pages to be freed freed, and the largest landing latency kept, transfers held for a page excepted (R519,
Table 8.7). -/
def sweepXfers (r : Nat) (m : Mod) : Mod :=
  let g := m.region r
  let done := g.eng.xfers.filter (xferDone g.eng)
  let lat := (done.filter (fun x => !x.held)).foldl (fun a x => max a (g.ticks - x.tick0)) 0
  let m := onEng r (fun e => { e with xfers := e.xfers.filter (fun x => !xferDone e x)
                                      stores := e.stores.filter (fun s => !(done.any (fun x => x.id == s.xfer)))
                                      cnt := { e.cnt with latencyMax := max32 e.cnt.latencyMax lat } }) m
  m.freeDeferred

/-! ### Host and Tirix traffic: STOCK_FILL (R321, R517) -/

/-- Evicting one page: a page that is PAGEABLE, not PINNED, with no transfer outstanding, whose physical page suits; a DIRTY
one is written back to its host backing first (R327). -/
def evictable (m : Mod) (narrowDev : Option Nat) (x : Nat × W64) : Bool :=
  let e := x.2
  let sess := x.1 / 2 ^ 27
  let page := x.1 % 2 ^ 27
  pteValid e && pteResident e && ptePageable e && !ptePinned e &&
    (match narrowDev with
      | some d => pteNarrow e && sel e 55 51 == d
      | none => !pteNarrow e) &&
    !(allRegions.any (fun r => (m.region r).run.session == sess &&
        (m.region r).eng.xfers.any (fun t => t.tagged && t.chunks.any (fun k => k / 2048 == page))))

/-- The host address of a page's backing (Table 8.2). -/
def Mod.backing (m : Mod) (sess : Nat) (e : W64) : Option Nat :=
  (Tab.find m.alloc.hostMap (sess * 2 ^ 31 + sel e 30 0)).map (·.toNat)

/-- A page's 2 MiB written to, and read from, host memory. -/
def pageOut (p a : Nat) (m : Mod) : Mod :=
  { m with host := { m.host with mem := (List.range 2048).foldl (fun h j =>
      h.writeAll (a + 1024 * j) (bytesOf (m.chunk (pageChunk p j)) 1024)) m.host.mem } }

def pageIn (p a : Nat) (m : Mod) : Mod :=
  (List.range 2048).foldl (fun m j => m.setChunk (pageChunk p j) (chunkOf (m.host.mem.bytes (a + 1024 * j) 1024))) m

/-- The lowest evictable page made non-resident, its contents written back where dirty (R327). -/
def evictOne (narrowDev : Option Nat) (m : Mod) : Mod :=
  match m.alloc.pt.find? (evictable m narrowDev) with
  | none => m
  | some x =>
    let sess := x.1 / 2 ^ 27
    let m := if pteDirty x.2 then match m.backing sess x.2 with
        | some a => pageOut (ptePage x.2) a m
        | none => m
      else m
    m.setPte sess (x.1 % 2 ^ 27) (put (put (put x.2 62 62 0) 58 58 0) 57 57 0)

/-- A free physical page for a page-table entry: wide, or on the entry's own device. -/
def pageFor (m : Mod) (e : W64) : Option Nat :=
  (if pteNarrow e then m.freeNarrow (some (sel e 55 51)) 1 else m.freeWide 1).bind (·.head?)

/-- One page made resident from its host backing, evicting one page when no physical page is free (R326). -/
def makeResident (sess page : Nat) (m : Mod) : Mod :=
  let e := m.pte sess page
  if !pteValid e || pteResident e || !ptePageable e then m else
  let m := if (pageFor m e).isSome then m else evictOne (if pteNarrow e then some (sel e 55 51) else none) m
  match pageFor m e, m.backing sess e with
  | some p, some a =>
    let m := pageIn p a m
    { m.setPte sess page (put (put (pteWithPage e p) 62 62 1) 58 58 0) with
      events := { m.events with pagesServiced := m.events.pagesServiced + 1 } }
  | _, _ => m

/-- The next fill row of a job: its byte values (Table 14.10). -/
def fillRow (m : Mod) (fromHost : Bool) (source : W64) (done : Nat) : Row :=
  if fromHost then wordOf 4096 (m.host.mem.bytes (source.toNat + done) 512)
  else BitVec.ofNat 4096 (packNat 64 (fun _ => source) 64)

/-- What a fill meets at its next row: nothing left, a page that stops it, a page to be made resident, or a row to write. -/
inductive FillAt where
  | complete
  | stopped
  | absent
  | row (sa : Nat)
  deriving DecidableEq, Repr

def fillAt (m : Mod) (sess sa bytes done : Nat) : FillAt :=
  if bytes ≤ done then .complete
  else
    let e := m.pte sess ((sa + done) / 2 ^ 21)
    if !pteValid e || !pteWritable e then .stopped
    else if !pteResident e then .absent
    else .row (sa + done)

/-- One row of a fill written. -/
def fillOne (sess sa : Nat) (fromHost : Bool) (source : W64) (done : Nat) (m : Mod) : Mod :=
  let a := sa + done
  let k := saChunk (m.pte sess (a / 2 ^ 21)) a
  (m.setChunk k (setChunkRow (m.chunk k) a (fillRow m fromHost source done))).touchPage sess (a / 2 ^ 21) true

/-- At most `n` rows of a fill, up to a stop; the bytes done so far. -/
def fillRows (sess sa bytes : Nat) (fromHost : Bool) (source : W64) : Nat → Nat → Mod → Mod × Nat
  | 0, done, m => (m, done)
  | n + 1, done, m =>
    match fillAt m sess sa bytes done with
    | .row _ => fillRows sess sa bytes fromHost source n (done + 512) (fillOne sess sa fromHost source done m)
    | .absent =>
      let m := makeResident sess ((sa + done) / 2 ^ 21) m
      match fillAt m sess sa bytes done with
      | .row _ => fillRows sess sa bytes fromHost source n (done + 512) (fillOne sess sa fromHost source done m)
      | _ => (m, done)
    | _ => (m, done)

/-- The fill whose next chunk lies on an interface, if any. -/
def hostWaiting (m : Mod) (i : Nat) : Option Job :=
  m.jobs.find? (fun j => match j.kind with
    | .fill sa bytes done _ _ => decide (done < bytes) && m.chunkAt j.session ((sa + done) / 1024) == i
    | _ => false)

/-- One chunk of host traffic moved in a period (R321; log entry 27). -/
def hostChunk (j : Job) (m : Mod) : Mod :=
  match j.kind with
  | .fill sa bytes done h src =>
    let n := if (sa + done) % 1024 = 0 then 2 else 1
    let (m, d) := fillRows j.session sa bytes h src n done m
    { m with jobs := m.jobs.map (fun x => if x.mb == j.mb && x.seq == j.seq then { x with kind := .fill sa bytes d h src } else x) }
  | _ => m

/-! ### The memory wheel (R318 to R321) -/

/-- The wheel's regions from place `pos` on, cyclically. -/
def wheelFrom (w : List Nat) (pos : Nat) : List Nat := w.drop pos ++ w.take pos

/-- A region's oldest waiting request at an interface started. -/
def startChunk (i r : Nat) (m : Mod) : Mod :=
  let x := m.iface i
  match x.waiting.find? (fun q => q.region == r) with
  | some q => m.onIface i (fun x => { x with waiting := x.waiting.erase q, started := x.started ++ [q] })
  | none => m

/-- The region in no wheel entry served next at an interface: ascending after the last one served (R320). -/
def unnamedNext (w : List Nat) (x : Iface) : Option Nat :=
  let waits (r : Nat) : Bool := !(w.contains r) && x.waiting.any (fun q => q.region == r)
  ((List.range 25).map (fun k => (x.lastUnnamed + 1 + k) % 25)).find? waits

/-- WHEEL_PERIOD: one period of an interface given to the region its entry names, or passed on (R318, R320, R321). -/
def wheelPeriod (i : Nat) (m : Mod) : Mod :=
  let x := m.iface i
  let w := m.stock.wheel
  if m.stock.selfRefresh || w.isEmpty then m else
  let named := w.getD (x.pos % w.length) 0
  let waits (r : Nat) : Bool := x.waiting.any (fun q => q.region == r)
  let m := m.onIface i (fun x => { x with pos := (x.pos + 1) % w.length, sinceSteal := min 1600 (x.sinceSteal + 1)
                                          hostIdle := min 1600 (x.hostIdle + 1) })
  let host := hostWaiting m i
  match host, (wheelFrom w (x.pos % w.length)).find? waits with
  | some j, some _ =>
    if x.hostIdle ≥ 1600 ∧ x.sinceSteal ≥ 1600 then
      hostChunk j (onEng named (onEngRec (fun c => { c with hostSteals := bump32 c.hostSteals 1 }))
        (m.onIface i (fun x => { x with sinceSteal := 0, hostIdle := 0 })))
    else startChunk i (((wheelFrom w (x.pos % w.length)).find? waits).getD named) m
  | none, some r => startChunk i r m
  | some j, none => hostChunk j (m.onIface i (fun x => { x with hostIdle := 0 }))
  | none, none =>
    let m := m.onIface i (fun x => { x with hostIdle := 0 })
    match unnamedNext w x with
    | some r => startChunk i r (m.onIface i (fun x => { x with lastUnnamed := r }))
    | none => m

/-! ### Chunk accesses (R291, R295, R302, R311, R325) -/

/-- A LOAD's chunk read: its rows go to every core served, as read, or as zeros with status UNCORRECTABLE. -/
def loadChunk (q : ChunkReq) (x : Xfer) (fail : Bool) (m : Mod) : Mod :=
  let v : Vec := if fail then 0 else m.chunk (saChunk (m.reqPte q) (q.chunk * 1024))
  let rows := (rowsIn x q.chunk).flatMap (fun k => match pieceAt x.pieces k.1 with
    | some (p, idx) => (List.range p.count).map (fun c =>
        ({ desc := p.desc, xfer := x.id, core := p.core + c, idx := idx, val := elem 4096 v k.2 } : LandRow))
    | none => [])
  let m := onEng q.region (fun e =>
    let e := if fail then rows.foldl (fun e l => e.onJob l.desc (fun j => { j with status := Tab.set j.status l.core 5 })) e else e
    { e with landing := e.landing ++ rows
             cnt := { e.cnt with bytesLoaded := bump48 e.cnt.bytesLoaded (512 * (rowsIn x q.chunk).length) } }) m
  m.touchPage (m.region q.region).run.session (q.chunk / 2048) false

/-- A STORE's chunk written, or left undefined when it fails (Landing latency). -/
def putChunk (q : ChunkReq) (x : Xfer) (fail : Bool) (m : Mod) : Mod :=
  let m := if fail then
      let k := saChunk (m.reqPte q) (q.chunk * 1024)
      { m.setChunk k (Config.undefined 8192 m.freeCtr k) with freeCtr := m.freeCtr + 1 }
    else m.storeChunk q
  let m := onEng q.region (fun e =>
    (rowsIn x q.chunk).foldl (fun e k => match pieceAt x.pieces k.1 with
      | some (p, _) => rowDone p.desc x.id p.core (if fail then 5 else 0) true e
      | none => e)
      { e with cnt := { e.cnt with bytesStored := bump48 e.cnt.bytesStored (512 * (rowsIn x q.chunk).length) } }) m
  sweepXfers q.region m

/-- CHUNK_ACCESS: the oldest started request of an interface carried out, after `retries` EDC retries; on a page that is not
resident it is held instead (R325). -/
def chunkAccess (i retries : Nat) (fail : Bool) (m : Mod) : Mod :=
  match (m.iface i).started with
  | [] => m
  | q :: rest =>
    if m.stock.selfRefresh then m else
    let m := m.onIface i (fun x => { x with started := rest })
    match (m.region q.region).eng.xfer q.xfer with
    | none => m
    | some x =>
      if !pteResident (m.reqPte q) then
        onEng q.region (fun e => onEngRec (fun c => { c with pageWaits := if x.held then c.pageWaits else bump32 c.pageWaits 1 })
          (e.onXfer x.id (fun y => { y with held := true })))
          (m.onIface i (fun x => { x with held := x.held ++ [q] }))
      else
        let m := onEng q.region (onEngRec (fun c => { c with
          edcRetries := bump32 c.edcRetries retries
          uncorrectable := if fail then bump32 c.uncorrectable 1 else c.uncorrectable })) m
        let m := if fail then m.onRegion q.region (fun g => countEv g { code := 0x13 }) else m
        if q.store then putChunk q x fail m else loadChunk q x fail m

/-- PAGE_SERVICE: a page that requests wait for made resident, and its held requests released (R326). -/
def pageService (sess page : Nat) (m : Mod) : Mod :=
  let m := makeResident sess page m
  if pteResident (m.pte sess page) then
    { m with stock := { m.stock with ifaces := m.stock.ifaces.mapVals (fun _ x =>
      let mine (q : ChunkReq) : Bool := (m.region q.region).run.session == sess && q.chunk / 2048 == page
      { x with held := x.held.filter (fun q => !mine q), waiting := x.waiting ++ x.held.filter mine }) } }
  else m

/-! ### STORE rows (R309) -/

/-- Whether the landing port may make one more access to a row's bank in this cycle (R253). What it discards is recorded
with bits of the region's local view (Table 7.3). -/
def landFree (c : Core) (row : Nat) : Bool :=
  decide (c.sp.landUsed < 3) && !(c.sp.progBanks.contains (bankOf row)) && !(c.sp.landBanks.contains (bankOf row))

def useLand (c : Core) (row : Nat) : Core :=
  { c with sp := { c.sp with landUsed := c.sp.landUsed + 1, landBanks := bankOf row :: c.sp.landBanks
                             cnt := { c.sp.cnt with landingRows := bump48 c.sp.cnt.landingRows 1 } } }

/-- A landing-port read of a row, gated rows reading zero: the core, its events and the row, none when an uncorrectable error
withholds it (R281, R284). A row in a declared drawer never lies in a gated group (R259). -/
def landRead (ctx : Ctx) (row : Nat) (err : SramErr) (c : Core) : Eff × Option Row :=
  let c := useLand c row
  if rowGated ctx.decl row then (recGated c 15 ctx.view, some 0)
  else
    let e := recSram c ctx 0 row err
    (e, if e.sramStop then none else some (c.sp.rows.get row))

/-- The next row a region's STOREs read: the oldest issued STORE with a row unread whose STOCK bundle has executed. -/
def nextStoreRow (g : Region) : Option (Xfer × XferPiece × Nat × DescJob) :=
  g.eng.xfers.findSome? (fun x =>
    if x.store && x.tagged && decide (x.read < x.len) then
      match pieceAt x.pieces x.read with
      | some (p, idx) => match g.eng.job p.desc with
        | some j => if g.seq.pipe.all (fun b => decide (j.exec < b.pos)) then some (x, p, idx, j) else none
        | none => none
      | none => none
    else none)

/-- The rest of a STORE's piece failed with a status: its slot is in another generation (R309), or a row could not be read
(R284). Nothing of it is written. -/
def storeFail (r st idx : Nat) (x : Xfer) (p : XferPiece) (m : Mod) : Mod :=
  let n := p.row + p.rows - idx
  let m := onEng r (fun e => (List.range n).foldl (fun e _ => rowDone p.desc x.id p.core st false e)
    (e.onXfer x.id (fun y => { y with read := y.read + n }))) m
  sweepXfers r m

/-- STORE_ROW_READ: one row read through the landing port; when a chunk's rows have all been read, its write is requested
(R309, R311). -/
def storeRowRead (r : Nat) (err : SramErr) (m : Mod) : Mod :=
  let g := m.region r
  match nextStoreRow g with
  | none => m
  | some (x, p, idx, j) =>
    let site := g.siteOf p.core
    let c := m.core site
    if j.tmode && genDist c j.handle != 0 then storeFail r 4 idx x p m
    else
      let ctx := m.ctx r p.core g.seq.pos j.addr
      let row := if j.tmode then (checkHandle g.decl c j.handle (j.row0 + idx)).2 else (j.row0 + idx) % 16384
      if !landFree c row then m else
      let (e, v) := landRead ctx row err c
      let m := m.applyEff site e
      match v with
      | none => storeFail r 5 idx x p m
      | some v =>
        let sa := (x.sa + 512 * x.read) % 2 ^ 48
        let m := onEng r (fun e => { (e.onXfer x.id (fun y => { y with read := y.read + 1 })) with
          stores := e.stores ++ [{ xfer := x.id, sa := sa, val := v }] }) m
        if x.read + 1 = x.len ∨ sa % 1024 = 512 then
          requestChunk { region := r, xfer := x.id, chunk := sa / 1024, store := true } m
        else m

/-! ### Landing (R254, R256, R261, R275, R307, R308) -/

/-- Whether a row for a slot waits at its source: its handle passes the checks and names a generation the slot has not
reached (R275). -/
def landWaits (decl : PartDecl) (c : Core) (h : W32) (ofs : Nat) : Bool :=
  (checkHandle decl c h ofs).1 == 0 && genDist c h != 0

/-- A request placed in the landing buffer for a slot's row, with its written mark, or for a loose row. -/
def landReq (decl : PartDecl) (c : Core) (h : Option W32) (row : Nat) (v : Row) (src : Option (Nat × Nat)) : LandReq :=
  match h with
  | some h => { row := (checkHandle decl c h row).2, val := v, src := src
                mark := some { drawer := hDrawer h, slot := hSlot h, gen := BitVec.ofNat 16 (hGen h), off := row } }
  | none => { row := row % 16384, val := v, mark := none, src := src }

def pushLand (q : LandReq) (c : Core) : Core := { c with sp := { c.sp with landing := c.sp.landing ++ [q] } }

/-- A landed row of a transfer, at its core: accepted, kept at its source, discarded and counted, or discarded uncounted
because its gang has ended (R248, R275). A parity error on the landing path makes it zeros (Table 17.6). -/
def landStock (r : Nat) (l : LandRow) (j : DescJob) (parity : Bool) (m : Mod) : Mod :=
  let g := m.region r
  let site := g.siteOf l.core
  let c := m.core site
  let drop (m : Mod) : Mod := onEng r (fun e => { e with landing := e.landing.erase l }) m
  let m' := if parity then
      onEng r (fun e => onEngRec (fun k => { k with uncorrectable := bump32 k.uncorrectable 1 })
        (e.onJob l.desc (fun j => { j with status := Tab.set j.status l.core 5 }))) (m.onRegion r (fun g => countEv g { code := 0x13 }))
    else m
  let v : Row := if parity then 0 else l.val
  if j.tmode then
    let o := j.row0 + l.idx
    let k := (checkHandle g.decl c j.handle o).1
    if k ≠ 0 then
      let c := if g.run.running then recHandle c k 15 g.ticks j.handle else c
      sweepXfers r (onEng r (rowDone l.desc l.xfer l.core 4 false) (drop (m.setCore site c)))
    else if genDist c j.handle ≠ 0 then
      if g.run.running then m else sweepXfers r (onEng r (rowDone l.desc l.xfer l.core 4 false) (drop m))
    else drop (m'.onCore site (pushLand (landReq g.decl c (some j.handle) o v (some (l.desc, l.xfer)))))
  else drop (m'.onCore site (pushLand (landReq g.decl c none (j.row0 + l.idx) v (some (l.desc, l.xfer)))))

/-- The oldest row of a region's transfers for a core that the landing port would not keep waiting. -/
def nextLand (g : Region) (core : Nat) (c : Core) : Option (LandRow × DescJob) :=
  g.eng.landing.findSome? (fun l =>
    if l.core = core then match g.eng.job l.desc with
      | some j => if j.tmode && g.run.running && landWaits g.decl c j.handle (j.row0 + l.idx) then none else some (l, j)
      | none => none
    else none)

/-- The oldest row a window message passes on at a core, by its place in the receive list: the window's generation must be
the slot's (R355). -/
def nextWindow (decl : PartDecl) (c : Core) : Option (Nat × W32 × Nat × Row) :=
  (c.ni.rx.zipIdx).findSome? (fun (x, i) => match x.dest with
    | .window h =>
      let o := hdrOfs x.hdr + x.done
      if x.done < x.got ∧ !(landWaits decl c h o) then some (i, h, o, x.rows.getD x.done 0) else none
    | _ => none)

/-- An arrival delivered on a channel (Table 9.10). -/
def received (ch : Nat) (c : Core) : Core :=
  { c with ni := { c.ni with cnt := { c.ni.cnt with
      received := c.ni.cnt.received.set! ch (bump32 (c.ni.cnt.received[ch]?.getD 0) 1) } } }

/-- A window row passed to the landing port; a message whose last row has gone leaves the NI. -/
def landWindow (decl : PartDecl) (i : Nat) (h : W32) (o : Nat) (v : Row) (view : Nat) (c : Core) : Core :=
  let k := (checkHandle decl c h o).1
  let c := if k ≠ 0 then recHandle c k 15 view h else pushLand (landReq decl c (some h) o v none) c
  let rx := (c.ni.rx.zipIdx).filterMap (fun (x, n) =>
    if n = i then (if x.done + 1 < x.rows.length then some { x with done := x.done + 1 } else none) else some x)
  let c := if rx.length < c.ni.rx.length then received (hdrVc (c.ni.rx.getD i { hdr := 0, rows := [] }).hdr) c else c
  { c with ni := { c.ni with rx := rx } }

/-- LANDING_ROW: the landing port of a site accepts one row, a transfer's before a window's, while its buffer has room
(R256, R275; log entry 28). -/
def landingRow (site : Nat) (parity : Bool) (m : Mod) : Mod :=
  let r := siteRegion site
  let g := m.region r
  match g.coreOf site with
  | none => m
  | some k =>
    let c := m.core site
    if c.sp.landing.length ≥ 32 then m else
    match nextLand g k c with
    | some (l, j) => landStock r l j parity m
    | none =>
      match nextWindow g.decl c with
      | some (i, h, o, v) => m.setCore site (landWindow g.decl i h o v g.ticks c)
      | none => m

/-- One landing request served: a row written at once, its mark made, or a gated loose row discarded and counted (R261,
R281). -/
def serveLand (ctx : Ctx) (q : LandReq) (c : Core) : Eff :=
  let c := useLand c q.row
  if rowGated ctx.decl q.row then recGated c 15 ctx.view
  else
    let c := { c with sp := { c.sp with rows := c.sp.rows.set q.row q.val } }
    { core := match q.mark with
        | some k => markRow c k
        | none => c }

/-- The landing requests of a cycle: the oldest ones whose banks are free, never one past an older request to the same row
(R253, R254). The result lists those served and those left. -/
def serveAll (ctx : Ctx) : List LandReq → List LandReq → Eff → List LandReq → Eff × List LandReq × List LandReq
  | [], left, e, done => (e, left, done)
  | q :: t, left, e, done =>
    if landFree e.core q.row && !(left.any (fun x => x.row == q.row)) then serveAll ctx t left (e.bind (serveLand ctx q)) (done ++ [q])
    else serveAll ctx t (left ++ [q]) e done

/-- LANDING_PORT_SERVICE: up to three waiting requests served (R253 to R255); rows of transfers count toward their tokens. -/
def landingPortService (site : Nat) (m : Mod) : Mod :=
  let r := siteRegion site
  let g := m.region r
  match g.coreOf site with
  | none => m
  | some k =>
    let c := m.core site
    let (e, left, done) := serveAll (m.ctx r k 0 0) c.sp.landing [] { core := { c with sp := { c.sp with landing := [] } } } []
    let e := { e with core := { e.core with sp := { e.core.sp with landing := left } } }
    let m := m.applyEff site e
    sweepXfers r (onEng r (fun e => done.foldl (fun e q => match q.src with
      | some (d, x) => rowDone d x k 0 true e
      | none => e) e) m)

/-! ### Tokens (R308, R312, R313, R317) -/

/-- The first token ready: a descriptor and a core whose rows are all finished, where the core's buffer has room, or the
gang has ended and the token is discarded. -/
def nextToken (m : Mod) (r : Nat) : Option (DescJob × Nat) :=
  let g := m.region r
  g.eng.jobs.findSome? (fun j => (j.pending.find? (fun c =>
    Tab.get j.left c 0 == 0 && (!g.run.running || decide ((m.core (g.siteOf c)).ni.tokens.length < 64)))).map (fun c => (j, c)))

/-- TOKEN_PLACED: a descriptor's token placed in one core's buffer, or a kept SEND token; after the gang's end it is discarded
and counted (R312, R313, R317). -/
def tokenPlaced (r : Nat) (m : Mod) : Mod :=
  let g := m.region r
  match nextToken m r with
  | some (j, c) =>
    let t := mkToken (Tab.get j.rows c 0) (Tab.get j.status c 0) j.kind j.addr g.ticks j.key
    let m := if g.run.running then
        m.onCore (g.siteOf c) (fun x => { x with ni := { x.ni with tokens := x.ni.tokens ++ [t] } })
      else onEng r (onEngRec (fun k => { k with tokensDiscarded := bump32 k.tokensDiscarded 1 })) m
    let m := onEng r (fun e => e.onJob j.id (fun j => { j with pending := j.pending.erase c })) m
    let m := sweepXfers r m
    onEng r (fun e => { e with jobs := e.jobs.filter (fun j => !j.pending.isEmpty) }) m
  | none =>
    match g.site.find? (fun s => let n := (m.core s).ni; !n.tokWait.isEmpty && decide (n.tokens.length < 64)) with
    | some s => m.onCore s (fun c => { c with ni := { c.ni with tokens := c.ni.tokens ++ c.ni.tokWait.take 1, tokWait := c.ni.tokWait.drop 1 } })
    | none => m

/-! ### The commands -/

/-- DESCRIPTOR_TAKE. -/
def execDescriptorTake (r : Fin 25) (s : State) : Host.Outcome State Fault Refusal :=
  s.runIf (Instr.wf (.descriptorTake r)) (descriptorTake r)

/-- TRANSFER_ISSUE. -/
def execTransferIssue (r : Fin 25) (s : State) : Host.Outcome State Fault Refusal :=
  s.runIf (Instr.wf (.transferIssue r)) (transferIssue r)

/-- WHEEL_PERIOD. -/
def execWheelPeriod (iface : Fin 256) (s : State) : Host.Outcome State Fault Refusal :=
  s.runIf (Instr.wf (.wheelPeriod iface)) (wheelPeriod iface)

/-- CHUNK_ACCESS. -/
def execChunkAccess (iface : Fin 256) (retries : Fin 3) (fail : Bool) (s : State) : Host.Outcome State Fault Refusal :=
  s.runIf (Instr.wf (.chunkAccess iface retries fail)) (chunkAccess iface retries fail)

/-- PAGE_SERVICE. -/
def execPageService (session : W16) (page : BitVec 27) (s : State) : Host.Outcome State Fault Refusal :=
  s.runIf (Instr.wf (.pageService session page)) (pageService session.toNat page.toNat)

/-- LANDING_ROW. -/
def execLandingRow (site : Fin 25600) (parity : Bool) (s : State) : Host.Outcome State Fault Refusal :=
  s.runIf (Instr.wf (.landingRow site parity)) (landingRow site parity)

/-- LANDING_PORT_SERVICE. -/
def execLandingPortService (site : Fin 25600) (s : State) : Host.Outcome State Fault Refusal :=
  s.runIf (Instr.wf (.landingPortService site)) (landingPortService site)

/-- STORE_ROW_READ. -/
def execStoreRowRead (r : Fin 25) (err : SramErr) (s : State) : Host.Outcome State Fault Refusal :=
  s.runIf (Instr.wf (.storeRowRead r err)) (storeRowRead r err)

/-- TOKEN_PLACED. -/
def execTokenPlaced (r : Fin 25) (s : State) : Host.Outcome State Fault Refusal :=
  s.runIf (Instr.wf (.tokenPlaced r)) (tokenPlaced r)

end Sys2Proof.Machine
end

