-- ==== Sys2Proof/Machine/Network.lean ====
section
/-!
DEFINITION. Machine/Network.lean: messages through the mesh and the splines to the destination NI, and inbox rings
(spec/09_messages.md; spec/02_story_stick.md R60 to R64; spec/10_decler_links.md Table 10.1, R381, R382, R399;
spec/17_faults.md R614, R619, R620).
-/

namespace Sys2Proof.Machine

open Sys2Proof

/-! ### Directions between modules (R399) -/

/-- Dimension `ax` of a DIMS field (Table 10.7). -/
def dimOf (dims : W16) (ax : Nat) : Nat := sel dims (4 * ax + 3) (4 * ax) + 1

/-- Coordinate `ax` of a module index (R398). -/
def axisOf (i ax : Nat) : Nat := i / 16 ^ ax % 16

/-- The direction of one axis from coordinate `a` to `b`: none when they are equal, else whether it is positive (R399). -/
def axisDir (n a b : Nat) : Option Bool :=
  let d := (b + n - a % n) % n
  if d = 0 then none else some (decide (2 * d ≤ n))

/-- The direction D in which a message leaves the module with index `i` toward index `j` (R399, Table 10.1). -/
def routeDir (dims : W16) (i j : Nat) : Option Nat :=
  [0, 1, 2].findSome? (fun ax => (axisDir (dimOf dims ax) (axisOf i ax) (axisOf j ax)).map (fun p => 2 * ax + b2n (!p)))

/-- SCORE + DCORE + TAG modulo 4 (R382). -/
def hdrSpread (h : W128) : Nat := (hdrScore h + hdrDcore h + hdrTag h) % 4

/-- The first UP port of a direction in the order k, k + 1, k + 2, k + 3 modulo 4 (R403). -/
def Mod.upPort (m : Mod) (dir k : Nat) : Option Nat :=
  ((List.range 4).map (fun i => 4 * dir + (k + i) % 4)).find? (fun p => (m.port p).state == .up)

/-- The gateway router of a port's link (Table 10.1). -/
def gatewaySite (p j : Nat) : Nat :=
  let k := p % 4
  match p / 4 with
  | 0 => (40 * k + 16 + j) * 160 + 159
  | 1 => (40 * k + 16 + j) * 160
  | 2 => 159 * 160 + 40 * k + 14 + j
  | 3 => 40 * k + 14 + j
  | 4 => 40 * k + 22 + j
  | _ => 159 * 160 + 40 * k + 22 + j

/-- The router side on which a direction's gateways leave the plane (Table 10.1). -/
def gatewaySide (p : Nat) : Nat := [1, 0, 3, 2, 2, 3].getD (p / 4) 0

/-! ### Routes within the module (R330, R332, R619) -/

/-- The neighbour on a side: 0 west, 1 east, 2 north, 3 south. -/
def neighbour (s o : Nat) : Option Nat :=
  match o with
  | 0 => if s % 160 = 0 then none else some (s - 1)
  | 1 => if s % 160 = 159 then none else some (s + 1)
  | 2 => if s < 160 then none else some (s - 160)
  | 3 => if s / 160 = 159 then none else some (s + 160)
  | _ => none

/-- The opposite side. -/
def opposite (o : Nat) : Nat := [1, 0, 3, 2].getD o 4

/-- The output toward a destination: along the rail to its column, then along the stile, then local (R332). -/
def railOut (s d : Nat) : Nat :=
  if s % 160 < d % 160 then 1 else if d % 160 < s % 160 then 0 else if s < d then 3 else if d < s then 2 else 4

/-- The output a message takes at its destination router: its local port, or the gateway's outward port. -/
def lastOut (x : MeshMsg) : Nat := match x.egress with
  | some (p, _) => gatewaySide p
  | none => 4

/-- Whether a fully fenced router has bypass entries around it (R619, R620). -/
def Mesh.bypassed (n : Mesh) (s : Nat) : Bool := n.removing.contains s || n.removed.contains s

/-- Site `k` of the ring around a site, clockwise from west (R619). -/
def ringSite (f k : Nat) : Option Nat :=
  let (dx, dy) : Int × Int := [(-1, 0), (-1, -1), (0, -1), (1, -1), (1, 0), (1, 1), (0, 1), (-1, 1)].getD (k % 8) (0, 0)
  let x : Int := (f % 160 : Nat) + dx
  let y : Int := (f / 160 : Nat) + dy
  if 0 ≤ x ∧ x < 160 ∧ 0 ≤ y ∧ y < 160 then some (y.toNat * 160 + x.toNat) else none

/-- The ring sites one walks from the neighbour on side `a` to the neighbour on side `b`: the shorter way, clockwise when
equal, the other way when it leaves the plane (R619). -/
def bypassPath (f a b : Nat) : Option (List Nat) :=
  let pos (s : Nat) : Nat := [0, 4, 2, 6].getD s 0
  let n := (pos b + 8 - pos a) % 8
  let cw := (List.range n).map (fun i => ringSite f (pos a + i + 1))
  let ccw := (List.range ((8 - n) % 8)).map (fun i => ringSite f (pos a + 8 * 8 - i - 1))
  let walk (l : List (Option Nat)) : Option (List Nat) := if l.all (·.isSome) then some (l.filterMap id) else none
  if n ≤ 4 then (walk cw).orElse (fun _ => walk ccw) else (walk ccw).orElse (fun _ => walk cw)

/-- The side of `s` on which an adjacent site lies. -/
def sideTo (s t : Nat) : Nat := if t = s + 1 then 1 else if t + 1 = s then 0 else if s < t then 3 else 2

/-- A header's output at a router, with the bypass sites it then still has to walk; none when its way is lost, at a fenced
destination. -/
def headerOut (n : Mesh) (s : Nat) (x : MeshMsg) : Option (Nat × List Nat) :=
  match x.ring with
  | t :: rest => some (sideTo s t, rest)
  | [] =>
    let o := if s = x.dst then lastOut x else railOut s x.dst
    if s = x.dst then some (o, []) else
    match neighbour s o with
    | none => none
    | some t =>
      if n.bypassed t then
        if t = x.dst then none else
        match bypassPath t (opposite o) (railOut t x.dst) with
        | some (u :: rest) => some (sideTo s u, rest)
        | _ => none
      else some (o, [])

/-! ### Buffers and credits (R331, R333 to R335, R61) -/

def bufKey (s i c : Nat) : Nat := (s * 5 + i) * 4 + c
def linkKey (s o : Nat) : Nat := s * 5 + o

def Mesh.buf (n : Mesh) (s i c : Nat) : List Flit := Tab.get n.bufs (bufKey s i c) []

/-- A buffer written, an empty one unlisted. -/
def Mesh.setBuf (n : Mesh) (s i c : Nat) (l : List Flit) : Mesh :=
  { n with bufs := if l.isEmpty then Tab.erase n.bufs (bufKey s i c) else Tab.set n.bufs (bufKey s i c) l }

def Mesh.spline (n : Mesh) (s o : Nat) : List (Nat × Flit) := Tab.get n.splines (linkKey s o) []

def Mesh.setSpline (n : Mesh) (s o : Nat) (l : List (Nat × Flit)) : Mesh :=
  { n with splines := if l.isEmpty then Tab.erase n.splines (linkKey s o) else Tab.set n.splines (linkKey s o) l }

/-- A message gone from the mesh, with every flit of it and every link it owns. -/
def Mesh.drop (n : Mesh) (id : Nat) : Mesh :=
  { n with msgs := Tab.erase n.msgs id
           bufs := (n.bufs.map (fun b => (b.1, b.2.filter (fun f => f.msg != id)))).filter (fun b => !b.2.isEmpty)
           splines := (n.splines.map (fun b => (b.1, b.2.filter (fun f => f.2.msg != id)))).filter (fun b => !b.2.isEmpty)
           owner := n.owner.filter (fun o => o.2 != id) }

/-- The flits of a message of `k` rows: a header and eight for each row. -/
def flitsOf (id k : Nat) : List Flit := (List.range (1 + 8 * k)).map (fun i => { msg := id, idx := i, last := i == 8 * k })

/-- A message put into a router's input. -/
def Mesh.inject (n : Mesh) (s i : Nat) (x : MeshMsg) : Mesh :=
  let c := hdrVc x.hdr
  let n := { n with msgs := Tab.set n.msgs n.nextId x, nextId := n.nextId + 1 }
  n.setBuf s i c (n.buf s i c ++ flitsOf (n.nextId - 1) x.rows.length)

/-- Whether an NI takes a new message of a channel: none of that channel is still in its receive buffer (R335, R357). -/
def niFree (k : Core) (c : Nat) : Bool := !(k.ni.rx.any (fun x => hdrVc x.hdr == c))

/-- Whether a flit has a credit for its channel beyond an output (R335); a spline holds 16 flits and passes on no more than
the receiving router has credits for (R60, R61, R331). -/
def Mod.credit (m : Mod) (s o c : Nat) (f : Flit) : Bool :=
  if o = 4 then f.idx != 0 || niFree (m.core s) c else
  match neighbour s o with
  | none => true
  | some t =>
    let held := (m.mesh.buf t (opposite o) c).length
    if siteRegion s = siteRegion t then decide (held < 4)
    else
      let q := m.mesh.spline s o
      decide (q.length < 16) && decide (held + (q.filter (fun x => x.1 == c)).length < 4)

/-- The output a flit at the front of a buffer wants: a header by its route, a later flit where its header went. -/
def Mod.wants (m : Mod) (s : Nat) (f : Flit) : Option Nat :=
  match Tab.find m.mesh.msgs f.msg with
  | none => none
  | some x => if f.idx = 0 then (headerOut m.mesh s x).map (·.1) else Tab.find x.route s

/-- The flits ready for an output link, by input port and channel, in the priority of R334. -/
def Mod.readyFlits (m : Mod) (s o : Nat) : List (Nat × Nat × Flit) :=
  [0, 1, 2, 3, 4].flatMap (fun i => [3, 2, 1, 0].filterMap (fun c =>
    match m.mesh.buf s i c with
    | [] => none
    | f :: _ =>
      let mine := match Tab.find m.mesh.owner (bufKey s o c) with
        | none => f.idx == 0
        | some id => id == f.msg
      if mine && m.wants s f == some o && m.credit s o c f then some (i, c, f) else none))

/-! ### Arrival (R348 to R351) -/

/-- The gang a message from another module is for: the part and core it names in a placement with partners, else in any
placement; none when not placed here (Table 9.4; log entry 30). -/
def Mod.remoteTarget (m : Mod) (h : W128) : Option (Gang × Nat) :=
  let cand := m.placements.filter (fun p => !p.partners.isEmpty) ++ m.placements.filter (fun p => p.partners.isEmpty)
  cand.findSome? (fun p => match p.gangs.find? (fun g => g.part == hdrDpart h) with
    | some g => (g.sites[hdrDcore h]?).map (fun s => (g, s))
    | none => none)

/-- What an operation at a site's core sees outside any slot. -/
def Mod.portCtx (m : Mod) (s : Nat) : Ctx :=
  let r := siteRegion s
  m.ctx r (((m.region r).coreOf s).getD 0) (m.region r).seq.pos 0

/-- The outcome of an arrival as its header reaches the NI (Table 9.4), parity apart. -/
def arrivalDest (m : Mod) (s : Nat) (c : Core) (x : RxMsg) : RxDest :=
  let g := m.region (siteRegion s)
  let h := x.hdr
  let dowel := hdrKind h == 2
  if x.gang = 0 then .error 0xA
  else if !(g.run.running && g.run.gang == x.gang) then .stray 3
  else match g.decl.tags.find? (fun t => t.2.tag.toNat == hdrTag h) with
    | none => .stray 2
    | some (e, t) =>
      match t.kind with
      | 1 =>
        if dowel then .error 6 else
        match Tab.find c.ni.windows e with
        | none => .stray 1
        | some w => if hdrOfs h + x.rows.length > (Tab.get g.decl.drawers (sel t.targ0 5 0) {}).slotRows then .error 5 else .window w
      | 2 => if !dowel && decide (1 + x.rows.length > t.targ1.toNat) then .error 7 else .ring e
      | 3 => if !dowel || sel h 63 47 != 0 then .error 6 else .clamp (sel t.targ0 10 0)
      | _ => if dowel then .error 6 else .update e

/-- The messages of a receive buffer without one. -/
def rxDrop (c : Core) (id : Nat) : Core := { c with ni := { c.ni with rx := c.ni.rx.filter (fun x => x.msg != id) } }

/-- The job an update-unit message becomes (Table 9.1, R437). -/
def updJobOf (x : RxMsg) (e : Nat) : UpdJob :=
  { upd := false, entry := e, handle := 0, group := hdrGroup x.hdr, arg := hdrArg x.hdr, rows := x.rows, pos := 0 }

/-- Complete messages for the update unit handed to it, in order, while its input has room (R443). -/
def handUpdates (c : Core) : Core :=
  c.ni.rx.foldl (fun c x => match x.dest with
    | .update e =>
      if x.complete && decide (updInputRows c < 8) then
        let c := received (hdrVc x.hdr) (rxDrop c x.msg)
        { c with upd := { c.upd with jobs := c.upd.jobs ++ [updJobOf x e] } }
      else c
    | _ => c) c

/-- The rows of a complete message opened for passing on. -/
def openRx (x : RxMsg) (c : Core) : Core :=
  let open' (y : RxMsg) : RxMsg := if y.msg == x.msg then { y with got := x.rows.length } else y
  { c with ni := { c.ni with rx := c.ni.rx.map open' } }

/-- A message whose decision is made and whose last flit has come: counted, discarded or delivered (R349, R351). A parity
error takes its place among the conditions of Table 9.4. -/
def settleRx (ctx : Ctx) (x : RxMsg) (c : Core) : Eff :=
  let d : RxDest := match x.dest with
    | .stray 3 => .stray 3
    | .error 0xA => .error 0xA
    | d => if x.parity then .error 8 else d
  match d with
  | .undecided => { core := c }
  | .stray r => recStray (rxDrop c x.msg) x r
  | .error k =>
    let c := rxDrop c x.msg
    let c := if k = 8 then { c with ni := { c.ni with cnt := { c.ni.cnt with parityErrors := bump32 c.ni.cnt.parityErrors 1 } } } else c
    recMsgErr c ctx k 1 ctx.view
  | .clamp w =>
    clampAdd ctx w (sel x.hdr 46 0 : Nat) 2 x.remote (hdrSpart x.hdr) (hdrScore x.hdr) (received (hdrVc x.hdr) (rxDrop c x.msg))
  | .window _ =>
    if x.rows.isEmpty then { core := received (hdrVc x.hdr) (rxDrop c x.msg) } else
    { core := openRx x c }
  | .ring _ => { core := openRx x c }
  | .update _ => { core := handUpdates c }

/-- MESSAGE_ARRIVAL: the oldest header at the NI with no decision gets one; a message wholly there is settled at once
(R348 to R351). -/
def messageArrival (s : Nat) (m : Mod) : Mod :=
  let c := m.core s
  match c.ni.rx.find? (fun x => x.dest == .undecided) with
  | none => m
  | some x =>
    let y := { x with dest := arrivalDest m s c x }
    let c := { c with ni := { c.ni with rx := c.ni.rx.map (fun z => if z.msg == x.msg then y else z) } }
    if y.complete then m.applyEff s (settleRx (m.portCtx s) y c) else m.setCore s c

/-- A flit handed to the NI by the router's local port. -/
def niFlit (s : Nat) (f : Flit) (x : MeshMsg) (m : Mod) : Mod :=
  let g := m.region (siteRegion s)
  let m := if f.idx = 0 then
      m.onCore s (fun c => { c with ni := { c.ni with rx := c.ni.rx ++ [{ msg := f.msg, gang := x.dgang, hdr := x.hdr, rows := x.rows
                                                                          remote := x.remote, arrival := BitVec.ofNat 64 g.ticks }] } })
    else m
  let m := m.onCore s (fun c => { c with ni := { c.ni with rx := c.ni.rx.map (fun y =>
    if y.msg == f.msg then { y with parity := y.parity || f.bad, complete := f.last } else y) } })
  if !f.last then m else
  let m := { m with mesh := m.mesh.drop f.msg }
  match (m.core s).ni.rx.find? (fun y => y.msg == f.msg) with
  | some y => m.applyEff s (settleRx (m.portCtx s) y (m.core s))
  | none => m

/-! ### Moving flits (R333, R334, R614) -/

/-- A flit failing parity at a router's input counted (R614). -/
def parityAt (t i : Nat) (f : Flit) (n : Mesh) : Mesh :=
  if f.bad then { n with parity := Tab.upd n.parity (t * 4 + i) 0 (fun k => (k + 1) % 2 ^ 32)
                         parityMark := Tab.upd n.parityMark (t * 4 + i) 0 (· + 1) } else n

/-- A header's choice recorded and its link taken; the link freed by a message's last flit (R333). -/
def takeLink (s o c : Nat) (f : Flit) (n : Mesh) : Mesh :=
  let n := if f.idx ≠ 0 then n else
    match Tab.find n.msgs f.msg with
    | none => n
    | some x =>
      let rest := match headerOut n s x with
        | some y => y.2
        | none => []
      { n with msgs := Tab.set n.msgs f.msg { x with route := Tab.set x.route s o, ring := rest }
               owner := Tab.set n.owner (bufKey s o c) f.msg }
  if f.last then { n with owner := Tab.erase n.owner (bufKey s o c) } else n

/-- A flit that has left the NI; with the last one the message's entry in the transmit list frees (R342). -/
def leftNi (last : Bool) (c : Core) : Core :=
  { c with ni := { c.ni with moved := true, tx := if last then c.ni.tx.drop 1 else c.ni.tx } }

/-- A flit out of a router's buffer and over an output link. -/
def sendFlit (s o i c : Nat) (f : Flit) (parity : Bool) (m : Mod) : Mod :=
  let m := if i = 4 then m.onCore s (leftNi f.last) else m
  let n := m.mesh.setBuf s i c ((m.mesh.buf s i c).drop 1)
  let n := takeLink s o c f n
  let f := { f with bad := f.bad || parity }
  let m := { m with mesh := n }
  match Tab.find n.msgs f.msg with
  | none => m
  | some x =>
    if o = 4 then niFlit s f x m
    else match neighbour s o with
      | none =>
        if f.last then match x.egress with
          | some (p, j) =>
            let n := n.drop f.msg
            { m with mesh := { n with gateways := Tab.upd n.gateways (p * 4 + j) [] (· ++ [x]) } }
          | none => m
        else m
      | some t =>
        if siteRegion s = siteRegion t then
          { m with mesh := parityAt t (opposite o) f (n.setBuf t (opposite o) c (n.buf t (opposite o) c ++ [f])) }
        else { m with mesh := n.setSpline s o (n.spline s o ++ [(c, f)]) }

/-- Each flit that loses a link's cycle counted at its router (R334). -/
def recCollision (c : Nat) (k : Core) : Core :=
  { k with ni := { k.ni with cnt := { k.ni.cnt with
      collisions := k.ni.cnt.collisions.set! c (bump32 (k.ni.cnt.collisions[c]?.getD 0) 1) } } }

/-- Headers at the front of a router's buffers whose way is lost leave the mesh: their messages never arrive. -/
def dropLost (s : Nat) (m : Mod) : Mod :=
  [0, 1, 2, 3, 4].foldl (fun m i => [0, 1, 2, 3].foldl (fun m c =>
    match m.mesh.buf s i c with
    | f :: _ => if f.idx == 0 && m.wants s f == none then { m with mesh := m.mesh.drop f.msg } else m
    | [] => m) m) m

/-- FLIT_HOP: one output link of a router takes one flit (R332 to R335). -/
def flitHop (s o : Nat) (parity : Bool) (m : Mod) : Mod :=
  if !(m.region (siteRegion s)).clocked || m.mesh.removed.contains s then m else
  let m := dropLost s m
  match m.readyFlits s o with
  | [] => m
  | (i, c, f) :: lost => sendFlit s o i c f parity (lost.foldl (fun m x => m.onCore s (recCollision x.2.1)) m)

/-- SPLINE_CROSS: the oldest flit of a spline reaches the receiving router (R60, R62). -/
def splineCross (s o : Nat) (m : Mod) : Mod :=
  match neighbour s o, m.mesh.spline s o with
  | some t, (c, f) :: rest =>
    if !(m.region (siteRegion t)).clocked || decide (4 ≤ (m.mesh.buf t (opposite o) c).length) then m
    else
      let n := m.mesh.setSpline s o rest
      { m with mesh := parityAt t (opposite o) f (n.setBuf t (opposite o) c (n.buf t (opposite o) c ++ [f])) }
  | _, _ => m

/-! ### Sending (R338, R341 to R343, R381, R382) -/

/-- Where a message goes: its destination site, its way out of the plane, and the gang it is for. -/
def Mod.target (m : Mod) (gang : Nat) (h : W128) : Option (Nat × Option (Nat × Nat) × Nat) :=
  if hdrRemote h then
    match routeDir m.topo.dims (coordIndex m.topo.coord) (hdrDmod h) with
    | none => none
    | some d =>
      let p := (m.upPort d (hdrSpread h)).getD (4 * d + hdrSpread h)
      some (gatewaySite p (hdrScore h % 4), some (p, hdrScore h % 4), 0)
  else
    match m.placementOf gang with
    | none => none
    | some p => match p.gangs.find? (fun g => g.part == hdrDpart h) with
      | none => none
      | some g => (g.sites[hdrDcore h]?).map (fun s => (s, none, g.id))

/-- The rows of a slot payload as they lie now, read without guards through the landing port (R338). -/
def payloadRows (decl : PartDecl) (c : Core) (h : W32) (k : Nat) : List Row :=
  match handleDecl decl h with
  | none => []
  | some d => (List.range k).map (fun i => c.sp.rows.get ((d.base + hSlot h * d.slotRows + i) % 16384))

/-- The first row of a slot, for the record of an uncorrectable error. -/
def slotBase (decl : PartDecl) (h : W32) : Nat :=
  match handleDecl decl h with
  | none => 0
  | some d => (d.base + hSlot h * d.slotRows) % 16384

/-- Landing-port accesses made outside the landing buffer counted (Table 7.3; log entry 31). -/
def countLand (k : Nat) (c : Core) : Core :=
  { c with sp := { c.sp with cnt := { c.sp.cnt with landingRows := bump48 c.sp.cnt.landingRows k } } }

/-- MESSAGE_TRANSMIT: the oldest message of a transmit list enters the router's local port, its slot rows read and its token
placed. It keeps its entry until its last flit has left, and the next one waits for that; an entry whose flits were lost in the mesh frees
(R338, R341 to R343; log entry 29). -/
def messageTransmit (s : Nat) (err : SramErr) (m : Mod) : Mod :=
  let r := siteRegion s
  let g := m.region r
  let c := m.core s
  match c.ni.tx with
  | [] => m
  | t :: rest =>
    let ch := hdrVc t.hdr
    if !g.clocked || (if t.leaving then !(m.mesh.buf s 4 ch).isEmpty else decide (g.cycle < t.due)) then m
    else if t.leaving then m.onCore s (fun c => { c with ni := { c.ni with tx := rest } })
    else
      let ctx := m.portCtx s
      let c := { c with ni := { c.ni with tx := { t with leaving := true } :: rest } }
      let e : Eff := match t.handle with
        | some h => recSram (countLand (hdrLen t.hdr) c) ctx 0 (slotBase g.decl h) err
        | none => { core := c }
      if e.sramStop then m.applyEff s e else
      let rows : List Row := match t.row, t.handle with
        | some v, _ => [v]
        | none, some h => payloadRows g.decl c h (hdrLen t.hdr)
        | none, none => t.rows
      let c := e.core
      let c := match t.handle with
        | some h => placeToken c (mkToken rows.length 0 3 t.addr g.ticks h)
        | none => c
      let c := { c with ni := { c.ni with cnt := { c.ni.cnt with
        sent := c.ni.cnt.sent.set! ch (bump32 (c.ni.cnt.sent[ch]?.getD 0) 1) } } }
      let m := m.setCore s c
      match m.target g.run.gang t.hdr with
      | none => m.onCore s (fun c => { c with ni := { c.ni with tx := rest } })
      | some (dst, egress, dgang) =>
        { m with mesh := m.mesh.inject s 4 { hdr := t.hdr, rows := rows, dst := dst, egress := egress, gang := g.run.gang, dgang := dgang } }

/-! ### Inbox rings (R356 to R360) -/

/-- The record row of a message (Table 9.5). -/
def recordRow (h : W128) (arrival : W64) : Row := BitVec.ofNat 4096 (h.toNat + (arrival.toNat <<< 128))

/-- A wrap marker: KIND 7, the other bits of its header and its ARRIVAL not stated, the rest zero (Table 9.5; log
entry 9). -/
def wrapRow (n : Nat) : Row :=
  put (BitVec.ofNat 4096 ((Config.undefined 4096 n 0).toNat % 2 ^ 192)) 127 125 7

/-- The base row and length of an inbox ring (Table 9.3). -/
def ringBase (t : TagDecl) : Nat := sel t.targ0 13 0
def ringRows (t : TagDecl) : Nat := sel t.targ1 12 0

/-- Where a message of `n` rows goes in a ring: its place and whether a wrap marker comes first; none while it waits
(R357). -/
def ringPlaceAt (q : Ring) (rows n : Nat) : Option (Nat × Bool) :=
  if q.r < q.w ∨ q.m = 0 then
    if q.w + n ≤ rows then some (q.w, false) else if n ≤ q.r then some (0, true) else none
  else if q.w + n ≤ q.r then some (q.w, false) else none

/-- RING_PLACE: the oldest complete message for a ring placed when room allows (R357). -/
def ringPlace (s : Nat) (m : Mod) : Mod :=
  let g := m.region (siteRegion s)
  let c := m.core s
  match c.ni.rx.findSome? (fun x => match x.dest with
    | .ring e => if x.complete then some (x, e) else none
    | _ => none) with
  | none => m
  | some (x, e) =>
    match Tab.find g.decl.tags e with
    | none => m
    | some t =>
      let q := Tab.get c.ni.rings e {}
      let n := 1 + x.rows.length
      match ringPlaceAt q (ringRows t) n with
      | none => m
      | some (p, wrap) =>
        let b := ringBase t
        let rows := if wrap then c.sp.rows.set ((b + q.w) % 16384) (wrapRow m.freeCtr) else c.sp.rows
        let rows := (recordRow x.hdr x.arrival :: x.rows).zipIdx.foldl (fun k v => k.set ((b + p + v.2) % 16384) v.1) rows
        let w := if p + n = ringRows t then 0 else p + n
        let c := received (hdrVc x.hdr) (rxDrop (countLand (n + b2n wrap) c) x.msg)
        let c := { c with sp := { c.sp with rows := rows }, ni := { c.ni with rings := Tab.set c.ni.rings e { w := w, r := q.r, m := q.m + 1 } } }
        { m.setCore s c with freeCtr := m.freeCtr + b2n wrap }

/-- A ring moved past its oldest message of `n` rows (R359). -/
def ringAdvance (q : Ring) (rows n : Nat) : Ring :=
  if q.m ≤ 1 then { w := 0, r := 0, m := 0 } else { w := q.w, r := (q.r + n) % rows, m := q.m - 1 }

/-- The ring with its read offset past a wrap marker (R359). -/
def ringUnwrap (q : Ring) (base : Nat) (c : Core) : Ring :=
  if q.m > 0 ∧ hdrKind ((c.sp.rows.get ((base + q.r) % 16384)).setWidth 128) = 7 then { q with r := 0 } else q

/-- A RECV request's step: the header pushed, or the next payload row, and the request freed with its last push (R358 to
R360). A full queue makes the NI wait (R83). -/
def recvService (s : Nat) (err : SramErr) (m : Mod) : Mod :=
  let g := m.region (siteRegion s)
  let c := m.core s
  match c.ni.recvs with
  | [] => m
  | q :: rest =>
    match Tab.find g.decl.tags q.entry with
    | none => m
    | some t =>
      let k := ringUnwrap (Tab.get c.ni.rings q.entry {}) (ringBase t) c
      if !g.run.running || k.m = 0 then m else
      let c := { c with ni := { c.ni with rings := Tab.set c.ni.rings q.entry k } }
      let at' (i : Nat) : Nat := (ringBase t + k.r + i) % 16384
      let h : W128 := (c.sp.rows.get (at' 0)).setWidth 128
      let n := if hdrKind h = 2 then 0 else hdrLen h
      let head := q.hen && !q.begun
      let row := if head then at' 0 else at' (1 + q.sent)
      let dst := if head then 24 + q.nq else q.rq
      let nothing := !head && n = 0
      if !nothing && !hasSpace c dst [] then m else
      let e := recSram (countLand 1 c) (m.portCtx s) 0 row err
      if e.sramStop then m.applyEff s e else
      let c := e.core
      let c := if nothing then c
        else if head then c.pushExt dst g.cycle (h.setWidth 8192)
        else c.pushExt dst g.cycle ((c.sp.rows.get row).setWidth 8192)
      let sent := if head || nothing then q.sent else q.sent + 1
      if sent ≥ n then
        m.setCore s { c with ni := { c.ni with recvs := rest, rings := Tab.set c.ni.rings q.entry (ringAdvance k (ringRows t) (1 + n)) } }
      else m.setCore s { c with ni := { c.ni with recvs := { q with begun := true, sent := sent } :: rest } }

/-! ### The commands -/

/-- MESSAGE_TRANSMIT. -/
def execMessageTransmit (site : Fin 25600) (err : SramErr) (s : State) : Host.Outcome State Fault Refusal :=
  s.runIf (Instr.wf (.messageTransmit site err)) (messageTransmit site err)

/-- FLIT_HOP. -/
def execFlitHop (site : Fin 25600) (out : Fin 5) (parity : Bool) (s : State) : Host.Outcome State Fault Refusal :=
  s.runIf (Instr.wf (.flitHop site out parity)) (flitHop site out parity)

/-- SPLINE_CROSS. -/
def execSplineCross (site : Fin 25600) (out : Fin 5) (s : State) : Host.Outcome State Fault Refusal :=
  s.runIf (Instr.wf (.splineCross site out)) (splineCross site out)

/-- MESSAGE_ARRIVAL. -/
def execMessageArrival (site : Fin 25600) (s : State) : Host.Outcome State Fault Refusal :=
  s.runIf (Instr.wf (.messageArrival site)) (messageArrival site)

/-- RING_PLACE. -/
def execRingPlace (site : Fin 25600) (s : State) : Host.Outcome State Fault Refusal :=
  s.runIf (Instr.wf (.ringPlace site)) (ringPlace site)

/-- RECV_SERVICE. -/
def execRecvService (site : Fin 25600) (err : SramErr) (s : State) : Host.Outcome State Fault Refusal :=
  s.runIf (Instr.wf (.recvService site err)) (recvService site err)

end Sys2Proof.Machine
end

