-- ==== Sys2Proof/Machine/Links.lean ====
section
/-!
DEFINITION. Machine/Links.lean: the Decler ports, the port switch, discovery, identity challenges, failover and alignment
(spec/10_decler_links.md).
-/

namespace Sys2Proof.Machine

open Sys2Proof

/-! ### Reachability (R399, R405, R415) -/

/-- The index of this module (R398). -/
def Mod.selfIndex (m : Mod) : Nat := coordIndex m.topo.coord

/-- The UP ports of this module (R416). -/
def Mod.upMask (m : Mod) : BitVec 24 :=
  BitVec.ofNat 24 ((List.range 24).foldl (fun a p => a + (if (m.port p).state = .up then 2 ^ p else 0)) 0)

/-- The UP ports known of a module; none of one never heard of (log entry 34). -/
def Mod.linksOf (m : Mod) (i : Nat) : BitVec 24 := if i = m.selfIndex then m.upMask else Tab.get m.topo.links i 0

/-- The neighbour of a module in a direction (Table 10.1). -/
def stepModule (dims : W16) (i d : Nat) : Nat :=
  let ax := d / 2
  let n := dimOf dims ax
  let a := axisOf i ax
  i - a * 16 ^ ax + (if d % 2 = 0 then (a + 1) % n else (a + n - 1) % n) * 16 ^ ax

/-- Where `k` hops in one direction lead, if every one has an UP port. -/
def walkDir (m : Mod) (d : Nat) : Nat → Nat → Option Nat
  | 0, i => some i
  | k + 1, i => if sel (m.linksOf i) (4 * d + 3) (4 * d) ≠ 0 then walkDir m d k (stepModule m.topo.dims i d) else none

/-- One axis crossed by the path of R399, or in throughput mode by its detour (R405). -/
def walkAxis (m : Mod) (ax i j : Nat) : Option Nat :=
  let n := dimOf m.topo.dims ax
  let a := axisOf i ax
  let b := axisOf j ax
  match axisDir n a b with
  | none => some i
  | some p =>
    let up := (b + n - a % n) % n
    let go (p : Bool) : Option Nat := walkDir m (2 * ax + b2n (!p)) (if p then up else n - up) i
    if m.topo.repro then go p else (go p).orElse (fun _ => go (!p))

/-- Whether a module is reachable (R415). -/
def reachable (m : Mod) (j : Nat) : Bool :=
  j != m.selfIndex &&
    (((walkAxis m 0 m.selfIndex j).bind (fun i => walkAxis m 1 i j)).bind (fun i => walkAxis m 2 i j)).isSome

/-- Every module index of the partition (R398). -/
def Mod.partitionModules (m : Mod) : List Nat :=
  let d := m.topo.dims
  (List.range (dimOf d 2)).flatMap (fun z => (List.range (dimOf d 1)).flatMap (fun y =>
    (List.range (dimOf d 0)).map (fun x => x + 16 * y + 256 * z)))

/-! ### The topology table (Table 10.9) -/

def portBytes (p : Port) : List Byte :=
  [BitVec.ofNat 8 (p.state.code + 16 * (if p.state = .isolated then p.reason else 0)),
   BitVec.ofNat 8 (64 * p.verif + 32 * b2n p.aligned + 16 * b2n p.mismatch + 8 * b2n p.failover), BitVec.ofNat 8 p.nport, 0] ++
    bytesOf p.ncoord 2 ++ zeros 2 ++ bytesOf p.nserial 8 ++ bytesOf p.npartition 8 ++ bytesOf p.changeStick 8

def Mod.allAligned (m : Mod) : Bool :=
  let up := (List.range 24).filter (fun p => (m.port p).state == .up)
  !up.isEmpty && up.all (fun p => (m.port p).aligned)

def topoFlags (m : Mod) : Nat :=
  8 * b2n m.allAligned + 4 * b2n m.topo.requireVerified + 2 * b2n m.topo.repro + b2n (m.topo.partition != 0)

/-- REACH as 512 bytes: module index i in byte i div 8, bit i mod 8. -/
def reachBytes (reach : List Nat) : List Byte := le 512 (reach.foldl (fun a i => a + 2 ^ i) 0)

/-- The topology table, 1,536 bytes. -/
def topoBytes (m : Mod) : List Byte :=
  (List.range 24).flatMap (fun p => portBytes (m.port p)) ++ bytesOf m.topo.coord 2 ++ bytesOf m.topo.dims 2 ++
    le 4 (topoFlags m) ++ bytesOf m.topo.partition 8 ++ bytesOf m.topo.gen 4 ++ zeros 0xEC ++ reachBytes m.topo.reach

/-! ### Lost partners (R426) -/

/-- The gangs of a placement with an unreachable partner ended with PARTNER_LOST (R426). -/
def losePartners (lost : List Nat) (m : Mod) : Mod :=
  let m := (m.placements.filter (fun p => p.partners.any lost.contains)).foldl (fun m p => stopPlacement 5 p.g0 m) m
  lost.foldl (fun m i => abandonWords (ownedModule i) m) m

/-- Whether the port switch carries message traffic: not before FULL nor in SAFE_HOLD (R553, R559, R607). -/
def Mod.traffic (m : Mod) : Bool := m.bringup.link && (m.aon.state == .full || m.aon.state == .standby)

/-- The table brought up to date after a change: REACH found afresh, partners lost, TOPO_GEN raised when anything changed
(R414, R415, R426). `old` is the module before the change. -/
def touchTopo (old : Mod) (m : Mod) : Mod :=
  let reach := if m.traffic then m.partitionModules.filter (reachable m) else []
  let lost := old.topo.reach.filter (fun i => !reach.contains i)
  let m := { m with topo := { m.topo with reach := reach } }
  let m := if topoBytes m = topoBytes old then m else { m with topo := { m.topo with gen := old.topo.gen + 1 } }
  if lost.isEmpty then m else losePartners lost m

/-! ### Flits (Table 10.2, Table 10.3) -/

/-- One flit with its CRC. -/
def mkFlit (ftype seq ack lch : Nat) (som eom abort : Bool) (body : List Byte) : List Byte :=
  let h := (ftype <<< 60) + (seq <<< 48) + (ack <<< 36) + (1 <<< 35) + (lch <<< 32) + (b2n som <<< 31) + (b2n eom <<< 30) +
    (b2n abort <<< 29) + (body.length <<< 21)
  let bs := le 8 h ++ body ++ zeros (244 - body.length)
  bs ++ bytesOf (crc32 bs) 4

/-- The header of a flit. -/
def flitHdr (f : List Byte) : W64 := wordOf 64 (f.take 8)

/-- A replayed flit: REPLAY set and RPORT naming the failed port, its CRC formed afresh (R423). -/
def replayFlit (port : Nat) (f : List Byte) : List Byte :=
  let bs := bytesOf (put (put (flitHdr f) 20 20 1) 19 15 port) 8 ++ (f.drop 8).take 244
  bs ++ bytesOf (crc32 bs) 4

/-- A sequenced flit sent: numbered and kept until acknowledged (R388). -/
def Port.sendSeq (x : Port) (ftype lch : Nat) (som eom abort : Bool) (body : List Byte) : Port :=
  { x with retryBuf := x.retryBuf ++ [mkFlit ftype x.txSeq x.rxSeq lch som eom abort body]
           txSeq := (x.txSeq + 1) % 4096
           cnt := { x.cnt with flitsTx := bump48 x.cnt.flitsTx 1
                               bytesTx := if ftype = 1 then bump48 x.cnt.bytesTx body.length else x.cnt.bytesTx } }

/-- A flit without a sequence number sent. -/
def Port.sendPlain (x : Port) : Port := { x with cnt := { x.cnt with flitsTx := bump48 x.cnt.flitsTx 1 } }

/-- A message's bytes cut into flit bodies of 244 (R393). -/
def bodies : Nat → List Byte → List (List Byte)
  | 0, _ => []
  | n + 1, bs => if bs.length ≤ 244 then [bs] else bs.take 244 :: bodies n (bs.drop 244)

/-- A message sent on a link channel (R393); ABORT on the last flit of one cut short (R396). -/
def Port.sendMsg (x : Port) (lch : Nat) (abort : Bool) (bs : List Byte) : Port :=
  let l := bodies (bs.length + 1) bs
  let x := l.zipIdx.foldl (fun x b =>
    let last := b.2 + 1 == l.length
    x.sendSeq 1 lch (b.2 == 0) (last && !abort) (last && abort) b.1) x
  { x with credits := Tab.upd x.credits lch 0 (· + l.length) }

/-- The bytes of a message on a link: 16 header bytes and its rows (R393). -/
def msgBytes (x : MeshMsg) : List Byte := bytesOf x.hdr 16 ++ x.rows.flatMap (fun r => bytesOf r 512)

/-! ### Hello (Table 10.7, Table 10.8) -/

/-- This module's hello record on a port. -/
def helloRecord (m : Mod) (p : Nat) : List Byte :=
  let cert := !m.ident.cert.isEmpty
  le 4 0x4F4C4844 ++ le 2 1 ++ [BitVec.ofNat 8 p,
    BitVec.ofNat 8 (8 * b2n (m.aon.state == .safeHold) + 4 * b2n cert + 2 * b2n (m.topo.partition != 0) + b2n m.topo.repro)] ++
    bytesOf m.desc.serial 8 ++ bytesOf m.topo.partition 8 ++ bytesOf m.topo.coord 2 ++ bytesOf m.topo.dims 2 ++ zeros 36 ++
    (if cert then sha512 m.ident.cert else zeros 64)

/-- Whether a port carries hello records and notices (Table 10.6). -/
def PortState.talks : PortState → Bool
  | .hello => true
  | .up => true
  | .isolated => true
  | _ => false

/-- HELLO_SEND: the hello record sent (R407). -/
def helloSend (p : Nat) (m : Mod) : Mod :=
  let x := m.port p
  if x.state.talks && decide (x.retryBuf.length < 1024) then m.onPort p (fun x => x.sendSeq 2 0 false false false (helloRecord m p))
  else m

/-- The first check of Table 10.8 that a hello record fails, 0 when it passes. -/
def helloReason (m : Mod) (p : Nat) (verif : Nat) (h : List Byte) : Nat :=
  let serial := fld h 8 8
  let d := p / 4
  let coord := fld h 0x18 2
  let want := stepModule m.topo.dims m.selfIndex d
  if serial = m.desc.serial.toNat ∧ serial ≠ 0 then 1
  else if m.topo.partition = 0 ∨ fld h 7 1 / 2 % 2 = 0 ∨ fld h 0x10 8 ≠ m.topo.partition.toNat then 2
  else if fld h 6 1 ≠ 4 * (d / 2 * 2 + 1 - d % 2) + p % 4 ∨ coordIndex (BitVec.ofNat 16 coord) ≠ want ∨ fld h 0x1A 2 ≠ m.topo.dims.toNat then 3
  else if m.topo.requireVerified ∧ verif ≠ 2 then 4
  else 0

/-! ### Port state changes (R409, R414, R416) -/

/-- Another UP port of the same direction to the same neighbour, the lowest-numbered (R423). -/
def Mod.sisterPort (m : Mod) (p : Nat) : Option Nat :=
  ((List.range 4).map (fun i => 4 * (p / 4) + i)).find? (fun q =>
    q != p && (m.port q).state == .up && (m.port q).nserial == (m.port p).nserial)

/-- A port's state set, with the stick of the change, and the link-state notice flooded (R416). -/
def setPortState (p : Nat) (st : PortState) (reason : Nat) (m : Mod) : Mod :=
  if (m.port p).state = st ∧ (m.port p).reason = reason then m else
  let m := m.onPort p (fun x => { x with state := st, reason := reason, changeStick := m.aon.stick })
  let t := put m.desc.portsTrained p p (b2n (st.talks || st == .quiet))
  let m := if t = m.desc.portsTrained then m else { m with desc := { m.desc with portsTrained := t, gen := m.desc.gen + 1 } }
  floodNotice (.linkState (Fin.ofNat 4096 m.selfIndex) m.upMask) none m

/-- A failed port's traffic taken over by another: its unacknowledged flits replayed there (R423, R424). -/
def failoverTo (p q : Nat) (m : Mod) : Mod :=
  let b := (m.port p).retryBuf.map (replayFlit p)
  let m := m.onPort p (fun x => { x with failover := true, retryBuf := [], cnt := { x.cnt with failovers := bump32 x.cnt.failovers 1 } })
  let m := m.onPort q (fun x => { x with resend := b, cnt := { x.cnt with flitsTx := bump48 x.cnt.flitsTx b.length } })
  allRegions.foldl (fun m r => m.voidTicks r) m

/-- A port leaves UP for a state: counted, PEER_DOWN raised, its traffic failed over or cut short (R396, R409, R423). -/
def leaveUp (p : Nat) (st : PortState) (reason : Nat) (m : Mod) : Mod :=
  let old := m
  let sis := m.sisterPort p
  let m := m.onPort p (fun x => { x with cnt := { x.cnt with linkDowns := bump32 x.cnt.linkDowns 1 }, aligned := false, alignRun := 0, theta := none })
  let m := setPortState p st reason m
  let m := match sis with
    | some q => failoverTo p q m
    | none => m.onPort p (fun x => { x with
        retryBuf := [], ingress := x.ingress.map (fun i => if i.done then i else { i with done := true, abort := true }) })
  let m := raiseEvent 0x0B p 1 0 0 (m.port p).nserial.toNat (if sis.isNone then 2 else 0) m
  touchTopo old m

/-- A port's state changed, leaving UP where it was UP. -/
def movePort (p : Nat) (st : PortState) (reason : Nat) (m : Mod) : Mod :=
  if (m.port p).state = .up ∧ st ≠ .up then leaveUp p st reason m
  else
    let entering : Bool := (m.port p).state ≠ .up ∧ st = .up
    let m' := setPortState p st reason m
    let m' := if entering then
        let m' := { m'.onPort p (fun x => { x with failover := false }) with
          bringup := { m'.bringup with settled := m'.bringup.settled ||| BitVec.ofNat 24 (2 ^ p) } }
        raiseEvent 0x0A p 1 0 0 (m'.port p).nserial.toNat 0 m'
      else m'
    touchTopo m m'

/-- The checks of Table 10.8 on the last hello of a port, and the state they give (R408, R425). -/
def judgeHello (p : Nat) (m : Mod) : Mod :=
  let x := m.port p
  if x.nquiet then movePort p .quiet 0 m else
  match helloReason m p x.verif x.nhello with
  | 0 => movePort p .up 0 m
  | k => movePort p .isolated k m

/-- HELLO_RECEIVED: the neighbour's record kept and checked (R406, R408). -/
def helloReceived (p : Nat) (h : List Byte) (m : Mod) : Mod :=
  let st := (m.port p).state
  if m.aon.state = .safeHold ∨ !(st.talks || st == .quiet) then m else
  if fld h 0 4 ≠ 0x4F4C4844 ∨ fld h 4 2 ≠ 1 then m else
  let other : Bool := decide (fld h 7 1 % 2 = 1) != m.topo.repro
  let m' := m.onPort p (fun x =>
    let same : Bool := x.nserial.toNat == fld h 8 8 && x.ndigest == slice h 0x40 64
    { x with nport := fld h 6 1, ncoord := BitVec.ofNat 16 (fld h 0x18 2), nserial := BitVec.ofNat 64 (fld h 8 8)
             npartition := BitVec.ofNat 64 (fld h 0x10 8), ndigest := slice h 0x40 64, nhello := h
             nquiet := decide (fld h 7 1 / 8 % 2 = 1), verif := if same then x.verif else 0, mismatch := other
             cnt := { x.cnt with modeMismatches := bump32 x.cnt.modeMismatches (b2n other) } })
  judgeHello p (touchTopo m m')

/-- PORT_TRAINED: training complete, the port enters HELLO and sends its hello record (R385, R407). -/
def portTrained (p : Nat) (m : Mod) : Mod :=
  let st := (m.port p).state
  if !m.bringup.link ∨ m.aon.state = .safeHold ∨ ¬(st = .training ∨ st = .down) then m else
  let m := m.onPort p (fun x => { x with txSeq := 0, rxSeq := 0, retryBuf := [], resend := [], ingress := [], credits := [] })
  helloSend p (movePort p .hello 0 m)

/-- PORT_TRAINING_TIMEOUT: a port still in training goes to DOWN, from where it retries (R545). -/
def portTrainingTimeout (p : Nat) (m : Mod) : Mod :=
  if m.bringup.link ∧ (m.port p).state = .training then
    let m := { m with bringup := { m.bringup with settled := m.bringup.settled ||| BitVec.ofNat 24 (2 ^ p) } }
    movePort p .down 0 m
  else m

/-- PORT_DOWN: the port leaves UP and trains again (R392). -/
def portDown (p : Nat) (m : Mod) : Mod := if (m.port p).state = .up then movePort p .training 0 m else m

/-! ### Receiving (R389, R390, R393 to R396, R423) -/

/-- Flits that an ACK passes freed (R388). -/
def Port.acked (x : Port) (ack : Nat) : Port :=
  let first := (x.txSeq + 4096 - x.retryBuf.length % 4096) % 4096
  let k := (ack + 4096 - first) % 4096
  if k ≤ x.retryBuf.length then { x with retryBuf := x.retryBuf.drop k } else x

/-- A DATA body added to the message its link channel carries (R393, R394). -/
def addBody (l : List Ingress) (lch : Nat) (som eom abort : Bool) (body : List Byte) : List Ingress :=
  if som then l ++ [{ lch := lch, bytes := body, done := eom || abort, abort := abort }]
  else match l.findIdx? (fun i => i.lch == lch && !i.done) with
    | some k => l.modify k (fun i => { i with bytes := i.bytes ++ body, done := eom || abort, abort := abort })
    | none => l

/-- A sequenced flit accepted by a port. -/
def Port.takeFlit (x : Port) (up : Bool) (h : W64) (f : List Byte) : Port :=
  let n := sel h 28 21
  let x := { x with rxSeq := (x.rxSeq + 1) % 4096 }
  if sel h 63 60 = 1 ∧ up then
    { x with ingress := addBody x.ingress (sel h 34 32) (bit h 31) (bit h 30) (bit h 29) (slice f 8 n)
             cnt := { x.cnt with bytesRx := bump48 x.cnt.bytesRx n } }
  else x

/-- The own port whose neighbour's port failed (R423). -/
def Mod.failedPort (m : Mod) (p rport : Nat) : Option Nat :=
  ((List.range 4).map (fun i => 4 * (p / 4) + i)).find? (fun q => q != p && (m.port q).nport == rport)

/-- A valid flit's ACK and credits taken (R388, R400). -/
def Port.takeAck (x : Port) (h : W64) : Port :=
  let x := if bit h 35 ∧ sel h 63 60 ≠ 5 then x.acked (sel h 47 36) else x
  let k := sel h 14 12
  { x with credits := Tab.upd x.credits k 0 (· - sel h 11 0) }

/-- FLIT_RECEIVE: a flit accepted or discarded (R389, R390, R425). `fec` says that FEC had to act on it. What a HELLO, NOTICE,
MARK or RETRY says is acted on by those commands. -/
def flitReceive (p : Nat) (f : List Byte) (fec : Bool) (m : Mod) : Mod :=
  let x := m.port p
  let st := x.state
  if m.aon.state = .safeHold ∨ !(st.talks || st == .quiet) then m else
  let h := flitHdr f
  let ty := sel h 63 60
  let good := crc32 (f.take 252) == wordOf 32 (f.drop 252)
  let seqd : Bool := 1 ≤ ty ∧ ty ≤ 3
  let x := { x with cnt := { x.cnt with
    fecCorrected := bump48 x.cnt.fecCorrected (b2n (fec && good))
    fecUncorrectable := bump32 x.cnt.fecUncorrectable (b2n (fec && !good))
    crcErrors := bump32 x.cnt.crcErrors (b2n !good) } }
  let put' (x : Port) : Mod := m.onPort p (fun _ => x)
  if !good then put' (if seqd then x.sendPlain else x)
  else if ty ≥ 7 then put' { x with cnt := { x.cnt with reservedFlits := bump32 x.cnt.reservedFlits 1 } }
  else
    let taken (x : Port) : Port := { x with cnt := { x.cnt with flitsRx := bump48 x.cnt.flitsRx 1 } }
    if seqd && bit h 20 then
      match m.failedPort p (sel h 19 15) with
      | none => put' x
      | some q =>
        let y := m.port q
        if sel h 59 48 = y.rxSeq then (put' (taken x)).onPort q (fun y => y.takeFlit true h f)
        else put' { x with cnt := { x.cnt with replayDrops := bump32 x.cnt.replayDrops 1 } }
    else
      let x := x.takeAck h
      if seqd then
        if sel h 59 48 = x.rxSeq then put' (taken (x.takeFlit (st == .up && m.traffic) h f)) else put' x.sendPlain
      else if ty = 6 then movePort p .quiet 0 (put' (taken x))
      else put' (taken x)

/-- RETRY: the flits from the named SEQ on sent again; the delay the burst adds is not the model's to measure (R389,
Table 10.10; log entry 9). -/
def retryFrom (p seq : Nat) (m : Mod) : Mod :=
  let x := m.port p
  if !x.state.talks then m else
  let first := (x.txSeq + 4096 - x.retryBuf.length % 4096) % 4096
  let k := (seq + 4096 - first) % 4096
  let b := if k ≤ x.retryBuf.length then x.retryBuf.drop k else []
  let late := (Config.undefined 32 m.freeCtr p).toNat
  { m.onPort p (fun x => { x with resend := b, cnt := { x.cnt with
      retries := bump32 x.cnt.retries 1, flitsTx := bump48 x.cnt.flitsTx b.length
      retryMax := max32 x.cnt.retryMax late } }) with freeCtr := m.freeCtr + 1 }

/-- MARK_FLIT: the neighbour's offset estimated from a completed exchange, and its MARK kept for the echo (R417, R418).
`theta` holds twice θ. -/
def markFlit (p : Nat) (txStick echoTx echoRx arrival : W64) (m : Mod) : Mod :=
  if (m.port p).state ≠ .up then m else
  let d (a b : W64) : Int := (a.toNat : Int) - (b.toNat : Int)
  m.onPort p (fun x => { x with
    theta := if echoTx = 0 then x.theta else some (d echoRx echoTx + d txStick arrival)
    echoTx := txStick, echoRx := arrival })

/-! ### The port switch (R395, R396, R399 to R405, R427) -/

/-- The port a message leaves by in a direction: fixed by its header in reproducible mode, the one with most free retry
entries in throughput mode (R403, R404). -/
def Mod.linePort (m : Mod) (d : Nat) (h : W128) : Option Nat :=
  if m.topo.repro then m.upPort d (hdrSpread h)
  else
    let up := ((List.range 4).map (fun i => 4 * d + i)).filter (fun p => (m.port p).state == .up)
    up.foldl (fun b p => match b with
      | none => some p
      | some q => if (m.port p).retryBuf.length < (m.port q).retryBuf.length then some p else b) none

/-- The direction in which a message enters an axis here: that of R399, or its detour (R405). -/
def enterDir (m : Mod) (j : Nat) : Option Nat :=
  [0, 1, 2].findSome? (fun ax =>
    let n := dimOf m.topo.dims ax
    let a := axisOf m.selfIndex ax
    let b := axisOf j ax
    (axisDir n a b).map (fun p =>
      let up := (b + n - a % n) % n
      let ok (p : Bool) : Bool := (walkDir m (2 * ax + b2n (!p)) (if p then up else n - up) m.selfIndex).isSome
      2 * ax + b2n (if !m.topo.repro && !ok p && ok (!p) then p else !p)))

/-- Whether a hop in a direction crosses the dateline (R400). -/
def crossesDateline (m : Mod) (d : Nat) : Bool :=
  let a := axisOf m.selfIndex (d / 2)
  if d % 2 = 0 then a + 1 == dimOf m.topo.dims (d / 2) else a == 0

/-- A message sent on in a direction with a dateline class: none when no port of it is UP, otherwise the module after it, or
unchanged while the port has no room or no credit. -/
def switchOut (m : Mod) (d cls : Nat) (h : W128) (abort : Bool) (bs : List Byte) : Option (Nat × Bool × Mod) :=
  (m.linePort d h).map (fun q =>
    let x := m.port q
    let lch := 2 * hdrVc h + (if crossesDateline m d then 1 else cls)
    if x.retryBuf.length + (bs.length + 243) / 244 > 1024 then (q, false, m)
    else if Tab.get x.credits lch 0 ≥ Config.linkBuffers then
      (q, false, { m.onPort q (fun x => { x with cnt := { x.cnt with
          creditWait := bump48 x.cnt.creditWait (Config.undefined 16 m.freeCtr q).toNat } }) with freeCtr := m.freeCtr + 1 })
    else (q, true, m.onPort q (fun x => x.sendMsg lch abort bs)))

/-- A message discarded for want of a route, counted at a port (R427). -/
def noRoute (p : Nat) (m : Mod) : Mod := m.onPort p (fun x => { x with cnt := { x.cnt with noRouteDrops := bump32 x.cnt.noRouteDrops 1 } })

/-- LINK_EGRESS: the oldest message at a gateway takes a line port (R382, R393, R399, R403, R404). -/
def linkEgress (p j : Nat) (m : Mod) : Mod :=
  if !m.traffic then m else
  match Tab.get m.mesh.gateways (p * 4 + j) [] with
  | [] => m
  | x :: rest =>
    let pop (m : Mod) : Mod := { m with mesh := { m.mesh with
      gateways := if rest.isEmpty then Tab.erase m.mesh.gateways (p * 4 + j) else Tab.set m.mesh.gateways (p * 4 + j) rest } }
    match (enterDir m (hdrDmod x.hdr)).bind (fun d => switchOut m d 0 x.hdr false (msgBytes x)) with
    | none => noRoute p (pop m)
    | some (_, sent, m) => if sent then pop m else m

/-- The first message of a port's ingress with a property, and the rest. -/
def takeIngress (f : Ingress → Bool) (l : List Ingress) : Option (Ingress × List Ingress) :=
  (l.find? f).map (fun x => (x, l.erase x))

/-- A message's header at ingress. -/
def Ingress.hdr (x : Ingress) : W128 := wordOf 128 (x.bytes.take 16)

/-- The direction and class of a forwarded message: on along its axis, or entering the next (R399, R400). -/
def forwardDir (m : Mod) (p : Nat) (x : Ingress) : Option (Nat × Nat) :=
  let ax := p / 4 / 2
  if axisOf m.selfIndex ax ≠ axisOf (hdrDmod x.hdr) ax then some (p / 4 / 2 * 2 + 1 - p / 4 % 2, x.lch % 2)
  else (enterDir m (hdrDmod x.hdr)).map (fun d => (d, 0))

/-- MESSAGE_FORWARD: a message for another module sent on (R395, R399, R427). -/
def messageForward (p : Nat) (m : Mod) : Mod :=
  if !m.traffic then m else
  match takeIngress (fun i => i.done && hdrDmod i.hdr != m.selfIndex) (m.port p).ingress with
  | none => m
  | some (x, rest) =>
    let pop (m : Mod) : Mod := m.onPort p (fun y => { y with ingress := rest })
    match (forwardDir m p x).bind (fun d => switchOut m d.1 d.2 x.hdr x.abort x.bytes) with
    | none => noRoute p (pop m)
    | some (q, sent, m) =>
      if sent then pop (m.onPort q (fun y => { y with cnt := { y.cnt with forwarded := bump48 y.cnt.forwarded 1 } })) else m

/-- The rows of a message's bytes. -/
def rowsOf : Nat → List Byte → List Row
  | 0, _ => []
  | n + 1, bs => wordOf 4096 (bs.take 512) :: rowsOf n (bs.drop 512)

/-- INGRESS_INJECT: a whole message enters the mesh at its gateway link, or an aborted one is discarded (R381, R396). A message
for no core placed here goes to the gateway's own site (log entry 30). -/
def ingressInject (p : Nat) (m : Mod) : Mod :=
  if !m.traffic then m else
  match takeIngress (fun i => i.done && hdrDmod i.hdr == m.selfIndex) (m.port p).ingress with
  | none => m
  | some (x, rest) =>
    let pop (m : Mod) : Mod := m.onPort p (fun y => { y with ingress := rest })
    if x.abort then pop (m.onPort p (fun y => { y with cnt := { y.cnt with linkAborts := bump32 y.cnt.linkAborts 1 } }))
    else
      let h := x.hdr
      let g := gatewaySite p (hdrDcore h % 4)
      let n := m.mesh
      if !(n.buf g (gatewaySide p) (hdrVc h)).isEmpty then m else
      let t := m.remoteTarget h
      let dst := (t.map (·.2)).getD g
      let y : MeshMsg := { hdr := h, rows := rowsOf ((x.bytes.length - 16) / 512) (x.bytes.drop 16), dst := dst, remote := true
                           dgang := (t.map (fun z => z.1.id)).getD 0 }
      pop { m with mesh := n.inject g (gatewaySide p) y }

/-! ### Identity challenges (R410 to R412) -/

/-- A challenge sent to a port's neighbour (R410). -/
def sendChallenge (p : Nat) (m : Mod) : Mod :=
  let n := Config.nonce m.freeCtr 32
  { m.onPort p (fun x => { (x.sendSeq 3 0 false false false n) with verif := 1, nonce := n, challenge := some m.aon.stick.toNat }) with
    freeCtr := m.freeCtr + 1 }

/-- Whether a challenge's answer is VERIFIED (R411). -/
def answerOk (m : Mod) (x : Port) (cert sig : List Byte) : Bool :=
  sha512 cert == x.ndigest && Config.certSerial cert == x.nserial &&
    Config.certVerifies cert (x.nonce ++ bytesOf m.desc.serial 8 ++ x.nhello) sig &&
    (m.topo.anchor.isEmpty || Config.certChains m.topo.anchor cert)

/-- The verification of a port settled, and its last hello judged again (R408, R411). -/
def settleVerif (p v : Nat) (m : Mod) : Mod :=
  let m' := touchTopo m (m.onPort p (fun x => { x with verif := v, challenge := none }))
  if (m'.port p).state = .isolated ∨ (m'.port p).state = .up then judgeHello p m' else m'

/-- CHALLENGE_RECEIVED: a neighbour's nonce answered (R410, R412). -/
def challengeReceived (p : Nat) (nonce : List Byte) (serial : W64) (m : Mod) : Mod :=
  if !(m.port p).state.talks then m else
  let a : NoticeIn := match m.ident.key with
    | some k => if m.aon.identityReady then .answer m.ident.cert (Config.identitySign k (nonce ++ bytesOf serial 8 ++ helloRecord m p))
                else .notReady
    | none => .notReady
  m.onPort p (fun x => { x with outbox := x.outbox ++ [a] })

/-- CHALLENGE_RETRY: a pending challenge sent again (R412). -/
def challengeRetry (p : Nat) (m : Mod) : Mod :=
  let x := m.port p
  if x.verif = 1 ∧ x.state.talks then m.onPort p (fun x => x.sendSeq 3 0 false false false x.nonce) else m

/-! ### Notices (R372, R411, R416) -/

/-- The words of running gangs whose declared signaller a test names. -/
def abandonRemote (owned : W128 → Bool) (m : Mod) : Mod := abandonWords owned m

/-- NOTICE: what another module's Tirix says, acted on and flooded on unless it repeats what is known (R372, R416; log entry
42). -/
def noticeIn (p : Nat) (n : NoticeIn) (m : Mod) : Mod :=
  if !(m.port p).state.talks then m else
  match n with
  | .linkState i up =>
    if i.val = m.selfIndex ∨ Tab.find m.topo.links i.val = some up then m
    else touchTopo m (floodNotice n (some p) { m with topo := { m.topo with links := Tab.set m.topo.links i.val up } })
  | .gangEnd i g =>
    if i.val = m.selfIndex then m else
    let m' := { m with topo := { m.topo with
      remoteEnded := m.topo.remoteEnded.filter (· != (i.val, g.toNat)) ++ [(i.val, g.toNat)]
      remotePreempted := m.topo.remotePreempted.filter (· != (i.val, g.toNat)) } }
    abandonRemote (ownedRemote i.val g.toNat)
      (if m.topo.remoteEnded.contains (i.val, g.toNat) then m' else floodNotice n (some p) m')
  | .preempted i g =>
    if i.val = m.selfIndex ∨ m.topo.remotePreempted.contains (i.val, g.toNat) then m
    else floodNotice n (some p) { m with topo := { m.topo with
      remotePreempted := m.topo.remotePreempted ++ [(i.val, g.toNat)]
      remoteEnded := m.topo.remoteEnded.filter (· != (i.val, g.toNat)) } }
  | .resumed i g =>
    if i.val = m.selfIndex ∨ !m.topo.remotePreempted.contains (i.val, g.toNat) then m
    else floodNotice n (some p) { m with topo := { m.topo with
      remotePreempted := m.topo.remotePreempted.filter (· != (i.val, g.toNat)) } }
  | .answer cert sig =>
    if (m.port p).verif ≠ 1 then m else settleVerif p (if answerOk m (m.port p) cert sig then 2 else 3) m
  | .notReady => m

/-- PLUG_INSERT: a plug's declared power added to the LINK charge (R640). -/
def plugInsert (p watts : Nat) (m : Mod) : Mod := m.onPort p (fun x => { x with charge := watts })

/-! ### The commands -/

/-- PORT_TRAINED. -/
def execPortTrained (p : Fin 24) (s : State) : Host.Outcome State Fault Refusal :=
  s.runIf (Instr.wf (.portTrained p)) (portTrained p)

/-- PORT_TRAINING_TIMEOUT. -/
def execPortTrainingTimeout (p : Fin 24) (s : State) : Host.Outcome State Fault Refusal :=
  s.runIf (Instr.wf (.portTrainingTimeout p)) (portTrainingTimeout p)

/-- HELLO_SEND. -/
def execHelloSend (p : Fin 24) (s : State) : Host.Outcome State Fault Refusal :=
  s.runIf (Instr.wf (.helloSend p)) (helloSend p)

/-- HELLO_RECEIVED. -/
def execHelloReceived (p : Fin 24) (hrec : List Byte) (s : State) : Host.Outcome State Fault Refusal :=
  s.runIf (Instr.wf (.helloReceived p hrec)) (helloReceived p hrec)

/-- PORT_DOWN. -/
def execPortDown (p : Fin 24) (cause : PortLoss) (s : State) : Host.Outcome State Fault Refusal :=
  s.runIf (Instr.wf (.portDown p cause)) (portDown p)

/-- FLIT_RECEIVE. -/
def execFlitReceive (p : Fin 24) (flit : List Byte) (fec : Bool) (s : State) : Host.Outcome State Fault Refusal :=
  s.runIf (Instr.wf (.flitReceive p flit fec)) (flitReceive p flit fec)

/-- RETRY. -/
def execRetry (p : Fin 24) (seq : BitVec 12) (s : State) : Host.Outcome State Fault Refusal :=
  s.runIf (Instr.wf (.retry p seq)) (retryFrom p seq.toNat)

/-- MARK_FLIT. -/
def execMarkFlit (p : Fin 24) (txStick echoTx echoRx arrival : W64) (s : State) : Host.Outcome State Fault Refusal :=
  s.runIf (Instr.wf (.markFlit p txStick echoTx echoRx arrival)) (markFlit p txStick echoTx echoRx arrival)

/-- NOTICE. -/
def execNotice (p : Fin 24) (n : NoticeIn) (s : State) : Host.Outcome State Fault Refusal :=
  s.runIf (Instr.wf (.notice p n)) (noticeIn p n)

/-- CHALLENGE_RECEIVED. -/
def execChallengeReceived (p : Fin 24) (nonce : List Byte) (serial : W64) (s : State) : Host.Outcome State Fault Refusal :=
  s.runIf (Instr.wf (.challengeReceived p nonce serial)) (challengeReceived p nonce serial)

/-- CHALLENGE_RETRY. -/
def execChallengeRetry (p : Fin 24) (s : State) : Host.Outcome State Fault Refusal :=
  s.runIf (Instr.wf (.challengeRetry p)) (challengeRetry p)

/-- LINK_EGRESS. -/
def execLinkEgress (p : Fin 24) (link : Fin 4) (s : State) : Host.Outcome State Fault Refusal :=
  s.runIf (Instr.wf (.linkEgress p link)) (linkEgress p link)

/-- MESSAGE_FORWARD. -/
def execMessageForward (p : Fin 24) (s : State) : Host.Outcome State Fault Refusal :=
  s.runIf (Instr.wf (.messageForward p)) (messageForward p)

/-- INGRESS_INJECT. -/
def execIngressInject (p : Fin 24) (s : State) : Host.Outcome State Fault Refusal :=
  s.runIf (Instr.wf (.ingressInject p)) (ingressInject p)

/-- PLUG_INSERT. -/
def execPlugInsert (p : Fin 24) (watts : BitVec 5) (s : State) : Host.Outcome State Fault Refusal :=
  s.runIf (Instr.wf (.plugInsert p watts)) (plugInsert p watts.toNat)

end Sys2Proof.Machine
end

