-- ==== Sys2Proof/Machine/Power.lean ====
section
/-!
DEFINITION. Machine/Power.lean: power domains, energy declarations and admission, sensors, emergency steps and telemetry
(spec/16_power.md; spec/18_hardware.md R628, R629, R640; spec/02_story_stick.md R65, R69).
-/

namespace Sys2Proof.Machine

open Sys2Proof

/-! ### Declared power (R581, R582) -/

/-- P_c(s) of an energy-table entry in mW: none when it is not admissible at the step. -/
def entryPower (e : EnergyEntry) (s : Nat) : Option Nat :=
  if e.interval = 0 then some 0 else
  let j := e.energy.getD (s - 1) 0
  if j = 0 then none
  else
    let t := intervalTicks e.ticks e.interval s
    some ((2250000 * j + t - 1) / t)

/-- A part's declared power at a step, none when it is not admissible there (R582). -/
def partPower (d : PartDecl) (s : Nat) : Option Nat :=
  d.energy.foldl (fun a e => match a, entryPower e s with
    | some x, some y => some (max x y)
    | _, _ => none) (some 0)

/-- The highest step at or below `top` at which a part is admissible. -/
def highestStep (d : PartDecl) (top : Nat) : Option Nat :=
  ((List.range 8).reverse.map (· + 1)).find? (fun s => decide (s ≤ top) && (partPower d s).isSome)

/-- What a part is charged at a step: where it is not admissible, its declared power at its lowest admissible step (R588). -/
def chargeAt (d : PartDecl) (s : Nat) : Nat :=
  match partPower d s with
  | some p => p
  | none => (((List.range 8).map (· + 1)).findSome? (partPower d)).getD 0

/-! ### Admission (R585, R586) -/

/-- The fixed charges in mW of the domains that run no gang, but for regions in `new` (Table 16.5, R640). -/
def Mod.fixedPower (m : Mod) (new : List Nat) : Nat :=
  120000 + (if m.bringup.link then 480000 + (List.range 24).foldl (fun a p => a + 1000 * (m.port p).charge) 0 else 0) +
    allRegions.foldl (fun a r =>
      let g := m.region r
      if g.run.running || new.contains r then a
      else a + (match g.dom with
        | .off => 0
        | .sleep => 40000
        | .awake => 250000
        | .selfTest => 6000000)) 0

/-- The running parts: region, part number, gang, declarations and admitted step, by part number and gang (log entry 36). -/
def Mod.runningParts (m : Mod) : List (Nat × Nat) :=
  sortBy (fun a b => decide (a.2 ≤ b.2))
    (m.runningRegions.map (fun r => (r, (m.region r).run.part * 65536 + (m.region r).run.gang)))

/-- The declared power of the running parts at their admitted steps. -/
def Mod.runningPower (m : Mod) : Nat :=
  m.runningRegions.foldl (fun a r => a + chargeAt (m.region r).decl (m.region r).run.admitted) 0

/-- The limit of R586 in mW (R546, R628). -/
def Mod.powerLimit (m : Mod) : Nat :=
  let e := if m.aon.state = .full ∨ m.aon.state = .standby then m.settings.envelope else 40000
  1000 * (match m.power.inputLimit with
    | some w => min e w
    | none => e)

/-- The step ceiling of admission, at most 3 in ROUGH_CUT (R586, R552). -/
def Mod.admitCeiling (m : Mod) : Nat := if m.aon.state = .roughCut then min 3 m.settings.ceiling else m.settings.ceiling

/-- The place of the highest step in a list, the first among equals. -/
def highestIndex (l : List Nat) : Nat := l.findIdx (· == l.foldl max 0)

/-- The loop of R586 over the new parts' steps. -/
def admitLoop (other limit : Nat) (ds : List PartDecl) : Nat → List Nat → Option (List Nat)
  | 0, _ => none
  | n + 1, steps =>
    let sum := (List.zipWith chargeAt ds steps).foldl (· + ·) 0
    if other + sum ≤ limit then some steps else
    let j := highestIndex steps
    let d := ds.getD j {}
    match highestStep d (steps.getD j 0 - 1) with
    | some s => if s < d.floor ∨ steps.getD j 0 = 0 then none else admitLoop other limit ds n (steps.set j s)
    | none => none

/-- The admitted steps of new parts, in ascending part number, on the named regions; none for E_ENVELOPE (R586). -/
def admitParts (m : Mod) (new : List Nat) (ds : List PartDecl) : Option (List Nat) :=
  let steps := ds.map (fun d => highestStep d m.admitCeiling)
  if (List.zipWith (fun (d : PartDecl) (s : Option Nat) => match s with
      | some s => decide (d.floor ≤ s)
      | none => false) ds steps).all id then
    admitLoop (m.fixedPower new + m.runningPower) m.powerLimit ds (8 * ds.length + 1) (steps.map (·.getD 0))
  else none

/-! ### Lowering (R588) -/

/-- The loop of R588 over the running parts' steps. -/
def lowerLoop (other limit : Nat) (ds : List PartDecl) : Nat → List Nat → List Nat
  | 0, steps => steps
  | n + 1, steps =>
    if other + (List.zipWith chargeAt ds steps).foldl (· + ·) 0 ≤ limit ∨ steps.all (fun s => decide (s ≤ 1)) then steps else
    let j := highestIndex steps
    let s := steps.getD j 0
    lowerLoop other limit ds n (steps.set j ((highestStep (ds.getD j {}) (s - 1)).getD (s - 1)))

/-- The steps a lowering leaves the running parts at, by region (R588). -/
def loweredSteps (m : Mod) : List (Nat × Nat) :=
  let rs := m.runningParts.map (·.1)
  let ds := rs.map (fun r => (m.region r).decl)
  let c := m.admitCeiling
  let steps := rs.map (fun r =>
    let s := (m.region r).run.admitted
    if c < s then (highestStep (m.region r).decl c).getD c else s)
  rs.zip (lowerLoop (m.fixedPower []) m.powerLimit ds (8 * rs.length + 1) steps)

/-- ENVELOPE at a mark: the parts that the loop lowers take an emergency step (R588, R595). -/
def envelopeMark (m : Mod) : Mod :=
  if !m.power.envelopeDue then m else
  let m' := { m with power := { m.power with envelopeDue := false } }
  (loweredSteps m).foldl (fun m x =>
    if x.2 < (m.region x.1).run.admitted then
      m.onEmerg x.1 (fun e => { e with lowered := some x.2, due := sticky e.due 3 })
    else m) m'

/-- Running parts left above a new limit or ceiling: an emergency step follows at the next mark (R588, R629). -/
def lowerLimit (m : Mod) : Mod := { m with power := { m.power with envelopeDue := true } }

/-! ### Routes that keep a region awake (R65, R383) -/

/-- The sites of a placement's gangs. -/
def Placement.sites (p : Placement) : List Nat := p.gangs.flatMap (·.sites)

/-- The sites between which a running placement's routes run: its cores and, when it has partners, the gateway routers of
every UP port (R65, R383). -/
def Mod.routeEnds (m : Mod) (p : Placement) : List Nat :=
  p.sites ++ (if p.partners.isEmpty then [] else
    ((List.range 24).filter (fun q => (m.port q).state == .up)).flatMap (fun q => (List.range 4).map (gatewaySite q)))

/-- The placements with a gang running. -/
def Mod.livePlacements (m : Mod) : List Placement := m.placements.filter (fun p => p.gangs.any (·.running))

/-- How routes between some sites pass through a site: the side entered from and the side left by, toward a destination
(R332). -/
def passes (ends : List Nat) (f : Nat) : List (Nat × Nat) :=
  let fx := f % 160
  let fy := f / 160
  let row := ends.filter (fun a => a / 160 == fy && a % 160 != fx)
  let other := ends.filter (fun b => b != f)
  let horiz := row.flatMap (fun a =>
    let inn := if a % 160 < fx then 0 else 1
    other.filterMap (fun b =>
      if b % 160 = fx then (if b / 160 = fy then none else some (inn, if b / 160 < fy then 2 else 3))
      else if (a % 160 < fx) == (fx < b % 160) then some (inn, 1 - inn) else none))
  let col := other.filter (fun b => b % 160 == fx)
  let vert := other.flatMap (fun a => if a / 160 = fy then [] else col.filterMap (fun b =>
    if (a / 160 < fy) == (fy < b / 160) && b / 160 != fy then some (if a / 160 < fy then (2, 3) else (3, 2)) else none))
  (horiz ++ vert).eraseDups

/-- The regions whose routers carry a route between some sites, bypasses included (R65, R332, R619). -/
def routeRegions (m : Mod) (ends : List Nat) : List Nat :=
  let rs := (ends.map siteRegion).eraseDups
  let span (a b : Nat) : List Nat := (List.range (max a b + 1 - min a b)).map (· + min a b)
  let straight := rs.flatMap (fun a => rs.flatMap (fun b =>
    (span (a % 5) (b % 5)).map (fun x => x + 5 * (a / 5)) ++ (span (a / 5) (b / 5)).map (fun y => b % 5 + 5 * y)))
  let ring := (m.mesh.removing ++ m.mesh.removed).flatMap (fun f => (passes ends f).flatMap (fun x =>
    ((bypassPath f x.1 x.2).getD []).map siteRegion))
  (straight ++ ring).eraseDups

/-- Whether a region's routers carry a route of a running gang (R65, R383). -/
def Mod.carriesRoute (m : Mod) (r : Nat) : Bool := m.livePlacements.any (fun p => (routeRegions m (m.routeEnds p)).contains r)

/-! ### Sleep and wake (R576 to R579, R69) -/

/-- STANDBY left: the module is FULL and stock leaves self-refresh (R540, R579). -/
def leaveStandby (m : Mod) : Mod :=
  if m.aon.state = .standby then
    { m with aon := { m.aon with state := .full }, stock := { m.stock with selfRefresh := false }
             bringup := { m.bringup with west := .on, east := .on } }
  else m

/-- The step a staged change gives a region, under its ceiling (R66, R72). -/
def Mod.underCeiling (m : Mod) (r s : Nat) : Nat := min s (m.emerg r).ceiling

/-- A committed change applied to a region: modes as staged, the staged step under the emergency ceiling, the part's admitted
step (R70 to R72, R587, R469, R472). A region whose clock is stopped takes its step when it wakes. -/
def applyChange (r : Nat) (m : Mod) : Mod :=
  let g := m.region r
  if !g.pendingChange then m else
  let pick (i : Nat) (old : Bool) : Bool := if bit g.pendChange i then bit g.pendValue i else old
  let endTrace : Bool := pick 1 g.digestOn && !g.digestOn && g.trace.on && g.trace.tap == 1
  let m := m.onRegion r (fun g => { g with
    pendingChange := false, pendChange := 0, ack := false, stagedStep := none
    reprMode := pick 0 g.reprMode, digestOn := pick 1 g.digestOn, accNearest := pick 2 g.accNearest
    trace := if endTrace then { g.trace with on := false } else g.trace
    dig := if endTrace then { g.dig with traceEnded := true } else g.dig })
  match g.stagedStep with
  | none => m
  | some s =>
    let m := if g.run.running then m.onRegion r (fun g => { g with run := { g.run with admitted := s } }) else m
    switchStep r (m.underCeiling r s) m

/-- A region woken from SLEEP or OFF at a step; a change committed while it slept is applied first. It has no valid view
before the next mark (R45, R69, R576). -/
def wakeRegion (r step : Nat) (m : Mod) : Mod :=
  let g := m.region r
  if g.dom = .sleep ∨ g.dom = .off then
    let due : Bool := g.pendingChange && decide (m.aon.commitMark ≤ m.aon.markNumber)
    let s := if due then g.stagedStep.getD step else step
    let m := leaveStandby m
    let m := if due then applyChange r m else m
    m.onRegion r (fun g => { g with dom := .awake, step := m.underCeiling r s, viewValid := false, switching := 0 })
  else m

/-- REGION_WAKE: Tirix wakes a tested region for no gang of its own; its clock starts at step code 1 (log entry 35). -/
def regionWake (r : Nat) (m : Mod) : Mod :=
  if m.aon.tirixRunning ∧ m.aon.state ≠ .safeHold ∧ m.aon.pins.pwrgdMain ∧ bit m.desc.tested r then wakeRegion r 1 m else m

/-- Whether a region may sleep: awake, no gang on it running or unsettled, no route across it (R577). -/
def Mod.maySleep (m : Mod) (r : Nat) : Bool :=
  let g := m.region r
  g.dom == .awake && !g.run.running && g.run.settled && !m.carriesRoute r

/-- REGION_SLEEP (R577). -/
def regionSleep (r : Nat) (m : Mod) : Mod :=
  if m.maySleep r then
    { m with power := { m.power with sleepSince := Tab.set m.power.sleepSince r m.aon.stick.toNat } }.onRegion r
      (fun g => { g with dom := .sleep, step := 0, viewValid := false, switching := 0 })
  else m

/-- One second in ticks (R10). -/
def oneSecond : Nat := 2250000000

/-- REGION_OFF: a region asleep for 1 s loses power; not in safe hold, which retains it (R577, R607). -/
def regionOff (r : Nat) (m : Mod) : Mod :=
  let g := m.region r
  if m.aon.state ≠ .safeHold ∧ g.dom = .sleep ∧ Tab.get m.power.sleepSince r 0 + oneSecond ≤ m.aon.stick.toNat then clearRegion r m
  else m

/-- STANDBY_ENTRY: no gang running or pre-empted, every region asleep or off, and no command at work in stock (R540, R579; log
entry 37). -/
def standbyEntry (m : Mod) : Mod :=
  let busy : Bool := m.jobs.any (fun j => match j.kind with
    | .fill .. => true
    | .load .. => true
    | .pin .. => true
    | _ => false)
  if m.aon.state = .full ∧ !m.anyRunning ∧ m.placements.all (fun p => !p.preempted) ∧
      allRegions.all (fun r => (m.region r).dom == .sleep || (m.region r).dom == .off) ∧ !busy then
    { m with aon := { m.aon with state := .standby }, stock := { m.stock with selfRefresh := true }
             bringup := { m.bringup with west := .selfRefresh, east := .selfRefresh } }
  else m

/-! ### Sensors and emergency steps (R592 to R598) -/

/-- An emergency cause detected: its step is due at the next mark (R595). -/
def detect (r cause : Nat) (m : Mod) : Mod := m.onEmerg r (fun e => { e with causes := sticky e.causes cause })

/-- The place of the hottest reading, the first among equals. -/
def hottestAt (temps : List W16) : Nat :=
  let t := temps.map BitVec.toNat
  t.findIdx (· == t.foldl max 0)

/-- SENSOR_SAMPLE: the readings kept, THERMAL_WARN counted, JUNCTION and the end of OVER_CURRENT found, safe hold at 115 °C
(R592, R594, R595, R598). -/
def sensorSample (r : Nat) (temps : List W16) (amps : Nat) (m : Mod) : Mod :=
  if m.aon.state = .off then m else
  let hot := (temps.map BitVec.toNat).foldl max 0
  let m := { m with power := { m.power with
    sensors := temps.zipIdx.foldl (fun (t : Tab Nat) (x : W16 × Nat) => Tab.set t (16 * r + x.2) x.1.toNat) m.power.sensors
    tjMax := Tab.upd m.power.tjMax r 0 (max hot) } }
  let alert := m.power.sensors.any (fun x => decide (9500 ≤ x.2))
  let m := { m with aon := { m.aon with pins := { m.aon.pins with thermAlert := alert } } }
  let m := m.onRegion r (fun g => { g with tmaxInterval := max g.tmaxInterval hot })
  let e := m.emerg r
  let m := if 9500 ≤ hot ∧ e.warnArmed then
      (m.onRegion r (fun g => countEv g { code := 0x12, d0 := hottestAt temps, d := hot })).onEmerg r (fun e => { e with warnArmed := false })
    else if hot < 9200 then m.onEmerg r (fun e => { e with warnArmed := true }) else m
  let m := if hot < 10500 then m.onEmerg r (fun e => { e with junction := none })
    else if (m.emerg r).junction.isSome then m
    else detect r 0 (m.onEmerg r (fun e => { e with junction := some m.aon.markNumber.toNat }))
  let m := if amps ≤ 9400 then m.onEmerg r (fun e => { e with overCurrent := none }) else m
  if 11500 ≤ hot then enterSafeHold 2 m else m

/-- OVER_CURRENT (R595, Table 16.7). -/
def overCurrent (r : Nat) (m : Mod) : Mod :=
  if m.aon.state = .off ∨ (m.emerg r).overCurrent.isSome then m
  else detect r 1 (m.onEmerg r (fun e => { e with overCurrent := some m.aon.markNumber.toNat }))

/-- A region's emergencies at a mark: a persisting cause detected again at every 64th mark, more than two shims, a ceiling
released after 256 marks without a cause, and the causes detected made due (R595, R597, R59). -/
def emergencyMark (r : Nat) (m : Mod) : Mod :=
  let n := m.aon.markNumber.toNat
  let again (t : Option Nat) : Bool := match t with
    | some k => decide (k < n) && (n - k) % 64 == 0
    | none => false
  let e := m.emerg r
  let m := if again e.junction then detect r 0 m else m
  let m := if again e.overCurrent then detect r 1 m else m
  let m := if (m.region r).shimsThisMark > 2 then detect r 2 m else m
  let e := m.emerg r
  if e.ceiling = 15 ∧ e.causes = 0 then m else
  let present : Bool := sel e.causes 2 0 != 0 || e.overCurrent.isSome || decide (10000 ≤ m.hottest r)
  let k := if present then 0 else e.absent + 1
  let free : Bool := e.ceiling != 15 && decide (256 ≤ k)
  m.onEmerg r (fun e => { e with
    due := e.due ||| e.causes, causes := 0, absent := if free then 0 else k
    ceiling := if free then 15 else e.ceiling, restore := e.restore || free })

/-- The ceiling a cause sets at an applied step (Table 16.7). -/
def causeCeiling (step : Nat) (causes : BitVec 4) (old : Nat) : Nat :=
  let c := if bit causes 0 then min old (max 1 (step - 2)) else old
  if bit causes 1 || bit causes 2 then min c (max 1 (step - 1)) else c

/-- EMERGENCY_STEP: the step due since the mark, once for all its causes (R595, R596, Table 16.7). -/
def emergencyStep (r : Nat) (m : Mod) : Mod :=
  let e := m.emerg r
  if e.due = 0 then m else
  let g := m.region r
  let c := causeCeiling g.step e.due e.ceiling
  let m := m.onEmerg r (fun e => { e with due := 0, lowered := none, ceiling := c, absent := 0, restore := false })
  let m := match e.lowered with
    | some s => m.onRegion r (fun g => if g.run.running then { g with run := { g.run with admitted := s } } else g)
    | none => m
  let s := min g.step (min c (if bit e.due 3 then e.lowered.getD g.step else g.step))
  let m := switchStep r s m
  let m := { m with power := { m.power with emergencySteps := m.power.emergencySteps + 1 } }
  raiseEvent 0x0D r 1 (if g.run.running then g.run.gang else 0) c e.due.toNat 0 (m.voidTicks r)

/-! ### Telemetry (R591 to R593, R628, R629, Table 16.6) -/

/-- A region's power state code (Table 16.6). -/
def rstateCode (g : Region) : Nat :=
  match g.dom with
  | .off => 0
  | .sleep => 1
  | .selfTest => 4
  | .awake => if g.run.running then 3 else 2

def telemRegion (m : Mod) (r : Nat) : TelemRegion :=
  let g := m.region r
  { rstate := 16 * rstateCode g + g.step
    rsteps := 16 * (if g.run.running then g.run.admitted else 0) + (m.emerg r).ceiling
    tjMax := Tab.get m.power.tjMax r 0, gaugeWarns := Tab.get m.power.warns r 0
    lastEnergy := Tab.get m.power.lastEnergy r 0, lastDecl := Tab.get m.power.lastDecl r 0 }

/-- The sum of R586 for the running parts and fixed charges, in watts. -/
def Mod.admittedWatts (m : Mod) : Nat := (m.fixedPower [] + m.runningPower) / 1000

/-- Sum over the regions, modulo 2^32. -/
def sumRegions (m : Mod) (f : Region → W32) : W32 := allRegions.foldl (fun a r => a + f (m.region r)) 0

/-- GOV_STATE.REPRO at a rewrite: the committed mode once the applied mask is complete, AON answering for the regions that sleep
or are off; while a change of it is in flight, as before (R468, R69, R72; log entry 61). -/
def Mod.govRepro (m : Mod) : Bool :=
  if m.aon.inFlight && bit m.settings.flightChange 0 then decide (256 ≤ m.power.telem.gov) else bit m.settings.modes 0

/-- The telemetry record as it is rewritten (Table 16.6). -/
def telemRecord (x : TelemIn) (m : Mod) : Telem :=
  { gen := m.power.telem.gen + 1, stick := m.aon.stick
    inputMv := x.inputMv.toNat, inputMa := x.inputMa.toNat, loadW := x.loadW.toNat
    envelopeW := m.settings.envelope, admittedW := m.admittedWatts
    gov := 256 * b2n m.govRepro + m.settings.ceiling
    inlet := x.inlet.toNat, outlet := x.outlet.toNat, auxMw := x.auxMw.toNat
    bar2Discards := m.power.bar2Discards, declOverruns := sumRegions m (·.declOverruns)
    declMismatches := sumRegions m (·.declMismatches), emergencySteps := m.power.emergencySteps
    domainW := x.domainW.map BitVec.toNat, regions := allRegions.map (telemRegion m), sensors := m.power.sensors }

/-- The regions the governor lowers next, when the load exceeded the envelope over the period (R591). -/
def overEnvelope (x : TelemIn) (m : Mod) : List Nat :=
  let rs := m.runningRegions
  let top := rs.foldl (fun a r => max a (m.region r).step) 0
  if m.settings.envelope < x.loadW.toNat then rs.filter (fun r => (m.region r).step == top && !(m.region r).reprMode) else []

/-- TELEMETRY_REWRITE, every 16 marks while Tirix runs. -/
def telemetryRewrite (x : TelemIn) (m : Mod) : Mod :=
  let n := m.aon.markNumber.toNat
  if !m.aon.tirixRunning ∨ m.aon.beatStopped ∨ n % 16 ≠ 0 ∨ n = m.power.lastRewrite then m else
  let w := 412515 * x.inputMv.toNat / 1000000
  let t := telemRecord x m
  let hot (r : Nat) : Nat := m.hottest r
  let m' := { m with power := { m.power with
    telem := t, lastRewrite := n, inputLimit := some w, warns := []
    tjMax := m.power.tjMax.mapVals (fun r _ => hot r)
    governorDown := (m.power.governorDown ++ overEnvelope x m).eraseDups } }
  if w < m.admittedWatts then lowerLimit m' else m'

/-! ### The commands -/

/-- REGION_SLEEP. -/
def execRegionSleep (r : Fin 25) (s : State) : Host.Outcome State Fault Refusal :=
  s.runIf (Instr.wf (.regionSleep r)) (regionSleep r)

/-- REGION_OFF. -/
def execRegionOff (r : Fin 25) (s : State) : Host.Outcome State Fault Refusal :=
  s.runIf (Instr.wf (.regionOff r)) (regionOff r)

/-- REGION_WAKE. -/
def execRegionWake (r : Fin 25) (s : State) : Host.Outcome State Fault Refusal :=
  s.runIf (Instr.wf (.regionWake r)) (regionWake r)

/-- STANDBY_ENTRY. -/
def execStandbyEntry (s : State) : Host.Outcome State Fault Refusal :=
  s.runIf (Instr.wf .standbyEntry) standbyEntry

/-- SENSOR_SAMPLE. -/
def execSensorSample (r : Fin 25) (temps : List W16) (amps : W32) (s : State) : Host.Outcome State Fault Refusal :=
  s.runIf (Instr.wf (.sensorSample r temps amps)) (sensorSample r temps amps.toNat)

/-- OVER_CURRENT. -/
def execOverCurrent (r : Fin 25) (s : State) : Host.Outcome State Fault Refusal :=
  s.runIf (Instr.wf (.overCurrent r)) (overCurrent r)

/-- EMERGENCY_STEP. -/
def execEmergencyStep (r : Fin 25) (s : State) : Host.Outcome State Fault Refusal :=
  s.runIf (Instr.wf (.emergencyStep r)) (emergencyStep r)

/-- TELEMETRY_REWRITE. -/
def execTelemetryRewrite (x : TelemIn) (s : State) : Host.Outcome State Fault Refusal :=
  s.runIf (Instr.wf (.telemetryRewrite x)) (telemetryRewrite x)

end Sys2Proof.Machine
end

