-- ==== Sys2Proof/Machine/Fencing.lean ====
section
/-!
DEFINITION. Machine/Fencing.lean: fences, core faults and removed routers, and what a region's self-test writes
(spec/17_faults.md R614 to R622; spec/01_module.md R19 to R23; spec/15_bringup.md R543; spec/02_story_stick.md R69).
-/

namespace Sys2Proof.Machine

open Sys2Proof

/-! ### The fence map (Table 1.2, Table 1.3) -/

/-- Sites given a fence code, the region's counts brought up to date, and DESC_GEN raised once (R22, R23). -/
def setFences (r : Nat) (cs : List (Nat × Nat)) (m : Mod) : Mod :=
  let f := cs.foldl (fun (t : Tab Nat) x => Tab.set t x.1 x.2) m.desc.fence
  let m := { m with desc := { m.desc with fence := f } }
  let u := ((regionSites r).filter (fun s => m.fence s == 0)).length
  { m with desc := { m.desc with usable := Tab.set m.desc.usable r u, short := put m.desc.short r r (b2n (decide (u < 1000)))
                                 gen := m.desc.gen + 1 } }

/-- CORE_FENCED for a site (Table 14.18). -/
def coreFenced (site code : Nat) (withdrawn : Bool) (m : Mod) : Mod :=
  raiseEvent 0x09 (siteRegion site) 1 0 site (m.desc.gen.toNat * 2 ^ 32 + 4 * b2n withdrawn + code) 0 m

/-- The gang of a fenced site's core ended with CORE_FAILED (R616). -/
def failGang (site : Nat) (m : Mod) : Mod :=
  let r := siteRegion site
  let g := m.region r
  if g.run.running && (g.coreOf site).isSome then endPart r 3 (settleIssued r m) else m

/-- Whether a site is fully fenced. -/
def Mod.fullyFenced (m : Mod) (s : Nat) : Bool := m.mesh.bypassed s || m.fence s == 2

/-- Whether the ring of a site holds a fully fenced site (R621). -/
def Mod.ringBlocked (m : Mod) (site : Nat) : Bool :=
  (List.range 8).any (fun k => match ringSite site k with
    | some s => m.fullyFenced s
    | none => false)

/-- A router-only fence (R616, R618). -/
def fenceCoreOnly (site : Nat) (m : Mod) : Mod :=
  if m.fence site ≠ 0 ∨ m.mesh.removing.contains site then m
  else failGang site (coreFenced site 1 false (setFences (siteRegion site) [(site, 1)] m))

/-- Every running gang with a route through a site loses its cycle and tick promises (R622). -/
def voidRoutes (site : Nat) (m : Mod) : Mod :=
  (m.livePlacements.filter (fun p => !(passes (m.routeEnds p) site).isEmpty)).foldl (fun m p =>
    p.gangs.foldl (fun m g => if (m.region g.region).run.gang = g.id then (m.voidTicks g.region).voidCycles g.region else m) m) m

/-- The first stage of a full fence: the core gated, the bypass entries in effect (R619, R620, R622). -/
def fenceFull (site : Nat) (m : Mod) : Mod :=
  let m := { m with mesh := { m.mesh with removing := m.mesh.removing ++ [site] } }
  voidRoutes site (failGang site m)

/-- A region withdrawn until power-off (R621). -/
def withdrawRegion (site : Nat) (m : Mod) : Mod :=
  let r := siteRegion site
  let m := if (m.region r).run.running then endPart r 3 (settleIssued r m) else m
  let cs := ((regionSites r).filter (fun s => s == site || m.fence s == 0)).map (fun s => (s, 1))
  coreFenced site 1 true (setFences r cs m)

/-- A full fence on the fault path (R620, R621). -/
def fenceFault (site : Nat) (m : Mod) : Mod :=
  if m.fullyFenced site ∨ m.fence site = 3 then m
  else if m.ringBlocked site then
    if Tab.get m.desc.usable (siteRegion site) 0 = 0 ∧ m.fence site = 1 then m else withdrawRegion site m
  else fenceFull site m

/-- CORE_FAULT: a condition of Table 17.7 (R615, R616; log entry 62). -/
def coreFault (site : Nat) (cause : CoreFault) (m : Mod) : Mod :=
  if m.aon.state = .safeHold then m else
  let held : Bool := (m.region (siteRegion site)).run.running && ((m.region (siteRegion site)).coreOf site).isSome
  match cause with
  | .sram => if 2 ≤ Tab.get m.power.sramErrs site 0 then fenceCoreOnly site m else m
  | .broadcast => if held then fenceCoreOnly site m else m
  | .silent => if held then fenceCoreOnly site m else m
  | .stuckRouter => fenceFault site m

/-- ROUTER_PARITY_FAILURE: the router at the far end of an input that failed 16 times within the mark (R614, R615). -/
def routerParityFailure (site input : Nat) (m : Mod) : Mod :=
  if m.aon.state = .safeHold ∨ Tab.get m.mesh.parityMark (4 * site + input) 0 < 16 then m else
  match neighbour site input with
  | some s => fenceFault s m
  | none => m

/-- The messages with a flit in a router's buffers. -/
def Mesh.heldAt (n : Mesh) (site : Nat) : List Nat :=
  ((List.range 5).flatMap (fun i => (List.range 4).flatMap (fun c => (n.buf site i c).map (·.msg)))).eraseDups

/-- ROUTER_REMOVE: the router gone, with any flit it holds; its map entry becomes 0b10 (R620). -/
def routerRemove (site : Nat) (m : Mod) : Mod :=
  if !m.mesh.removing.contains site then m else
  let n := (m.mesh.heldAt site).foldl Mesh.drop m.mesh
  let m := { m with mesh := { n with removing := n.removing.filter (· != site), removed := n.removed ++ [site] } }
  coreFenced site 2 false (setFences (siteRegion site) [(site, 2)] m)

/-! ### Self-test (R23, R543, R69) -/

/-- Self-tests started in ascending region number while a place among the five is free (R543). -/
def startTests (m : Mod) : Mod :=
  let busy := (allRegions.filter (fun r => (m.region r).dom == .selfTest)).length
  let next := allRegions.filter (fun r => !bit m.desc.tested r && (m.region r).dom == .off)
  (next.take (5 - busy)).foldl (fun m r => m.onRegion r (fun g => { g with dom := .selfTest })) m

/-- SELF_TEST_DONE: a region's entries of the fence map written together and the domain left off. `cores` and `routers` mark
the in-region indices that passed; fences that may not be installed side by side withdraw the region (R23, R543, R621). -/
def selfTestDone (r : Nat) (cores routers : BitVec 1024) (m : Mod) : Mod :=
  if m.aon.state = .safeHold ∨ (m.region r).dom ≠ .selfTest then m else
  let site (i : Nat) : Nat := siteAt r i
  let bad := (List.range 1024).filter (fun i => !bit routers i)
  let m0 := bad.foldl (fun (a : Mod × Bool) i =>
    if a.1.ringBlocked (site i) then (a.1, true)
    else ({ a.1 with mesh := { a.1.mesh with removed := a.1.mesh.removed ++ [site i] } }, a.2)) (m, false)
  let m := m0.1
  let code (i : Nat) : Nat := if m.mesh.removed.contains (site i) then 2
    else if m0.2 || !bit cores i || !bit routers i then 1 else 0
  let m := { m with desc := { m.desc with tested := put m.desc.tested r r 1 } }
  let m := setFences r ((List.range 1024).map (fun i => (site i, code i))) m
  let m := clearRegion r m
  let m := m.onRegion r (fun g => { g with ack := g.pendingChange || g.ack })
  let m := if m0.2 then coreFenced (site (bad.headD 0)) 1 true m
    else ((List.range 1024).filter (fun i => code i != 0)).foldl (fun m i => coreFenced (site i) (code i) false m) m
  startTests m

/-! ### The commands -/

/-- CORE_FAULT. -/
def execCoreFault (site : Fin 25600) (cause : CoreFault) (s : State) : Host.Outcome State Fault Refusal :=
  s.runIf (Instr.wf (.coreFault site cause)) (coreFault site cause)

/-- ROUTER_PARITY_FAILURE. -/
def execRouterParityFailure (site : Fin 25600) (input : Fin 4) (s : State) : Host.Outcome State Fault Refusal :=
  s.runIf (Instr.wf (.routerParityFailure site input)) (routerParityFailure site input)

/-- ROUTER_REMOVE. -/
def execRouterRemove (site : Fin 25600) (s : State) : Host.Outcome State Fault Refusal :=
  s.runIf (Instr.wf (.routerRemove site)) (routerRemove site)

/-- SELF_TEST_DONE. -/
def execSelfTestDone (r : Fin 25) (cores routers : BitVec 1024) (s : State) : Host.Outcome State Fault Refusal :=
  s.runIf (Instr.wf (.selfTestDone r cores routers)) (selfTestDone r cores routers)

end Sys2Proof.Machine
end

