-- ==== Sys2Proof/Machine/Mailbox.lean ====
section
/-!
DEFINITION. Machine/Mailbox.lean: posting a request, the general checks, the answer and the start of a long-running command,
and who may name what (spec/14_tirix.md R498 to R512, R538; log entry 3).
-/

namespace Sys2Proof

/-- A request's mailbox number. -/
def Req.no (q : Req) : Nat := q.mb.val

/-- A field of a request body: `k` bytes at offset `o`. -/
def Req.fld (q : Req) (o k : Nat) : Nat := Machine.fld q.body o k

/-- Whether a request body has a command's size, padded to whole words (log entry 41). -/
def Req.size (q : Req) (n : Nat) : Bool := q.body.length == (n + 3) / 4 * 4

end Sys2Proof

namespace Sys2Proof.Machine

open Sys2Proof

/-! ### Status codes (Table 14.19) -/

def eUnknown : Nat := 0x0100
def eLength : Nat := 0x0101
def eSession : Nat := 0x0102
def eAuth : Nat := 0x0103
def eSignature : Nat := 0x0104
def eLimit : Nat := 0x0105
def eTiming : Nat := 0x0106
def eEnvelope : Nat := 0x0107
def ePlacement : Nat := 0x0108
def eResource : Nat := 0x0109
def eState : Nat := 0x010A
def eStock : Nat := 0x010B
def eSafeHold : Nat := 0x010C
def eRoughCut : Nat := 0x010D
def eBusy : Nat := 0x010E

/-! ### Callers (Table 14.6, Table 14.7) -/

/-- The session bound to a mailbox. -/
def Mod.sessionOn (m : Mod) (mb : Nat) : Option Session := m.sessions.find? (fun s => s.mb == mb)

/-- The kind of a mailbox: 0 none, 1 owner, 2 ordinary, 3 debug, 4 pre-owner (Table 14.8, HELLO.MBOX). -/
def Mod.kindOf (m : Mod) (mb : Nat) : Nat :=
  match m.sessionOn mb with
  | some s => s.kind
  | none => if mb = 0 then 4 else 0

/-- The session identifier of a mailbox, 0 when none is bound. -/
def Mod.sessId (m : Mod) (mb : Nat) : Nat :=
  match m.sessionOn mb with
  | some s => s.id
  | none => 0

/-- Whether a mailbox's session holds a right of Table 14.6. -/
def Mod.holds (m : Mod) (mb right : Nat) : Bool :=
  match m.sessionOn mb with
  | some s => bit s.rights right
  | none => false

/-- Whether a mailbox's session may act on an object of a session: its own only (R509, R510). -/
def Mod.owns (m : Mod) (mb sess : Nat) : Bool := m.sessId mb == sess && sess != 0

/-- Whether a debug session's DEBUG right reaches a session (Table 14.6, OPEN_SESSION.SCOPE; log entry 56). -/
def Mod.debugs (m : Mod) (mb sess : Nat) : Bool :=
  match m.sessionOn mb with
  | some s => s.kind == 3 && bit s.rights 4 && (s.scope == 0 || s.scope.toNat == sess)
  | none => false

/-- Whether a mailbox's session may observe the gangs of a session (Table 14.6, R509). -/
def Mod.observes (m : Mod) (mb sess : Nat) : Bool :=
  (m.holds mb 2 && (m.owns mb sess || m.kindOf mb == 1)) || m.debugs mb sess

/-- Whether a mailbox's session may observe a gang; an identifier that names no gang passes (R502; log entry 56). -/
def Mod.observesGang (m : Mod) (mb gang : Nat) : Bool :=
  match m.placementOf gang with
  | some p => m.observes mb p.session
  | none => m.holds mb 2 || (m.kindOf mb == 3 && m.holds mb 4)

/-- The sessions whose gangs occupy a region or were the last to occupy it. -/
def Mod.occupants (m : Mod) (r : Nat) : List Nat :=
  (if (m.region r).run.gang = 0 then [] else [(m.region r).run.session]) ++
    (m.placements.filter (fun p => p.gangs.any (fun g => g.region == r))).map (·.session)

/-- Whether a mailbox's session may observe a region. -/
def Mod.observesRegion (m : Mod) (mb r : Nat) : Bool :=
  (m.holds mb 2 && m.kindOf mb == 1) || (m.occupants r).any (fun s => m.observes mb s)

/-- Whether a mailbox's session may act on a placement; an identifier that names none passes (R502). -/
def Mod.ownsPlacement (m : Mod) (mb g0 : Nat) : Bool :=
  match m.placement g0 with
  | some p => m.owns mb p.session
  | none => true

/-- Whether a mailbox's session may act on an image; an identifier that names none passes (R502). -/
def Mod.ownsImage (m : Mod) (mb i : Nat) : Bool :=
  match m.image i with
  | some x => m.owns mb x.session
  | none => true

/-! ### What a command answers -/

/-- A command's outcome once its general checks pass: the module after it, its status and response body; for a long-running
command what it goes on doing, or the completion it reaches at once. -/
structure Ans where
  m : Mod
  status : Nat := 0
  body : List Byte := []
  job : Option JobKind := none
  done : Option (Nat × List Byte) := none

/-- A command of Table 14.7: its code, the session kinds and states that permit it, the checks of Table 14.5 that are its own,
and what it does. `states` lists the permitted states; `long` says whether a request is long-running. -/
structure Cmd where
  code : Nat
  kinds : List Nat
  states : List ModState := [.roughCut, .full, .standby]
  lengthOk : Mod → Req → Bool
  rights : Mod → Req → Bool := fun _ _ => true
  long : Mod → Req → Bool := fun _ _ => false
  run : Req → Mod → Ans

/-- The states of a command's R F T H column. -/
def statesRFTH : List ModState := [.roughCut, .full, .standby, .safeHold]
def statesFT : List ModState := [.full, .standby]

/-- The status of the state check (Table 14.5). -/
def stateStatus (s : ModState) : Nat :=
  match s with
  | .safeHold => eSafeHold
  | .roughCut => eRoughCut
  | _ => eState

/-- The general checks of Table 14.5 after the command's: 0, or the status of the first that fails (R502). -/
def Cmd.check (c : Cmd) (q : Req) (m : Mod) : Nat :=
  if !c.kinds.contains (m.kindOf q.no) then eSession
  else if !c.states.contains m.aon.state then stateStatus m.aon.state
  else if !c.lengthOk m q then eLength
  else if !c.rights m q then eAuth
  else if c.long m q && m.long q.no then eBusy
  else 0

/-! ### Posting and answering (R499 to R504, R507, R508) -/

/-- Whether a mailbox takes no writes: OFF, MB31, and MB1 to MB31 in SAFE_HOLD (Table 14.1, R508). -/
def Mod.deaf (m : Mod) (mb : Nat) : Bool :=
  m.aon.state == .off || decide (30 < mb) || (m.aon.state == .safeHold && mb != 0)

/-- Whether Tirix serves requests: once it runs, and not under causes 0x07 and 0x08 (R501, R611). -/
def Mod.serving (m : Mod) : Bool := m.aon.tirixRunning && !bit m.aon.heldCauses 7 && !bit m.aon.heldCauses 8

/-- The request area written, and SEQ := ACK + 1 (R499). -/
def postRequest (code : Nat) (q : Req) (m : Mod) : Mod :=
  m.onMailbox q.no (fun b => { b with
    reqCommand := BitVec.ofNat 16 code, reqFlags := q.flags, reqLength := BitVec.ofNat 32 q.body.length
    reqTag := q.tag, reqBody := q.body ++ b.reqBody.drop q.body.length, seq := b.ack + 1 })

/-- The request in a mailbox's request area answered: response, STATUS, ACK last, then the vector (R500, R507). -/
def answerPosted (mb status : Nat) (body : List Byte) (m : Mod) : Mod :=
  let b := m.mailbox mb
  let m := m.onMailbox mb (fun b => { b with
    rspCommand := b.reqCommand, rspStatus := BitVec.ofNat 16 status, rspLength := BitVec.ofNat 32 body.length
    rspTag := b.reqTag, rspBody := body, status := BitVec.ofNat 32 status, ack := b.seq })
  if b.irq && !bit b.reqFlags 0 then sendMsix mb m else m

/-- A long-running command begun: LONG set before the answer (R503). -/
def addJob (c : Cmd) (q : Req) (k : JobKind) (m : Mod) : Mod :=
  { m with jobs := m.jobs ++ [{ mb := q.no, session := m.sessId q.no, seq := (m.mailbox q.no).seq
                                command := BitVec.ofNat 16 c.code, tag := q.tag, quiet := bit q.flags 0, kind := k }] }

/-- The job a request began, completed at once. -/
def completeNow (q : Req) (c : Cmd) (x : Nat × List Byte) (m : Mod) : Mod :=
  match m.jobs.find? (fun j => j.mb == q.no && j.command.toNat == c.code && j.seq == (m.mailbox q.no).seq) with
  | some j => completeJob j x.1 x.2 m
  | none => m

/-- A request that has been posted, served: checked, carried out and answered. -/
def serveCmd (c : Cmd) (q : Req) (m : Mod) : Mod :=
  let st := c.check q m
  if st ≠ 0 then answerPosted q.no st [] m else
  let a := c.run q m
  match a.job with
  | some k =>
    let m := answerPosted q.no 1 [] (addJob c q k a.m)
    match a.done with
    | some x => completeNow q c x m
    | none => m
  | none => answerPosted q.no a.status a.body a.m

/-- A mailbox command: its request posted, and served when Tirix serves requests; otherwise it waits (R500, R501). -/
def mailboxCmd (c : Cmd) (q : Req) (m : Mod) : Mod :=
  if m.deaf q.no then m else
  let m := postRequest c.code q m
  if m.serving then serveCmd c q m else m

/-- MAILBOX_UNKNOWN_COMMAND: a code that Table 14.7 does not hold (Table 14.5). -/
def unknownCmd (code : Nat) (q : Req) (m : Mod) : Mod :=
  if m.deaf q.no then m else
  let m := postRequest code q m
  if m.serving then answerPosted q.no eUnknown [] m else m

/-- The requests that wait in some mailboxes answered with one status (R501, R508). -/
def answerWaiting (mbs : List Nat) (status : Nat) (m : Mod) : Mod :=
  mbs.foldl (fun m b => if (m.mailbox b).seq = (m.mailbox b).ack then m else answerPosted b status [] m) m

/-- A long-running command outstanding on a mailbox, of one kind. -/
def Mod.jobOn (m : Mod) (mb : Nat) (f : JobKind → Bool) : Option Job := m.jobs.find? (fun j => j.mb == mb && f j.kind)

/-- A failing answer: nothing changed. -/
def Ans.fail (m : Mod) (status : Nat) : Ans := { m := m, status := status }

end Sys2Proof.Machine
end

