-- ==== Sys2Proof/Machine/Bringup.lean ====
section
/-!
DEFINITION. Machine/Bringup.lean: module states, pins, power inputs, firmware verification, bring-up tasks and the causes of
safe hold (spec/15_bringup.md R539 to R559; spec/17_faults.md R605, R611; spec/18_hardware.md R627 to R653).
-/

namespace Sys2Proof.Machine

open Sys2Proof

/-! ### Pins -/

def Mod.onPins (m : Mod) (f : Pins → Pins) : Mod := { m with aon := { m.aon with pins := f m.aon.pins } }

/-- The module unpowered: what the outside drives stays, and host memory (R539, R540). -/
def Mod.powerOff (m : Mod) : Mod :=
  let p := m.aon.pins
  let pins : Pins := { pwrgdMain := p.pwrgdMain, flowOk := p.flowOk, holdIn := p.holdIn, syncHigh := p.syncHigh
                       perst := p.perst, precharged := p.precharged }
  { b0 := m.b0, freeCtr := m.freeCtr + 1, aon := { pins := pins }, host := { mem := m.host.mem } }

/-- PWRGD_AUX_ASSERT: the straps sampled; AON measures the reference (R643, R648). -/
def pwrgdAuxAssert (x8 : Bool) (smb : BitVec 2) (m : Mod) : Mod :=
  if m.aon.state = .off ∧ !m.aon.pins.pwrgdAux then
    m.onPins (fun p => { p with pwrgdAux := true, bifurcated := x8, smbAddr := smb })
  else m

/-- AUX_ENTRY: every count and setting at its reset value, the story stick at 0, the reference selected (R9, R33, R551, R649,
Table 15.2). -/
def auxEntry (external : Bool) (m : Mod) : Mod :=
  let p := m.aon.pins
  if m.aon.state ≠ .off ∨ !p.pwrgdAux then m else
  let n := m.freeCtr
  let pins : Pins := { p with refExternal := external, mainSeen := p.pwrgdMain, flowSince := if p.flowOk then some 0 else none
                              refSince := some 0, fault := false, thermAlert := false, syncOut := false }
  { b0 := m.b0, freeCtr := n + 1, aon := { state := .aux, pins := pins }, host := { mem := m.host.mem }
    bringup := { bootImage := Mem.undef n } }

/-- BOOT_ENTRY: the ROM's self-check completes; a PERST_N deasserted earlier takes effect now (R540, R652). -/
def bootEntry (m : Mod) : Mod :=
  if m.aon.state = .aux then { m with aon := { m.aon with state := .boot }, bringup := { m.bringup with pcieReady := !m.aon.pins.perst } }
  else m

/-- PERST_N: the host function reset, with MSI-X disabled and the DOE exchange under way dropped, or released (R541, R638,
R652; log entry 39). -/
def perstN (asserted clockA clockB : Bool) (m : Mod) : Mod :=
  if asserted then
    { m.onPins (fun p => { p with perst := true }) with
      host := { m.host with msixOn := false, bar2Wait := [] }, ident := { m.ident with doe := {} }
      bringup := { m.bringup with pcieReady := false } }
  else
    { m.onPins (fun p => { p with perst := false, commonClockA := clockA, commonClockB := clockB }) with
      bringup := { m.bringup with pcieReady := m.aon.state != .off && m.aon.state != .aux } }

/-! ### Firmware (R547 to R550) -/

/-- The size of the boot window's image area. -/
def maxImage : Nat := 50327552

/-- BOOT_GO: in BOOT, the value 1 counts an attempt and enters VERIFY, where the ROM copies the image (R540, R547, R549). -/
def bootGo (v : W32) (m : Mod) : Mod :=
  if m.aon.state ≠ .boot ∨ v ≠ 1 then m else
  let b := m.bringup
  { m with aon := { m.aon with state := .verify }
           bringup := { b with bootAttempts := if b.bootAttempts = 0xFFFF then b.bootAttempts else b.bootAttempts + 1
                               bootCopy := some (b.bootLength.toNat, b.bootImage), verified := false } }

/-- The RESULT of verification (Table 15.6). -/
def verifyResult (b0 : Bool) (len : Nat) (img : Mem 8) : Nat :=
  let h := img.bytes 0 0x1000
  let body := fld h 0x10 4
  let zero (o k : Nat) : Bool := (slice h o k).all (· == 0)
  if len ≠ 0x1000 + body ∨ maxImage < len then 1
  else if fld h 0 4 ≠ 0x57464B57 ∨ fld h 4 2 ≠ 1 ∨ !(zero 0x0E 2 && zero 0x18 0x28 && zero 0x44 0x3C && zero 0x480 0xB80) ∨
      body ≤ fld h 0x14 4 then 2
  else if fld h 6 2 ≠ (if b0 then 0xB0 else 0xA1) then 3
  else if sha512 (slice h 0x40 4 ++ slice h 0x80 512) ≠ Config.rootDigest b0 then 4
  else if !pssVerify (fld h 0x40 4) (fld h 0x80 512) (slice h 0 0x280 ++ img.bytes 0x1000 body) (slice h 0x280 512).reverse then 5
  else if fld h 0x0C 2 < (Config.romMinSvn b0).toNat then 6
  else 0

/-- VERIFY_DONE: back to BOOT with RESULT and the window's contents undefined, or Tirix started (R549, R550). -/
def verifyDone (m : Mod) : Mod :=
  match m.bringup.bootCopy with
  | none => m
  | some (len, img) =>
    if m.aon.state ≠ .verify ∨ m.bringup.verified then m else
    let res := verifyResult m.b0 len img
    if res ≠ 0 then
      { m with aon := { m.aon with state := .boot }, freeCtr := m.freeCtr + 1
               bringup := { m.bringup with bootResult := BitVec.ofNat 8 res, bootCopy := none, bootImage := Mem.undef m.freeCtr
                                           bootLength := Config.undefined 32 m.freeCtr (2 ^ 26) } }
    else
      let h := img.bytes 0 0x1000
      { m with aon := { m.aon with fwVersion := BitVec.ofNat 32 (fld h 8 4), svn := BitVec.ofNat 16 (fld h 0x0C 2) }
               ident := { m.ident with fwDigest := sha512 (slice h 0 0x480 ++ img.bytes 0x1000 (fld h 0x10 4)) }
               bringup := { m.bringup with verified := true, bootCopy := none } }

/-! ### Bring-up tasks (Table 15.3) -/

/-- Region, stock and LINK domains powered once PWRGD_MAIN and TIRIX_RUNNING both hold and pre-charge is complete (R542 to
R545, R627). -/
def startDomains (m : Mod) : Mod :=
  if m.aon.tirixRunning ∧ m.aon.pins.pwrgdMain ∧ m.aon.pins.precharged ∧ !m.bringup.link ∧ m.aon.state = .verify then
    let m := { m with bringup := { m.bringup with link := true, west := .training, east := .training } }
    startTests ((List.range 24).foldl (fun m p => setPortState p .training 0 m) m)
  else m

/-- TIRIX_RUNNING: the requests posted before it are answered with E_STATE (R501, R542, R550). -/
def tirixRuns (m : Mod) : Mod :=
  if m.aon.state = .verify ∧ m.bringup.verified ∧ !m.aon.tirixRunning then
    startDomains (answerWaiting (List.range 31) eState { m with aon := { m.aon with tirixRunning := true } })
  else m

/-- PWRGD_MAIN_ASSERT (R542). -/
def pwrgdMainAssert (m : Mod) : Mod :=
  startDomains (m.onPins (fun p => { p with pwrgdMain := true, mainSeen := p.mainSeen || m.aon.state != .off }))

/-- PRECHARGE (R627). -/
def precharge (m : Mod) : Mod := startDomains (m.onPins (fun p => { p with precharged := true }))

/-- STOCK_TRAINING_DONE: a device trained, or failed and retried once; its edge is trained when each of its devices has
passed or failed twice (R544). -/
def stockTrainingDone (dev : Nat) (passed : Bool) (m : Mod) : Mod :=
  let east : Bool := decide (16 ≤ dev)
  let st := if east then m.bringup.east else m.bringup.west
  if st ≠ .training ∨ bit m.desc.stockTrained dev ∨ 2 ≤ Tab.get m.bringup.devFails dev 0 then m else
  let m := if passed then { m with desc := { m.desc with stockTrained := sticky m.desc.stockTrained dev, gen := m.desc.gen + 1 } }
    else { m with bringup := { m.bringup with devFails := Tab.upd m.bringup.devFails dev 0 (· + 1) } }
  let ds := (List.range 16).map (fun i => i + (if east then 16 else 0))
  let done := ds.all (fun d => bit m.desc.stockTrained d || decide (2 ≤ Tab.get m.bringup.devFails d 0)) &&
    ds.any (fun d => bit m.desc.stockTrained d)
  if done then { m with bringup := { m.bringup with west := if east then m.bringup.west else .on
                                                    east := if east then .on else m.bringup.east } }
  else m

/-- NARROW_PAGE_AREA_SET_UP of a trained edge (Table 15.3). -/
def narrowSetUp (east : Bool) (m : Mod) : Mod :=
  if east then (if m.bringup.east = .on then { m with bringup := { m.bringup with narrowEast := true } } else m)
  else if m.bringup.west = .on then { m with bringup := { m.bringup with narrowWest := true } } else m

/-- The conditions of R557. -/
def roughCutReady (m : Mod) : Bool :=
  m.aon.tirixRunning && allRegions.any (fun r => bit m.desc.tested r && Tab.get m.desc.usable r 0 != 0) &&
    (List.range 32).any (fun d => bit m.desc.stockTrained d && (if 16 ≤ d then m.bringup.narrowEast else m.bringup.narrowWest))

/-- The conditions of R558. -/
def fullReady (m : Mod) : Bool :=
  m.desc.tested == 0x1FFFFFF && m.desc.stockTrained == 0xFFFFFFFF && m.bringup.settled == 0xFFFFFF &&
    m.jobs.all (fun j => match j.kind with
      | .puf _ => false
      | _ => true)

/-- ROUGH_CUT and FULL entered at a mark; on FULL the envelope replaces the bring-up limit and REACH is computed (R557 to
R559). -/
def markEntries (m : Mod) : Mod :=
  if m.aon.state = .verify ∧ roughCutReady m then { m with aon := { m.aon with state := .roughCut } }
  else if m.aon.state = .roughCut ∧ fullReady m then lowerLimit (touchTopo m { m with aon := { m.aon with state := .full } })
  else m

/-! ### Causes of safe hold (R598, R605, R611) -/

/-- PWRGD_MAIN_DEASSERT: after its first assertion, main input is lost (R542, R598). -/
def pwrgdMainDeassert (m : Mod) : Mod :=
  let seen := m.aon.pins.mainSeen
  let m := m.onPins (fun p => { p with pwrgdMain := false })
  if seen then enterSafeHold 4 m else m

/-- MAIN_UNDERVOLTAGE (R598); before the first PWRGD_MAIN the absence of main input is no loss (R542). -/
def mainUndervoltage (m : Mod) : Mod :=
  let seen := m.aon.pins.mainSeen
  let m := m.onPins (fun p => { p with precharged := false })
  if seen then enterSafeHold 4 m else m

/-- FLOW_LOSS (R598). -/
def flowLoss (m : Mod) : Mod := enterSafeHold 3 (m.onPins (fun p => { p with flowOk := false, flowSince := none }))

/-- FLOW_OK_ASSERT: the unbroken second of Table 17.5 begins. -/
def flowOkAssert (m : Mod) : Mod :=
  m.onPins (fun p => { p with flowOk := true, flowSince := if p.flowOk then p.flowSince else some m.aon.stick.toNat })

/-- HOLD_IN (R605). -/
def holdIn (m : Mod) : Mod := enterSafeHold 1 (m.onPins (fun p => { p with holdIn := true }))

/-- HOLD_IN_RELEASE (Table 17.5). -/
def holdInRelease (m : Mod) : Mod := m.onPins (fun p => { p with holdIn := false })

/-- REFERENCE_LOST (R650). -/
def referenceLost (m : Mod) : Mod := enterSafeHold 5 (m.onPins (fun p => { p with refSince := none }))

/-- REFERENCE_RESTORED: the unbroken millisecond of Table 17.5 begins. -/
def referenceRestored (m : Mod) : Mod :=
  m.onPins (fun p => { p with refSince := if p.refSince.isSome then p.refSince else some m.aon.stick.toNat })

/-- SAFE_HOLD_ENTRY under a cause of Table 14.3 (R605, R606). -/
def safeHoldEntry (cause : Nat) (m : Mod) : Mod := if 1 ≤ cause ∧ cause ≤ 8 then enterSafeHold cause m else m

/-! ### The commands -/

/-- PWRGD_AUX_ASSERT. -/
def execPwrgdAuxAssert (x8 : Bool) (smb : BitVec 2) (s : State) : Host.Outcome State Fault Refusal :=
  s.runIf (Instr.wf (.pwrgdAuxAssert x8 smb)) (pwrgdAuxAssert x8 smb)

/-- AUX_ENTRY. -/
def execAuxEntry (external : Bool) (s : State) : Host.Outcome State Fault Refusal :=
  s.runIf (Instr.wf (.auxEntry external)) (auxEntry external)

/-- BOOT_ENTRY. -/
def execBootEntry (s : State) : Host.Outcome State Fault Refusal := s.runIf (Instr.wf .bootEntry) bootEntry

/-- BOOT_GO. -/
def execBootGo (value : W32) (s : State) : Host.Outcome State Fault Refusal := s.runIf (Instr.wf (.bootGo value)) (bootGo value)

/-- VERIFY_DONE. -/
def execVerifyDone (s : State) : Host.Outcome State Fault Refusal := s.runIf (Instr.wf .verifyDone) verifyDone

/-- TIRIX_RUNNING. -/
def execTirixRunning (s : State) : Host.Outcome State Fault Refusal := s.runIf (Instr.wf .tirixRunning) tirixRuns

/-- PWRGD_MAIN_ASSERT. -/
def execPwrgdMainAssert (s : State) : Host.Outcome State Fault Refusal := s.runIf (Instr.wf .pwrgdMainAssert) pwrgdMainAssert

/-- PWRGD_MAIN_DEASSERT. -/
def execPwrgdMainDeassert (s : State) : Host.Outcome State Fault Refusal :=
  s.runIf (Instr.wf .pwrgdMainDeassert) pwrgdMainDeassert

/-- MAIN_UNDERVOLTAGE. -/
def execMainUndervoltage (s : State) : Host.Outcome State Fault Refusal := s.runIf (Instr.wf .mainUndervoltage) mainUndervoltage

/-- PRECHARGE. -/
def execPrecharge (s : State) : Host.Outcome State Fault Refusal := s.runIf (Instr.wf .precharge) precharge

/-- FLOW_LOSS. -/
def execFlowLoss (s : State) : Host.Outcome State Fault Refusal := s.runIf (Instr.wf .flowLoss) flowLoss

/-- FLOW_OK_ASSERT. -/
def execFlowOkAssert (s : State) : Host.Outcome State Fault Refusal := s.runIf (Instr.wf .flowOkAssert) flowOkAssert

/-- HOLD_IN. -/
def execHoldIn (s : State) : Host.Outcome State Fault Refusal := s.runIf (Instr.wf .holdIn) holdIn

/-- HOLD_IN_RELEASE. -/
def execHoldInRelease (s : State) : Host.Outcome State Fault Refusal := s.runIf (Instr.wf .holdInRelease) holdInRelease

/-- REFERENCE_LOST. -/
def execReferenceLost (s : State) : Host.Outcome State Fault Refusal := s.runIf (Instr.wf .referenceLost) referenceLost

/-- REFERENCE_RESTORED. -/
def execReferenceRestored (s : State) : Host.Outcome State Fault Refusal :=
  s.runIf (Instr.wf .referenceRestored) referenceRestored

/-- CTRL_MEMORY_UNCORRECTABLE (R605). -/
def execCtrlMemoryUncorrectable (s : State) : Host.Outcome State Fault Refusal :=
  s.runIf (Instr.wf .ctrlMemoryUncorrectable) (enterSafeHold 8)

/-- SAFE_HOLD_ENTRY. -/
def execSafeHoldEntry (cause : Byte) (s : State) : Host.Outcome State Fault Refusal :=
  s.runIf (Instr.wf (.safeHoldEntry cause)) (safeHoldEntry cause.toNat)

/-- AUX_POWER_LOSS (R540, R632). -/
def execAuxPowerLoss (s : State) : Host.Outcome State Fault Refusal := s.runIf (Instr.wf .auxPowerLoss) Mod.powerOff

/-- PERST_N. -/
def execPerstN (asserted clockA clockB : Bool) (s : State) : Host.Outcome State Fault Refusal :=
  s.runIf (Instr.wf (.perstN asserted clockA clockB)) (perstN asserted clockA clockB)

/-- NARROW_PAGE_AREA_SET_UP. -/
def execNarrowPageAreaSetUp (east : Bool) (s : State) : Host.Outcome State Fault Refusal :=
  s.runIf (Instr.wf (.narrowPageAreaSetUp east)) (narrowSetUp east)

/-- STOCK_TRAINING_DONE. -/
def execStockTrainingDone (dev : Fin 32) (passed : Bool) (s : State) : Host.Outcome State Fault Refusal :=
  s.runIf (Instr.wf (.stockTrainingDone dev passed)) (stockTrainingDone dev passed)

end Sys2Proof.Machine
end

