-- ==== Sys2Proof/Machine/Digest.lean ====
section
/-!
DEFINITION. Machine/Digest.lean: the records of digest boundaries and the digest ring (spec/13_determinism.md R479 to R486).
-/

namespace Sys2Proof.Machine

open Sys2Proof

/-! ### The ring (Table 13.3, Table 13.4) -/

/-- The ring header. -/
def ringHeader (g : DigRing) : List Byte :=
  le 4 0x4744574B ++ le 2 1 ++ zeros 2 ++ le 4 g.bytes ++ bytesOf g.overwrites 4 ++ bytesOf g.written 8 ++ bytesOf g.records 8 ++ zeros 32

/-- A record header. -/
def recHeader (kind part region flags len : Nat) (seq layer step stick digest rows : W64) (cores mask : Nat) : List Byte :=
  [BitVec.ofNat 8 kind, BitVec.ofNat 8 part, BitVec.ofNat 8 region, BitVec.ofNat 8 flags] ++ le 4 len ++ bytesOf seq 8 ++
    bytesOf layer 8 ++ bytesOf step 8 ++ bytesOf stick 8 ++ bytesOf digest 8 ++ bytesOf rows 8 ++ le 2 cores ++ zeros 2 ++ le 4 mask

/-- The length a body of some bytes gives a record: a multiple of 64 (R482, R485). -/
def recLength (body : Nat) : Nat := 64 + (body + 63) / 64 * 64

/-- Bytes placed at the next place of the record area, the records they overwrite counted (R482). -/
def digestPut (bs : List Byte) (counted : Bool) (x : Mod × DigRing) : Mod × DigRing :=
  let (m, g) := x
  let w := g.written.toNat
  let keep := g.starts.filter (fun s => decide (w + bs.length ≤ s + g.bytes))
  (m.stockWrite g.session (g.sa + 0x40 + w % g.bytes) bs,
   { g with written := g.written + BitVec.ofNat 64 bs.length, starts := keep ++ (if counted then [w] else [])
            overwrites := g.overwrites + BitVec.ofNat 32 (g.starts.length - keep.length)
            records := if counted then g.records + 1 else g.records })

/-- A record written, after a pad when it does not fit before the end of the area; the header's counts last (R482, R484). -/
def ringRecord (f : Nat → W64 → List Byte) (body : List Byte) (m : Mod) (g : DigRing) : Mod × DigRing :=
  let n := recLength body.length
  let room := g.bytes - g.written.toNat % g.bytes
  let x := if room < n then digestPut ([(0 : Byte), 0, 0, 0] ++ le 4 room ++ zeros (room - 8)) false (m, g) else (m, g)
  let hdr := f n x.2.records
  let (m, g) := digestPut (hdr ++ body ++ zeros (n - 64 - body.length)) true x
  (m.stockWrite g.session g.sa (ringHeader g), g)

/-! ### Region and module records (R479, R480) -/

/-- Words fed to a CRC from all ones (R479). -/
def digestWords (l : List W64) : W64 := crcFinish (crcFeed 0xFFFFFFFFFFFFFFFF#64 (l.flatMap (fun w => bytesOf w 8)))

/-- The digest and row count a core's interval closed with at a boundary (R475). -/
def coreDigest (c : Core) (pos : Nat) : W64 × W64 :=
  match c.dig.closed.find? (fun x => x.1 == pos) with
  | some x => (crcFinish x.2.1, x.2.2)
  | none => (0, 0)

/-- A region record: its ring bytes written, what a module record needs of it kept, its snapshot freed (R476, R479, R485). -/
def writeRegionRec (r : Nat) (s : Snapshot) (p : Placement) (ring : DigRing) (m : Mod) : Mod :=
  let g := m.region r
  let m := g.site.foldl (fun m k => m.onCore k (fun c => { c with dig := closeDigest c.dig [s.pos] s.pos })) m
  let ds := g.site.map (fun k => coreDigest (m.core k) s.pos)
  let dig := digestWords (ds.flatMap (fun x => [x.1, x.2]))
  let rows := ds.foldl (fun a x => a + x.2) 0
  let (m, ring) := ringRecord (fun n seq => recHeader 1 g.decl.part r s.flags.toNat n seq s.layer s.g s.stick dig rows g.site.length 0)
    (ds.flatMap (fun x => bytesOf x.1 8)) m ring
  let m := g.site.foldl (fun m k => m.onCore k (fun c => { c with dig := { c.dig with closed := c.dig.closed.filter (fun x => x.1 != s.pos) } })) m
  let m := m.onRegion r (fun g => { g with dig := { g.dig with pending := g.dig.pending.drop 1, recordsWritten := g.dig.recordsWritten + 1 } })
  m.setPlacement { p with ring := some ring, regionRecs := p.regionRecs ++
    [{ layer := s.layer, part := g.decl.part, digest := dig, rows := rows, flags := s.flags, step := s.g, stick := s.stick }] }

/-- Whether every part of a placement has taken a layer's boundary and written it, or ended before taking it (R480). -/
def layerDone (m : Mod) (p : Placement) (l : W64) : Bool :=
  p.gangs.all (fun g => p.regionRecs.any (fun x => x.layer == l && x.part == g.part) ||
    (g.started && !g.running && g.saved.isNone &&
      ((m.region g.region).run.gang != g.id || (m.region g.region).dig.pending.all (fun s => s.layer != l))))

/-- The module record that is due, if one is: that of the lowest layer every part has settled; none once a gang has ended with
SAFE_HOLD (R478, R480). -/
def moduleDue (m : Mod) (p : Placement) : Option W64 :=
  if p.gangs.any (fun g => g.status == 6) then none else
  ((p.regionRecs.map (·.layer)).filter (layerDone m p)).foldl (fun a l => match a with
    | some b => some (if l.toNat < b.toNat then l else b)
    | none => some l) none

/-- A module record written by the region that completed it (R480). -/
def writeModuleRec (r : Nat) (l : W64) (p : Placement) (ring : DigRing) (m : Mod) : Mod :=
  let rs := sortBy (fun a b => decide (a.part ≤ b.part)) (p.regionRecs.filter (fun x => x.layer == l))
  let dig := digestWords (rs.flatMap (fun x => [x.digest, x.rows]))
  let flags := rs.foldl (fun a x => a ||| x.flags) 0
  let rows := rs.foldl (fun a x => a + x.rows) 0
  let stick := rs.foldl (fun a x => max a x.stick.toNat) 0
  let step := (rs.head?.map (·.step)).getD 0
  let mask := rs.foldl (fun a x => a + 2 ^ x.part) 0
  let (m, ring) := ringRecord (fun n seq => recHeader 2 rs.length 0xFF flags.toNat n seq l step (BitVec.ofNat 64 stick) dig rows 0 mask) [] m ring
  let m := m.onRegion r (fun g => { g with dig := { g.dig with recordsWritten := g.dig.recordsWritten + 1 } })
  m.setPlacement { p with ring := some ring, regionRecs := p.regionRecs.filter (fun x => x.layer != l) }

/-- Whether a ring's pages can be written now. -/
def Mod.ringOpen (m : Mod) (g : DigRing) : Bool := decide (0 < g.bytes) && m.rangeOk g.session g.sa (0x40 + g.bytes) true true

/-- DIGEST_RECORD_WRITE: the region record of the oldest boundary whose earlier bundles have all executed, and the module
record that is then due. -/
def digestRecordWrite (r : Nat) (m : Mod) : Mod :=
  match m.placementOf (m.region r).run.gang with
  | none => m
  | some p =>
    match p.ring with
    | none => m
    | some ring =>
      if !m.ringOpen ring ∨ m.aon.state = .safeHold then m else
      let g := m.region r
      let m := match g.dig.pending with
        | s :: _ => if g.seq.pipe.all (fun b => decide (s.pos ≤ b.pos)) then writeRegionRec r s p ring m else m
        | [] => m
      match m.placement p.g0 with
      | none => m
      | some p =>
        match moduleDue m p, p.ring with
        | some l, some ring => writeModuleRec r l p ring m
        | _, _ => m

/-! ### The commands -/

/-- DIGEST_RECORD_WRITE. -/
def execDigestRecordWrite (r : Fin 25) (s : State) : Host.Outcome State Fault Refusal :=
  s.runIf (Instr.wf (.digestRecordWrite r)) (digestRecordWrite r)

end Sys2Proof.Machine
end

