-- ==== Sys2Proof/Machine/Release.lean ====
section
/-!
DEFINITION. Machine/Release.lean: fresh identifiers, and releasing placements, images, stock and sessions
(spec/14_tirix.md R509, R511, R520 to R522).
-/

namespace Sys2Proof.Machine

open Sys2Proof

/-- The first of the identifiers 1 to 65,535 from `next` on, cyclically, with `k` in a row that are not in use (log entry
15). -/
def freshIds (next k : Nat) (used : List Nat) : Option Nat :=
  let ok (i : Nat) : Bool := decide (i + k ≤ 65536) && (List.range k).all (fun j => !used.contains (i + j))
  ((List.range' next (65536 - next)).find? ok).orElse (fun _ => (List.range' 1 (next - 1)).find? ok)

/-- The gang identifiers in use. -/
def Mod.gangIds (m : Mod) : List Nat := m.placements.flatMap (fun p => p.gangs.map (·.id))

/-- A placement released: its regions, save area and gang identifiers are free (R522). -/
def releasePlacement (g0 : Nat) (m : Mod) : Mod := { m with placements := m.placements.filter (fun p => p.g0 != g0) }

/-- An image unloaded: its gangs stopped, its placement released, its copy freed (PROGRAM_UNLOAD, Table 14.11). -/
def unloadImage (i : Nat) (m : Mod) : Mod :=
  let ps := (m.placements.filter (fun p => p.image == i)).map (·.g0)
  let m := ps.foldl (fun m g => releasePlacement g (stopPlacement 1 g m)) m
  { m with images := m.images.filter (fun x => x.id != i) }

/-- A session's stock and host map freed. -/
def freeStock (sess : Nat) (m : Mod) : Mod :=
  let ks := (m.alloc.pt.filter (fun x => x.1 / 2 ^ 27 == sess)).map (·.1)
  let m := ks.foldl (fun m k => m.freePage sess (k % 2 ^ 27)) m
  { m with alloc := { m.alloc with hostMap := m.alloc.hostMap.filter (fun x => x.1 / 2 ^ 31 != sess) } }

/-- A session closed, in the order of R511; its long-running commands run on without a record (R505). -/
def closeSession (s : Session) (m : Mod) : Mod :=
  let m := ((m.placements.filter (fun p => p.session == s.id)).map (·.g0)).foldl (fun m g => stopPlacement 1 g m) m
  let m := ((m.images.filter (fun i => i.session == s.id)).map (·.id)).foldl (fun m i => unloadImage i m) m
  let m := freeStock s.id m
  { m with sessions := m.sessions.filter (fun x => x.id != s.id)
           jobs := m.jobs.map (fun j => if j.session == s.id && j.mb == s.mb then { j with orphan := true } else j)
           aon := { m.aon with ownerProven := m.aon.ownerProven && s.kind != 1 } }

end Sys2Proof.Machine
end

