-- ==== Sys2Proof/Machine/Session.lean ====
section
/-!
DEFINITION. Machine/Session.lean: the identity and session commands of Table 14.8, and the regeneration of the identity key
(spec/14_tirix.md R509, R511, R512, R514; spec/15_bringup.md R560 to R564, R569 to R574).
-/

namespace Sys2Proof.Machine

open Sys2Proof

/-! ### HELLO -/

/-- The stepping code (R1, Table 14.2). -/
def Mod.stepping (m : Mod) : Nat := if m.b0 then 0x00B0 else 0x00A1

/-- HELLO's answer (Table 14.8). -/
def helloBody (mb : Nat) (m : Mod) : List Byte :=
  let rights : W32 := match m.sessionOn mb with
    | some s => s.rights
    | none => 0
  le 2 1 ++ le 2 m.stepping ++ bytesOf m.aon.fwVersion 4 ++ bytesOf m.desc.serial 8 ++
    le 4 (m.sessId mb * 65536 + m.kindOf mb * 256 + m.aon.state.code * 16) ++ bytesOf rights 4

def helloCmd : Cmd :=
  { code := 0x0001, kinds := [0, 1, 2, 3, 4], states := statesRFTH, lengthOk := fun _ q => q.size 0
    run := fun q m => { m := m, body := helloBody q.no m } }

/-! ### OPEN_SESSION and CLOSE_SESSION -/

/-- RIGHTS and REGIONS as the change log holds them (Table 15.12). -/
def grantWord (rights : W32) (regions : BitVec 25) : Nat := rights.toNat * 2 ^ 32 + regions.toNat

def openSessionRun (q : Req) (m : Mod) : Ans :=
  let mb := q.byte 0
  if (m.sessionOn mb).isSome ∨ 65535 < m.nextSession then Ans.fail m eState else
  let rights : W32 := BitVec.ofNat 32 (q.fld 4 4 % 32)
  let regions : BitVec 25 := BitVec.ofNat 25 (q.fld 8 4)
  let id := m.nextSession
  let s : Session := { id := id, mb := mb, kind := q.byte 1, rights := rights, regions := regions
                       scope := BitVec.ofNat 16 (q.fld 0x0C 2), quota := q.fld 0x10 4 }
  let m' := { m with sessions := m.sessions ++ [s], nextSession := id + 1 }
  { m := logChange 0x0002 (m.sessId q.no) (q.byte 1) id false 0 (grantWord rights regions) m', body := le 2 id }

def openSessionCmd : Cmd :=
  { code := 0x0002, kinds := [1]
    lengthOk := fun _ q =>
      let kind := q.byte 1
      let mb := q.byte 0
      q.size 0x14 && decide (kind = 2 ∧ 1 ≤ mb ∧ mb ≤ 29 ∨ kind = 3 ∧ mb = 30) &&
        (kind == 3 || q.fld 4 4 / 16 % 2 == 0) && decide (q.fld 0x10 4 ≤ 1048576)
    run := openSessionRun }

/-- The mailbox a CLOSE_SESSION names. -/
def closeTarget (q : Req) : Nat := if q.byte 0 = 0xFF then q.no else q.byte 0

def closeSessionRun (q : Req) (m : Mod) : Ans :=
  match m.sessionOn (closeTarget q) with
  | none => Ans.fail m eState
  | some s =>
    { m := logChange 0x0003 (m.sessId q.no) (closeTarget q) s.id false (grantWord s.rights s.regions) 0 (closeSession s m) }

def closeSessionCmd : Cmd :=
  { code := 0x0003, kinds := [1, 2, 3]
    lengthOk := fun _ q => q.size 1 && (decide (q.byte 0 ≤ 30) || q.byte 0 == 0xFF)
    rights := fun m q => m.kindOf q.no == 1 || closeTarget q == q.no
    run := closeSessionRun }

/-! ### The owner (R569 to R571) -/

/-- EXPONENT followed by MODULUS. -/
def ownerKeyBytes (e : W32) (n : List Byte) : List Byte := bytesOf e 4 ++ n

def Mod.ownerKey (m : Mod) : List Byte := ownerKeyBytes m.ident.ownerExp m.ident.ownerMod

def installOwnerRun (q : Req) (m : Mod) : Ans :=
  let e : W32 := BitVec.ofNat 32 (q.fld 0 4)
  let n := slice q.body 0x10 512
  let new := digestPrefix (ownerKeyBytes e n)
  if m.aon.ownerInstalled then
    { m := logChange 0x0004 0 0 0 true (digestPrefix m.ownerKey) new m, status := eLimit }
  else
    { m := logChange 0x0004 0 0 0 false 0 new
        { m with aon := { m.aon with ownerInstalled := true }, ident := { m.ident with ownerExp := e, ownerMod := n } } }

def installOwnerCmd : Cmd :=
  { code := 0x0004, kinds := [4]
    lengthOk := fun _ q => q.size 0x210 && decide (3 ≤ q.fld 0 4) && q.fld 0 4 % 2 == 1
    run := installOwnerRun }

/-- OWNER_PROVE phase 0: a fresh nonce replaces any earlier one; SERIAL is kept as it is now (R570). -/
def proveNonceRun (_ : Req) (m : Mod) : Ans :=
  let n := Config.nonce m.freeCtr 32
  { m := { m with ident := { m.ident with nonce := some (n, m.desc.serial) }, freeCtr := m.freeCtr + 1 }, body := n }

def proveNonceCmd : Cmd :=
  { code := 0x0005, kinds := [4], states := statesRFTH, lengthOk := fun _ q => q.size 1 && q.byte 0 == 0, run := proveNonceRun }

/-- The owner session bound to MB0 (R509, R571; log entry 68). -/
def bindOwner (m : Mod) : Mod :=
  let s : Session := { id := m.nextSession, mb := 0, kind := 1, rights := 0xF, regions := 0x1FFFFFF, quota := 1048576 }
  { m with sessions := m.sessions ++ [s], nextSession := m.nextSession + 1, aon := { m.aon with ownerProven := true } }

/-- OWNER_PROVE phase 1: the nonce consumed, the signature over it and SERIAL verified (R570, R571). -/
def proveProofRun (q : Req) (m : Mod) : Ans :=
  let spent := { m with ident := { m.ident with nonce := none } }
  match m.ident.nonce with
  | none => Ans.fail m eState
  | some (n, serial) =>
    if !m.aon.ownerInstalled ∨ 65535 < m.nextSession then Ans.fail spent eState
    else if pssVerify m.ident.ownerExp.toNat (leNat m.ident.ownerMod) (n ++ bytesOf serial 8) (slice q.body 8 512).reverse then
      { m := bindOwner spent }
    else Ans.fail spent eSignature

def proveProofCmd : Cmd :=
  { code := 0x0005, kinds := [4], states := statesRFTH, lengthOk := fun _ q => q.size 0x208, run := proveProofRun }

/-! ### Chunked transfers (R514) -/

/-- What a chunk does to a transfer: none when it continues none. -/
def nextChunk (old : Option Chunked) (q : Req) : Option Chunked :=
  let total := q.fld 0 4
  let off := q.fld 4 4
  let dat := q.body.drop 8
  if total < off + dat.length then none
  else if off = 0 then some { total := total, got := dat }
  else match old with
    | some x => if x.total = total ∧ x.got.length = off then some { x with got := x.got ++ dat } else none
    | none => none

/-- Whether a transfer has reached its TOTAL. -/
def Chunked.full (x : Chunked) : Bool := x.got.length == x.total

/-- The length check of a chunk: its own fields only; one that continues no transfer is R514's failure. -/
def chunkLength (q : Req) : Bool :=
  decide (8 ≤ q.body.length) && decide (1 ≤ q.fld 0 4) && decide (q.fld 0 4 ≤ 65536)

/-! ### The identity key (R560 to R562) -/

def pufHelperRun (q : Req) (m : Mod) : Ans :=
  match nextChunk m.ident.helper q with
  | none => Ans.fail { m with ident := { m.ident with helper := none } } eLength
  | some x =>
    if x.full then { m := { m with ident := { m.ident with helper := none } }, job := some (.puf x.got) }
    else { m := { m with ident := { m.ident with helper := some x } } }

def pufHelperCmd : Cmd :=
  { code := 0x0006, kinds := [4, 1], lengthOk := fun _ q => chunkLength q, run := pufHelperRun
    long := fun m q => match nextChunk m.ident.helper q with
      | some x => x.full
      | none => false }

/-- PUF_REGENERATION_DONE: the key regenerated has the digest given (R561, R562; log entry 22). -/
def pufDone (mb : Nat) (digest : List Byte) (m : Mod) : Mod :=
  match m.jobs.find? (fun j => j.mb == mb && (match j.kind with
    | .puf _ => true
    | _ => false)) with
  | none => m
  | some j =>
    let want : List Byte := match j.kind with
      | .puf h => if 64 ≤ h.length then h.drop (h.length - 64) else []
      | _ => []
    match m.ident.key with
    | some k => completeJob j (if k = digest then 0 else eSignature) [] m
    | none =>
      if digest = want then
        completeJob j 0 [] { m with ident := { m.ident with key := some digest }, aon := { m.aon with identityReady := true } }
      else completeJob j eSignature [] m

/-! ### The identity certificate (R563, R564) -/

/-- SUPPLY_IDENTITY_CERT: one chunk of the chain, judged when the last has come (log entries 12 and 66). -/
def certRun (q : Req) (m : Mod) : Ans :=
  match nextChunk m.ident.certXfer q with
  | none => Ans.fail { m with ident := { m.ident with certXfer := none } } eLength
  | some x =>
    match m.ident.key with
    | none => Ans.fail m eState
    | some k =>
      if !x.full then { m := { m with ident := { m.ident with certXfer := some x } } }
      else if !Config.certMatches k x.got then Ans.fail m eSignature
      else if !m.ident.cert.isEmpty ∧ Config.certSerial x.got ≠ m.desc.serial then Ans.fail m eState
      else
        { m := { m with ident := { m.ident with certXfer := none, cert := x.got }
                        desc := { m.desc with serial := Config.certSerial x.got, gen := m.desc.gen + 1 } } }

def certCmd : Cmd :=
  { code := 0x0007, kinds := [4, 1], lengthOk := fun _ q => chunkLength q, run := certRun }

/-! ### The commands -/

/-- HELLO. -/
def execHello (q : Req) (s : State) : Host.Outcome State Fault Refusal :=
  s.runIf (Instr.wf (.hello q)) (mailboxCmd helloCmd q)

/-- OPEN_SESSION. -/
def execOpenSession (q : Req) (s : State) : Host.Outcome State Fault Refusal :=
  s.runIf (Instr.wf (.openSession q)) (mailboxCmd openSessionCmd q)

/-- CLOSE_SESSION. -/
def execCloseSession (q : Req) (s : State) : Host.Outcome State Fault Refusal :=
  s.runIf (Instr.wf (.closeSession q)) (mailboxCmd closeSessionCmd q)

/-- INSTALL_OWNER. -/
def execInstallOwner (q : Req) (s : State) : Host.Outcome State Fault Refusal :=
  s.runIf (Instr.wf (.installOwner q)) (mailboxCmd installOwnerCmd q)

/-- OWNER_PROVE, phase 0. -/
def execOwnerProveNonce (q : Req) (s : State) : Host.Outcome State Fault Refusal :=
  s.runIf (Instr.wf (.ownerProveNonce q)) (mailboxCmd proveNonceCmd q)

/-- OWNER_PROVE, phase 1. -/
def execOwnerProveProof (q : Req) (s : State) : Host.Outcome State Fault Refusal :=
  s.runIf (Instr.wf (.ownerProveProof q)) (mailboxCmd proveProofCmd q)

/-- SUPPLY_PUF_HELPER. -/
def execSupplyPufHelper (q : Req) (s : State) : Host.Outcome State Fault Refusal :=
  s.runIf (Instr.wf (.supplyPufHelper q)) (mailboxCmd pufHelperCmd q)

/-- PUF_REGENERATION_DONE. -/
def execPufRegenerationDone (mb : Fin 31) (digest : List Byte) (s : State) : Host.Outcome State Fault Refusal :=
  s.runIf (Instr.wf (.pufRegenerationDone mb digest)) (pufDone mb.val digest)

/-- SUPPLY_IDENTITY_CERT. -/
def execSupplyIdentityCert (q : Req) (s : State) : Host.Outcome State Fault Refusal :=
  s.runIf (Instr.wf (.supplyIdentityCert q)) (mailboxCmd certCmd q)

end Sys2Proof.Machine
end

