-- ==== Sys2Proof/Machine/Image.lean ====
section
/-!
DEFINITION. Machine/Image.lean: a program image: what PROGRAM_LOAD checks and the declarations it holds
(spec/06_sequencer.md R230 to R232; spec/07_scratchpad.md R259; spec/09_messages.md R347, R655;
spec/11_collectives_update.md R436, R456; spec/13_determinism.md R487; spec/16_power.md Table 16.2).
-/

namespace Sys2Proof.Machine

open Sys2Proof

/-- An image's bytes by offset. -/
abbrev Src := Nat → Byte

def Src.bytes (f : Src) (o k : Nat) : List Byte := (List.range k).map (fun i => f (o + i))

/-- A field of an image (R6). -/
def Src.num (f : Src) (o k : Nat) : Nat := leNat (f.bytes o k)

/-- The bytes from an offset on. -/
def Src.from_ (f : Src) (o : Nat) : Src := fun i => f (o + i)

/-! ### Ranges of rows -/

def overlap (a b : Nat × Nat) : Bool := decide (a.1 < b.1 + b.2) && decide (b.1 < a.1 + a.2)

/-- No two ranges share a row. -/
def disjoint : List (Nat × Nat) → Bool
  | [] => true
  | a :: t => t.all (fun b => !overlap a b) && disjoint t

/-- Whether a range of rows lies in the scratchpad and outside the gated bank groups (R278). -/
def rowsFree (gates : BitVec 8) (a : Nat × Nat) : Bool :=
  decide (a.1 + a.2 ≤ 16384) && (List.range 8).all (fun j => !bit gates j || !overlap a (2048 * j, 2048))

/-! ### The records of a part -/

/-- A drawer declaration (Table 7.2). -/
def readDrawer (f : Src) (o : Nat) : Nat × DrawerDecl :=
  (f.num o 1 % 64, { digest := f.num (o + 1) 1 % 2 == 1, base := f.num (o + 2) 2 % 16384, slotRows := f.num (o + 4) 2 % 4096
                     slotCount := f.num (o + 6) 2 % 2048, drainReads := f.num (o + 8) 2 })

/-- A tag-table declaration (Table 9.3). -/
def readTag (f : Src) (o : Nat) : Nat × TagDecl :=
  (f.num o 1, { kind := f.num (o + 1) 1 % 8, tag := BitVec.ofNat 16 (f.num (o + 2) 2)
                targ0 := BitVec.ofNat 16 (f.num (o + 4) 2), targ1 := BitVec.ofNat 16 (f.num (o + 6) 2)
                tparam := BitVec.ofNat 64 (f.num (o + 8) 8) })

/-- A clamp-word declaration (Table 9.7). -/
def readClamp (f : Src) (o : Nat) : ClampDecl :=
  { word := f.num o 2 % 2048, sigKind := f.num (o + 2) 2 % 4, sigPart := f.num (o + 4) 1, init := f.num (o + 8) 8 % 2 ^ 47 }

/-- An energy-table entry (Table 16.2). -/
def readEnergy (f : Src) (o : Nat) : EnergyEntry :=
  { interval := f.num o 4, ticks := f.num (o + 4) 1 % 2 == 1, energy := (List.range 8).map (fun s => f.num (o + 8 + 4 * s) 4) }

/-- The records of a section. -/
def readAll {α : Type} (g : Src → Nat → α) (f : Src) (o size n : Nat) : List α := (List.range n).map (fun i => g f (o + size * i))

def readDrawers (f : Src) : List (Nat × DrawerDecl) := readAll readDrawer f (f.num 0x28 4) 16 (f.num 0x26 2)
def readTags (f : Src) : List (Nat × TagDecl) := readAll readTag f (f.num 0x2C 4) 16 (f.num 0x30 2)
def readClamps (f : Src) : List ClampDecl := readAll readClamp f (f.num 0x34 4) 16 (f.num 0x32 2)

/-- A memory of `n` cells read one by one, in canonical form. -/
def Mem.build {w : Nat} (n : Nat) (g : Nat → BitVec w) : Mem w :=
  { base := none, cells := (List.range n).filterMap (fun i => if g i = 0 then none else some (i, g i)) }

/-- The curve store: knots, zero beyond CURVE_LENGTH (R233, R455). -/
def readKnots (f : Src) : Mem 128 :=
  let o := f.num 0x18 4
  let n := f.num 0x1C 4
  let g : Src := fun i => if i < n then f (o + i) else 0
  Mem.build ((n + 15) / 16) (fun i => wordOf 128 (g.bytes (16 * i) 16))

/-- A part's declarations (Table 6.18). -/
def readPart (f : Src) : PartDecl :=
  let flags := f.num 4 4
  let flag (i : Nat) : Bool := flags / 2 ^ i % 2 == 1
  { part := f.num 0 1, floor := f.num 1 1 % 16, cores := f.num 2 2, halfWidth := flag 0, gateLo := flag 1, gateHi := flag 2
    gateGroups := BitVec.ofNat 8 (flags / 8), zeroFill := flag 12, entry := f.num 8 2, bundleCount := f.num 0x0A 2
    firstInterval := f.num 0x0C 4, firstTicks := flag 11, firstEclass := f.num 0x10 1
    energy := readAll readEnergy f (f.num 0x20 4) 48 (f.num 0x24 2)
    drawers := (readDrawers f).foldl (fun (t : Tab DrawerDecl) x => Tab.set t x.1 x.2) []
    tags := (readTags f).foldl (fun (t : Tab TagDecl) x => Tab.set t x.1 x.2) []
    clamps := readClamps f
    bundles := Mem.build (f.num 0x0A 2) (fun i => wordOf 512 (f.bytes (f.num 0x14 4 + 64 * i) 64))
    knots := readKnots f }

/-! ### The checks of PROGRAM_LOAD, each over one part -/

/-- R232 within a part of `len` bytes, the `k`-th of its image. -/
def partRanges (f : Src) (k len : Nat) : Bool :=
  let inside (o n : Nat) : Bool := n == 0 || decide (o + n ≤ len)
  decide (0x80 ≤ len) && f.num 0 1 == k && decide (1 ≤ f.num 2 2 ∧ f.num 2 2 ≤ 1024) &&
    decide (1 ≤ f.num 0x0A 2 ∧ f.num 0x0A 2 ≤ 32768) && decide (f.num 0x1C 4 ≤ 262144) &&
    decide (1 ≤ f.num 0x24 2 ∧ f.num 0x24 2 ≤ 256) && decide (f.num 0x26 2 ≤ 64) && decide (f.num 0x30 2 ≤ 256) &&
    decide (f.num 0x32 2 ≤ 2048) &&
    inside (f.num 0x14 4) (64 * f.num 0x0A 2) && inside (f.num 0x18 4) (f.num 0x1C 4) && inside (f.num 0x20 4) (48 * f.num 0x24 2) &&
    inside (f.num 0x28 4) (16 * f.num 0x26 2) && inside (f.num 0x2C 4) (16 * f.num 0x30 2) &&
    inside (f.num 0x34 4) (16 * f.num 0x32 2)

/-- The rows of a drawer. -/
def DrawerDecl.range (d : DrawerDecl) : Nat × Nat := (d.base, d.slotRows * d.slotCount)

/-- R259. -/
def drawersOk (f : Src) : Bool :=
  let ds := readDrawers f
  let gates : BitVec 8 := BitVec.ofNat 8 (f.num 4 4 / 8)
  decide (ds.map (·.1)).Nodup &&
    ds.all (fun x => decide (1 ≤ x.2.slotRows ∧ x.2.slotRows ≤ 2048 ∧ 1 ≤ x.2.slotCount ∧ x.2.slotCount ≤ 1024)) &&
    ds.all (fun x => rowsFree gates x.2.range) && disjoint (ds.map (fun x => x.2.range)) &&
    (readClamps f).all (fun c => !(ds.any (fun x => c.word == 0x780 + x.1)))

/-- R347 and R436. -/
def tagsOk (f : Src) : Bool :=
  let ts := readTags f
  let ds := readDrawers f
  let gates : BitVec 8 := BitVec.ofNat 8 (f.num 4 4 / 8)
  let rings := (ts.filter (fun x => x.2.kind == 2)).map (fun x => (x.2.targ0.toNat % 16384, x.2.targ1.toNat % 8192))
  decide (ts.map (·.1)).Nodup && decide (ts.map (fun x => x.2.tag.toNat)).Nodup &&
    ts.all (fun x => match x.2.kind with
      | 1 => ds.any (fun d => d.1 == x.2.targ0.toNat % 64)
      | 2 => decide (2 ≤ x.2.targ1.toNat % 8192 ∧ x.2.targ1.toNat % 8192 ≤ 4096)
      | 3 =>
        let w := x.2.targ0.toNat % 2048
        !(decide (0x780 ≤ w ∧ w ≤ 0x7BF) || decide (0x7FC ≤ w))
      | 4 => x.2.targ0.toNat / 2 ^ 14 != 3
      | _ => false) &&
    rings.all (rowsFree gates) && disjoint (rings ++ ds.map (fun x => x.2.range))

/-- R655, in an image of `n` parts. -/
def clampsOk (f : Src) (n : Nat) : Bool :=
  decide ((readClamps f).map (·.word)).Nodup &&
    (List.range (f.num 0x32 2)).all (fun i =>
      let o := f.num 0x34 4 + 16 * i
      decide (f.num o 2 < 0x7FC) && decide (f.num (o + 2) 2 < 3) && (f.num (o + 2) 2 != 1 || decide (f.num (o + 4) 1 < n)) &&
        f.num (o + 5) 3 == 0 && decide (f.num (o + 8) 8 < 2 ^ 47))

/-- The numbers of a list rise strictly. -/
def rising : List Nat → Bool
  | [] => true
  | [_] => true
  | a :: b :: t => decide (a < b) && rising (b :: t)

/-- R456. -/
def knotsOk (f : Src) : Bool :=
  let d : PartDecl := { knots := readKnots f }
  d.knots.cells.all (fun x => sel x.2 127 100 == 0 && sel x.2 99 98 != 3) &&
    (List.range 256).all (fun g => [1, 2, 3].all (fun q => rising ((knotsOf d g q).map (·.step))))

/-! ### The whole image (Table 6.17) -/

/-- The parts of an image: each one's offset and length. -/
def imageParts (f : Src) : List (Nat × Nat) :=
  (List.range (f.num 0x0C 1)).map (fun k => (f.num (0x40 + 8 * k) 4, f.num (0x44 + 8 * k) 4))

/-- R232: the header and every part's place, for an image sent as `len` bytes. -/
def imageRanges (f : Src) (len : Nat) : Bool :=
  f.num 0 4 == 0x4D49574B && f.num 4 2 == 1 && decide (1 ≤ f.num 0x0C 1 ∧ f.num 0x0C 1 ≤ 25) && f.num 0x20 4 == len &&
    decide (0x40 + 8 * f.num 0x0C 1 ≤ len) && (imageParts f).all (fun p => decide (p.1 + p.2 ≤ len)) &&
    (imageParts f).zipIdx.all (fun x => partRanges (f.from_ x.1.1) x.2 x.1.2)

/-- The checks that refuse an image with E_LENGTH (R520). -/
def imageOk (f : Src) (len : Nat) : Bool :=
  imageRanges f len && (imageParts f).all (fun p =>
    let g := f.from_ p.1
    drawersOk g && tagsOk g && clampsOk g (f.num 0x0C 1) && knotsOk g)

/-- R487: whether an image's timing table is refused, and whether it loads for interlocked running. -/
def timingOk (table stepping : Nat) (interlock : Bool) : Bool :=
  table == stepping || ((table == 0x00A1 || table == 0x00B0) && interlock)

/-- The image as it is kept. -/
def readImage (f : Src) (id session stepping : Nat) (pages : List Nat) : Image :=
  { id := id, session := session, interlocked := f.num 6 2 != stepping, table := BitVec.ofNat 16 (f.num 6 2)
    rough := f.num 8 4 % 2 == 1, seed := BitVec.ofNat 64 (f.num 0x10 8), gstep := BitVec.ofNat 64 (f.num 0x18 8)
    parts := (imageParts f).map (fun p => readPart (f.from_ p.1)), pages := pages }

end Sys2Proof.Machine
end

