-- ==== Sys2Proof/Machine/StockCmd.lean ====
section
/-!
DEFINITION. Machine/StockCmd.lean: the stock commands of Table 14.10 (spec/14_tirix.md R517 to R519; spec/08_stock.md R293 to
R298, R318, R322, R326, R327; log entry 16 says which pages are taken).
-/

namespace Sys2Proof.Machine

open Sys2Proof

/-- The size of a page, 2 MiB. -/
def pageSize : Nat := 2 ^ 21

/-- The pages of a range. -/
def pageRange (first n : Nat) : List Nat := List.range' first n

/-- Whether every page of a range is the session's. -/
def Mod.ownPages (m : Mod) (sess first n : Nat) : Bool := (pageRange first n).all (fun p => pteValid (m.pte sess p))

/-- A range of whole pages within the 48-bit stock addresses. -/
def rangeLength (sa n : Nat) : Bool := sa % pageSize == 0 && decide (sa / pageSize + n ≤ 2 ^ 27)

def stockCmd (code : Nat) (lengthOk : Mod → Req → Bool) (run : Req → Mod → Ans) : Cmd :=
  { code := code, kinds := [1, 2], lengthOk := lengthOk, rights := fun m q => m.holds q.no 1, run := run }

/-! ### STOCK_ALLOC (R298, R518, R519) -/

/-- The first page of the lowest run of free pages of a session's address space (log entry 16). -/
def Mod.freeRun (m : Mod) (sess n : Nat) : Option Nat :=
  let used := (m.alloc.pt.filter (fun x => x.1 / 2 ^ 27 == sess)).map (fun x => x.1 % 2 ^ 27)
  ((freeRuns (2 ^ 27) 0 used).find? (fun r => decide (n ≤ r.2))).map (·.1)

/-- A request's flags (Table 14.10). -/
def allocFlag (q : Req) (i : Nat) : Bool := q.fld 4 2 / 2 ^ i % 2 == 1

/-- The physical pages an allocation takes or could take: none when stock has no room (R297, R298). -/
def allocPages (m : Mod) (narrow : Bool) (dev n : Nat) : Option (List Nat) :=
  if narrow then m.freeNarrow (if dev = 0xFF then none else some dev) n else m.freeWide n

/-- Page `k` of an allocation set up: resident and zero, or pageable and not resident (R518). -/
def setUpPage (sess first host : Nat) (pageable writable narrow : Bool) (k p : Nat) (m : Mod) : Mod :=
  let e : W64 := BitVec.ofNat 64 (2 ^ 63 + 2 ^ 59 * b2n writable)
  if pageable then
    let e := put (put e 61 61 1) 30 0 (host + k)
    m.setPte sess (first + k) (if narrow then put (put e 56 56 1) 55 51 ((p - 2 ^ 20) / 256) else e)
  else (m.zeroPage p).setPte sess (first + k) (pteWithPage (put e 62 62 1) p)

def stockAllocRun (q : Req) (m : Mod) : Ans :=
  let sess := m.sessId q.no
  let n := q.fld 0 4
  let pageable := allocFlag q 0
  let narrow := allocFlag q 1
  let fixed := allocFlag q 3
  let at_ : Option Nat := if fixed then some (q.fld 8 8 / pageSize) else m.freeRun sess n
  let pages : Option (List Nat) := if pageable && !narrow then some [] else allocPages m narrow (q.byte 6) n
  match at_, pages with
  | some first, some ps =>
    if m.quotaOf sess < m.quotaUsed sess + n ∨ (m.aon.state = .roughCut ∧ (!narrow ∨ pageable)) ∨
        (fixed ∧ (pageRange first n).any (fun p => pteValid (m.pte sess p))) then Ans.fail m eStock
    else
      let m := if pageable then m else leaveStandby m
      let m := (List.range n).foldl (fun m k =>
        setUpPage sess first (q.fld 0x10 4) pageable (allocFlag q 2) narrow k (ps.getD k 0) m) m
      { m := m, body := le 8 (first * pageSize) }
  | _, _ => Ans.fail m eStock

def stockAllocCmd : Cmd :=
  stockCmd 0x0020 (fun _ q =>
    let n := q.fld 0 4
    q.size 0x14 && decide (1 ≤ n) && decide (n ≤ 1048576) &&
      (!allocFlag q 1 || decide (q.byte 6 < 32) || q.byte 6 == 0xFF) &&
      (!allocFlag q 3 || rangeLength (q.fld 8 8) n) &&
      (!allocFlag q 0 || decide (q.fld 0x10 4 + n ≤ 2 ^ 31))) stockAllocRun

/-! ### STOCK_FREE, STOCK_MAP_HOST -/

def stockFreeRun (q : Req) (m : Mod) : Ans :=
  let sess := m.sessId q.no
  let first := q.fld 0 8 / pageSize
  let n := q.fld 8 4
  if m.ownPages sess first n then { m := (pageRange first n).foldl (fun m p => m.freePage sess p) m }
  else Ans.fail m eStock

def stockFreeCmd : Cmd := stockCmd 0x0021 (fun _ q => q.size 0x0C && rangeLength (q.fld 0 8) (q.fld 8 4)) stockFreeRun

/-- STOCK_MAP_HOST: entries set, or cleared by an address of 0 (Table 14.10). -/
def mapHostRun (q : Req) (m : Mod) : Ans :=
  let sess := m.sessId q.no
  let t := (List.range (q.fld 4 4)).foldl (fun (t : Tab W64) k =>
    let a := q.fld (8 + 8 * k) 8
    let key := sess * 2 ^ 31 + q.fld 0 4 + k
    if a = 0 then Tab.erase t key else Tab.set t key (BitVec.ofNat 64 a)) m.alloc.hostMap
  { m := { m with alloc := { m.alloc with hostMap := t } } }

def stockMapHostCmd : Cmd :=
  { stockCmd 0x0022 (fun _ q =>
      let n := q.fld 4 4
      decide (1 ≤ n) && decide (n ≤ 250) && q.size (8 + 8 * n) && decide (q.fld 0 4 + n ≤ 2 ^ 31) &&
        (List.range n).all (fun k => q.fld (8 + 8 * k) 8 % pageSize == 0)) mapHostRun with states := statesFT }

/-! ### STOCK_PIN (R327) -/

def pinLength (q : Req) : Bool := q.size 0x0D && decide (q.byte 0x0C ≤ 1) && rangeLength (q.fld 0 8) (q.fld 8 4)

/-- PINNED set or cleared in a range of pages. -/
def setPinned (sess first n : Nat) (on : Bool) (m : Mod) : Mod :=
  (pageRange first n).foldl (fun m p => m.setPte sess p (put (m.pte sess p) 60 60 (b2n on))) m

def pinRun (on : Bool) (q : Req) (m : Mod) : Ans :=
  let sess := m.sessId q.no
  let first := q.fld 0 8 / pageSize
  let n := q.fld 8 4
  if !m.ownPages sess first n then Ans.fail m eStock
  else if on then { m := leaveStandby (setPinned sess first n true m), job := some (.pin first n) }
  else { m := setPinned sess first n false m, job := some (.pin first n), done := some (0, []) }

def pinCmd (on : Bool) : Cmd :=
  { stockCmd 0x0023 (fun _ q => pinLength q) (pinRun on) with states := statesFT, long := fun _ _ => true }

/-- STOCK_PIN_DONE: each page made resident; a page freed meanwhile, or one that no backing or free page can serve, ends the
command with E_STOCK (log entry 43). -/
def pinDone (mb : Nat) (m : Mod) : Mod :=
  match m.jobs.find? (fun j => j.mb == mb && (match j.kind with
    | .pin .. => true
    | _ => false)) with
  | none => m
  | some j =>
    let ps : List Nat := match j.kind with
      | .pin first n => pageRange first n
      | _ => []
    let m := ps.foldl (fun m p => makeResident j.session p m) m
    completeJob j (if ps.all (fun p => pteResident (m.pte j.session p)) then 0 else eStock) [] m

/-! ### STOCK_FILL (R321) -/

def stockFillRun (q : Req) (m : Mod) : Ans :=
  { m := leaveStandby m
    job := some (.fill (q.fld 0 8) (q.fld 8 8) 0 (q.fld 0x10 2 % 2 == 1) (BitVec.ofNat 64 (q.fld 0x18 8))) }

def stockFillCmd : Cmd :=
  { stockCmd 0x0024 (fun _ q => q.size 0x20 && q.fld 0 8 % 512 == 0 && q.fld 8 8 % 512 == 0 &&
      decide (q.fld 0 8 + q.fld 8 8 ≤ 2 ^ 48)) stockFillRun with long := fun _ _ => true }

/-- STOCK_FILL_DONE: the rest of a fill written, up to its length or to a page that stops it. A page that waits for its host
backing leaves it under way. -/
def fillDone (mb : Nat) (m : Mod) : Mod :=
  match m.jobs.find? (fun j => j.mb == mb && (match j.kind with
    | .fill .. => true
    | _ => false)) with
  | none => m
  | some j =>
    match j.kind with
    | .fill sa bytes done h src =>
      let (m, d) := fillRows j.session sa bytes h src ((bytes - done) / 512) done m
      match fillAt m j.session sa bytes d with
      | .complete => completeJob j 0 (le 8 d) m
      | .stopped => completeJob j eStock (le 8 d) m
      | _ => { m with jobs := m.jobs.map (fun x => if x.mb == j.mb && x.seq == j.seq then { x with kind := .fill sa bytes d h src } else x) }
    | _ => m

/-! ### WHEEL_SET (R318, R322, R67, R68) -/

/-- The entries of a WHEEL_SET. -/
def wheelEntries (q : Req) : List Nat := (List.range (q.byte 0)).map (fun i => q.byte (8 + i) % 32)

/-- A wheel table as the change log holds it: WLEN and the entries digested. -/
def wheelWord (w : List Nat) : Nat := digestPrefix (BitVec.ofNat 8 w.length :: w.map (BitVec.ofNat 8))

def wheelSetRun (q : Req) (m : Mod) : Ans :=
  if m.aon.inFlight then Ans.fail m eBusy
  else
    let w := wheelEntries q
    { m := logChange 0x0025 (m.sessId q.no) (q.byte 0) 0 false (wheelWord m.stock.wheel) (wheelWord w)
        { m with settings := { m.settings with stagedWheel := some w } } }

def wheelSetCmd : Cmd :=
  { code := 0x0025, kinds := [1]
    lengthOk := fun _ q => decide (1 ≤ q.byte 0) && decide (q.byte 0 ≤ 64) && q.size (8 + q.byte 0) &&
      (wheelEntries q).all (fun r => decide (r < 25))
    run := wheelSetRun }

/-! ### The commands -/

/-- STOCK_ALLOC. -/
def execStockAlloc (q : Req) (s : State) : Host.Outcome State Fault Refusal :=
  s.runIf (Instr.wf (.stockAlloc q)) (mailboxCmd stockAllocCmd q)

/-- STOCK_FREE. -/
def execStockFree (q : Req) (s : State) : Host.Outcome State Fault Refusal :=
  s.runIf (Instr.wf (.stockFree q)) (mailboxCmd stockFreeCmd q)

/-- STOCK_MAP_HOST. -/
def execStockMapHost (q : Req) (s : State) : Host.Outcome State Fault Refusal :=
  s.runIf (Instr.wf (.stockMapHost q)) (mailboxCmd stockMapHostCmd q)

/-- STOCK_PIN, PIN 1. -/
def execStockPin (q : Req) (s : State) : Host.Outcome State Fault Refusal :=
  s.runIf (Instr.wf (.stockPin q)) (mailboxCmd (pinCmd true) q)

/-- STOCK_PIN, PIN 0. -/
def execStockUnpin (q : Req) (s : State) : Host.Outcome State Fault Refusal :=
  s.runIf (Instr.wf (.stockUnpin q)) (mailboxCmd (pinCmd false) q)

/-- STOCK_PIN_DONE. -/
def execStockPinDone (mb : Fin 31) (s : State) : Host.Outcome State Fault Refusal :=
  s.runIf (Instr.wf (.stockPinDone mb)) (pinDone mb.val)

/-- STOCK_FILL. -/
def execStockFill (q : Req) (s : State) : Host.Outcome State Fault Refusal :=
  s.runIf (Instr.wf (.stockFill q)) (mailboxCmd stockFillCmd q)

/-- STOCK_FILL_DONE. -/
def execStockFillDone (mb : Fin 31) (s : State) : Host.Outcome State Fault Refusal :=
  s.runIf (Instr.wf (.stockFillDone mb)) (fillDone mb.val)

/-- WHEEL_SET. -/
def execWheelSet (q : Req) (s : State) : Host.Outcome State Fault Refusal :=
  s.runIf (Instr.wf (.wheelSet q)) (mailboxCmd wheelSetCmd q)

end Sys2Proof.Machine
end

