-- ==== Sys2Proof/Machine/Time.lean ====
section
/-!
DEFINITION. Machine/Time.lean: reference cycles, region cycles, shims, marks, SYNC_IO, staged changes and the progress
monitor (spec/02_story_stick.md; spec/09_messages.md R373, R374; spec/10_decler_links.md R402, R417 to R421;
spec/14_tirix.md R496, R535; spec/17_faults.md R601, R605). Log entry 40 lists the order of a mark's effects.
-/

namespace Sys2Proof.Machine

open Sys2Proof

/-! ### The reference cycle (R33, R44, R645) -/

/-- A local view carried on by some 2^-16 ticks, held at the span's end until the mark (R41, R43). -/
def Region.advance (g : Region) (d : Nat) : Region := if g.viewValid then g.setView (max g.view (min (g.view + d) g.viewCap)) else g

/-- Whether a reference cycle is one a mark falls on: the 1,024th since the last, or the one whose rising edge an acquisition takes
(R34, R40). -/
def markFalls (sync : Bool) (m : Mod) : Bool :=
  let a := m.aon
  a.refCycles + 1 == 1024 ||
    (a.syncIo == .markIn && a.acquiring && !m.anyRunning && sync && !a.pins.syncHigh && decide (16 ≤ a.refCycles + 1))

/-- The master's value some cycles after the last mark and some trim and jump, never below what it has reached (R33, R35, R36). -/
def Aon.stickAt (a : Aon) (cycles : Nat) (d : Int) : W64 :=
  BitVec.ofNat 64 (max a.stick.toNat ((a.stickAtMark.toNat + 45 * cycles : Int) + d).toNat)

/-- REFERENCE_CYCLE: the stick advances by 45, less at a mark that trims it back (R33, R35, R36); a region whose clock is stopped for
a step change advances by 45. A mark due 1,024 cycles after the last one comes first (R34). -/
def referenceCycle (sync : Bool) (m : Mod) : Mod :=
  if m.aon.state = .off ∨ 1024 ≤ m.aon.refCycles then m else
  let p := m.aon.pins
  let m := { m with aon := { m.aon with
    stick := m.aon.stickAt (m.aon.refCycles + 1) (if markFalls sync m then min 0 m.aon.trim else 0), refCycles := m.aon.refCycles + 1
    pins := { p with syncHigh := sync, syncEdge := sync && !p.syncHigh, syncOut := false } } }
  allRegions.foldl (fun m r =>
    if (m.region r).switching = 0 then m
    else m.onRegion r (fun g => { g.advance (45 * 65536) with switching := g.switching - 1 })) m

/-! ### The region cycle (R41, R57, R58, R98 to R104) -/

/-- The oldest bundle retired at the end of a cycle in which its slots executed. -/
def retire (g : Region) : Region := { g with seq := { g.seq with pipe := g.seq.pipe.drop 1 } }

/-- A cycle in which the oldest bundle is held: every later one comes a cycle later (R102, R103). -/
def heldCycle (g : Region) : Region :=
  { g with seq := { g.seq with
      pipe := match g.seq.pipe with
        | b :: rest => b :: rest.map (fun x => { x with sched := x.sched + 1 })
        | [] => []
      cnt := { g.seq.cnt with held := bump48 g.seq.cnt.held 1 } } }

/-- Whether a flit of a site's NI waits at its router's local port. -/
def Mesh.holdsLocal (n : Mesh) (s : Nat) : Bool := [0, 1, 2, 3].any (fun c => !(n.buf s 4 c).isEmpty)

/-- A cycle in which the NI held a flit and could not inject it counted on its channel (Table 9.10). -/
def txEdge (held : Bool) (c : Core) : Core :=
  let c := match c.ni.tx with
    | t :: _ =>
      let ch := hdrVc t.hdr
      if t.leaving && held && !c.ni.moved then { c with ni := { c.ni with cnt := { c.ni.cnt with
          txStall := c.ni.cnt.txStall.set! ch (bump32 (c.ni.cnt.txStall[ch]?.getD 0) 1) } } }
      else c
    | [] => c
  { c with ni := { c.ni with moved := false } }

/-- The core states after a cycle in which a bundle was held or executed in its place. -/
def cycleCores (r : Nat) (held : Bool) (m : Mod) : Mod :=
  let g := m.region r
  g.site.zipIdx.foldl (fun m x =>
    if m.gated x.1 then m else
    let ctx := m.ctx r x.2 0 0
    let m := match g.seq.pipe with
      | b :: _ =>
        let ctx := { ctx with pos := b.pos, addr := b.addr }
        if held then m.onCore x.1 (fun c => chargeHolds g.cycle c (bundleHolds ctx true b.sched b.bundle c))
        else if b.sched ≤ g.cycle then m.onCore x.1 (bundleDone b.pos) else m
      | [] => m
    let m := m.applyEff x.1 (coreEdge ctx (m.core x.1))
    m.onCore x.1 (txEdge (m.mesh.holdsLocal x.1))) m

/-- Whether a core's full token buffer holds back a token that is ready (R313). -/
def tokenHeld (m : Mod) (g : Region) (k : Nat) : Bool :=
  g.eng.jobs.any (fun j => j.pending.contains k && Tab.get j.left k 0 == 0) && decide (64 ≤ (m.core (g.siteOf k)).ni.tokens.length)

/-- Whether a spline into a region is full (Table 2.5). -/
def splineFull (m : Mod) (r : Nat) : Bool :=
  m.mesh.splines.any (fun x => decide (16 ≤ x.2.length) && (match neighbour (x.1 / 5) (x.1 % 5) with
    | some t => siteRegion t == r && siteRegion (x.1 / 5) != r
    | none => false))

/-- The counters of one cycle (Table 2.5, Table 6.21, Table 8.7, Table 13.5). -/
def cycleCounts (r : Nat) (m : Mod) : Mod :=
  let g := m.region r
  let k := (List.range g.site.length).foldl (fun n i => n + b2n (g.run.running && tokenHeld m g i)) 0
  let ack := m.changeDue r && !g.ack
  let full := splineFull m r
  m.onRegion r (fun g => { g with
    seq := { g.seq with cnt := { g.seq.cnt with stockHold := bump32 g.seq.cnt.stockHold (b2n (g.seq.wait == .stock)) } }
    dig := { g.dig with holdCycles := bump32 g.dig.holdCycles (b2n (g.seq.wait == .digest)) }
    eng := { g.eng with cnt := { g.eng.cnt with tokenFull := bump32 g.eng.cnt.tokenFull k } }
    time := { g.time with stepHold := bump32 g.time.stepHold (b2n (g.seq.wait == .kerf && ack))
                          splineFull := bump32 g.time.splineFull (b2n full) } })

/-- A cycle's gauge code: the lowest since the mark, and a warning between the two thresholds (R56, R590, Table 2.3). -/
def gaugeCycle (gauge r : Nat) (m : Mod) : Mod :=
  let g := m.region r
  let m := m.onRegion r (fun g => { g with gaugeMin := min g.gaugeMin gauge })
  if g.gaugeStretch < gauge ∧ gauge ≤ g.gaugeWarn then
    { m with power := { m.power with warns := Tab.upd m.power.warns r 0 (· + 1) } }.onRegion r (fun g =>
      { g with time := { g.time with gaugeWarnCount := bump48 g.time.gaugeWarnCount 1 }, warnInterval := g.warnInterval + 1 })
  else m

/-- CYCLE_EDGE: one cycle of a clocked region ends; its view advances by the view ratio up to the cap of R43. -/
def cycleEdge (r gauge : Nat) (m : Mod) : Mod :=
  let g := m.region r
  if !g.clocked ∨ g.switching ≠ 0 ∨ g.step = 0 ∨ m.aon.state = .safeHold then m else
  let held := seqHeld g
  let done : Bool := match g.seq.pipe with
    | b :: _ => decide (b.sched ≤ g.cycle) && !held
    | [] => false
  let m := cycleCounts r (cycleCores r held m)
  let m := m.onRegion r (fun g =>
    let g := if done then retire g else if held then heldCycle g else g
    { g with cycle := g.cycle + 1, cyclesInterval := g.cyclesInterval + 1 }.advance (viewRatio g.step))
  gaugeCycle gauge r (if done then pruneBounds r m else m)

/-- SHIM: a code at or below GAUGE_STRETCH stretches the next period; it adds no cycle (R57 to R59). -/
def shim (r gauge : Nat) (m : Mod) : Mod :=
  let g := m.region r
  if !g.clocked ∨ g.switching ≠ 0 ∨ m.aon.state = .safeHold ∨ g.gaugeStretch < gauge then m else
  m.onRegion r (fun g => { g with
    gaugeMin := min g.gaugeMin gauge, shimsThisMark := g.shimsThisMark + 1
    time := if g.shimHalfLen then { g.time with shimHalf := bump48 g.time.shimHalf 1 }
            else { g.time with shimFull := bump48 g.time.shimFull 1 } })

/-! ### Staged changes (R66 to R72) -/

/-- STEP_APPLIED once every bit of the applied mask is set (R72). -/
def completeChange (m : Mod) : Mod :=
  if m.aon.inFlight ∧ m.aon.appliedMask = 0x1FFFFFF then
    raiseEvent 0x0C 0xFFFF 1 0 0 m.aon.commitMark.toNat 0
      { m with aon := { m.aon with inFlight := false }
               settings := { m.settings with flightSteps := [], flightWheel := none, flightChange := 0, flightValue := 0 } }
  else m

/-- A region's bit of the applied mask set. -/
def setApplied (r : Nat) (m : Mod) : Mod := { m with aon := { m.aon with appliedMask := sticky m.aon.appliedMask r } }

/-- CHANGE_ACK: a powered region latches what is staged for it (R69). -/
def changeAck (r : Nat) (m : Mod) : Mod :=
  let g := m.region r
  if g.dom = .awake ∧ m.aon.state ≠ .safeHold ∧ (g.pendingChange ∨ (Tab.find m.settings.stagedSteps r).isSome) then
    m.onRegion r (fun g => { g with ack := true })
  else m

/-- Whether a region that has acknowledged may apply a committed change now: with no gang and a mark passed since its gang's
end, or held at a kerf end (R70, R71). -/
def applyPoint (m : Mod) (r : Nat) : Bool :=
  let g := m.region r
  m.changeDue r && g.ack && g.dom == .awake && m.aon.state != .safeHold &&
    (if g.run.running then g.seq.wait == .kerf else !g.run.ended)

/-- MODE_APPLY: a region applies a committed change and sets its bit. A clock switch that outlasts the wait at a kerf end makes
it an overrun (R70 to R72). -/
def modeApply (r : Nat) (m : Mod) : Mod :=
  if !applyPoint m r then m else
  let m := applyChange r m
  let g := m.region r
  let m := match g.seq.wait, g.seq.interval with
    | .kerf, some iv => if g.switching ≠ 0 ∧ g.ticks ≤ iv.target ∧ iv.target < g.ticks + 90 then kerfOverrun r (g.ticks + 90 - iv.target) m else m
    | _, _ => m
  completeChange (setApplied r m)

/-- A committed change at each mark from M on: the link mode and the wheel at M; AON's bits for sleeping and switched-off regions
and those out of scope; the tick promises suspended while a gang runs under an incomplete mask (R69, R72, R322, R402). -/
def changeMark (m : Mod) : Mod :=
  if !m.aon.inFlight ∨ m.aon.markNumber < m.aon.commitMark then m else
  let s := m.settings
  let m := if m.aon.markNumber = m.aon.commitMark then
      { m with topo := if bit s.flightChange 0 then { m.topo with repro := bit s.flightValue 0 } else m.topo
               stock := { m.stock with wheel := s.flightWheel.getD m.stock.wheel
                                       ifaces := if s.flightWheel.isSome then m.stock.ifaces.mapVals (fun _ i => { i with pos := 0 }) else m.stock.ifaces }
               settings := { s with modes := (s.modes &&& ~~~s.flightChange) ||| (s.flightValue &&& s.flightChange) } }
    else m
  let m := allRegions.foldl (fun m r =>
    let g := m.region r
    if !g.pendingChange ∨ g.dom = .sleep ∨ g.dom = .off then setApplied r m else m) m
  let late := allRegions.any (fun r =>
    let g := m.region r
    g.pendingChange && (g.dom == .awake || g.dom == .selfTest) && (g.run.running || !g.ack))
  completeChange (if late then allRegions.foldl (fun m r => m.voidTicks r) m else m)

/-! ### Alignment at a mark (R417 to R421) -/

/-- p / q rounded to the nearest integer, ties to even. -/
def rneDiv (p : Int) (q : Nat) : Int :=
  let f := p / (q : Int)
  let d := 2 * (p - f * q)
  if d < q then f else if (q : Int) < d then f + 1 else if f % 2 = 0 then f else f + 1

/-- Twice θ of the UP neighbours whose exchange succeeded in the mark that ends. -/
def Mod.thetas (m : Mod) : List Int := (List.range 24).filterMap (fun p => if (m.port p).state = .up then (m.port p).theta else none)

/-- The trim for the next mark (R419). -/
def nextTrim (ts : List Int) : Int :=
  let ts := ts.filter (fun t => decide (-92160 ≤ t) && decide (t ≤ 92160))
  if ts.isEmpty then 0 else max (-32) (min 32 (rneDiv (ts.foldl (· + ·) 0) (2 * ts.length)))

/-- The forward jump of R420, in ticks. -/
def jumpOf (m : Mod) : Nat :=
  if m.anyRunning then 0 else m.thetas.foldl (fun a t => if 92160 < t then max a (t / 2).toNat else a) 0

/-- A port at a mark: its alignment judged, and its MARK sent (R417, R421, Table 10.10). -/
def portMark (stick : W64) (x : Port) : Port :=
  if x.state ≠ .up then { x with theta := none } else
  let x := match x.theta with
    | some t =>
      let ok : Bool := decide (-400 ≤ t) && decide (t ≤ 400)
      let k := if ok then x.alignRun + 1 else 0
      { x with alignRun := k, aligned := if ok then x.aligned || decide (16 ≤ k) else false
               cnt := { x.cnt with alignOffset := BitVec.ofInt 32 (max (-(2 ^ 31 : Nat) : Int) (min ((2 ^ 31 : Nat) - 1 : Int) (t / 2))) } }
    | none => { x with alignRun := 0 }
  { x.sendPlain with theta := none, markTx := some stick.toNat }

/-! ### Per-mark events and the progress monitor (R373, R374, R601) -/

/-- The events a region counted in the mark raised, in code order (R601, Table 17.2). -/
def regionEvents (r : Nat) (m : Mod) : Mod :=
  let es := (m.region r).ev
  let m := m.onRegion r (fun g => { g with ev := [] })
  es.foldl (fun m x =>
    raiseEvent x.1 r x.2.count x.2.gang x.2.d0 x.2.d 0 m) m

/-- Every per-mark event raised. -/
def markEvents (m : Mod) : Mod :=
  let m := allRegions.foldl (fun m r => regionEvents r m) m
  let n := m.events.pagesServiced
  if n = 0 then m else raiseEvent 0x10 0xFFFF n 0 0 0 0 { m with events := { m.events with pagesServiced := 0 } }

/-- Whether a word's signaller is pre-empted (R371, R372). -/
def ownerPreempted (m : Mod) (s : W128) : Bool :=
  let g := sel s 127 112
  g != 0 && (if bit s 52 then m.topo.remotePreempted.contains (sel s 51 40, g)
             else match m.placementOf g with
               | some p => p.preempted
               | none => false)

/-- The unmet conditions of a region's held bundle in each core: core, conditions and the word a WAITW names. -/
def holdReport (m : Mod) (r : Nat) : List (Nat × List Hold × Nat) :=
  let g := m.region r
  match g.seq.pipe with
  | [] => []
  | b :: _ =>
    (g.site.zipIdx.filterMap (fun x =>
      if m.gated x.1 then none else
      let c := settleWords (m.core x.1) b.pos
      let h := bundleHolds (m.ctx r x.2 b.pos b.addr) true b.sched b.bundle c
      if h.isEmpty then none else some (x.2, h, (waitwArgs (slotRegs c 9 b.pos) (bundleSlot b.bundle 9)).1)))

/-- Whether the monitor counts a mark: the gang held without issue, and not only on words of pre-empted gangs (R373, R374). -/
def countsHeld (m : Mod) (r : Nat) : Bool :=
  let g := m.region r
  if !g.run.running || g.run.issuedThisMark then false
  else if g.seq.wait == .stock || g.seq.wait == .digest then true
  else if !seqHeld g then false
  else
    let hs := holdReport m r
    !(!hs.isEmpty && hs.all (fun x => x.2.1.all (fun h => h.cause == 7) &&
      ownerPreempted m ((m.core (g.siteOf x.1)).cc.shadow.get x.2.2)))

def progressMark (r : Nat) (m : Mod) : Mod :=
  let held := countsHeld m r
  m.onRegion r (fun g => { g with run := { g.run with
    heldMarks := if held then g.run.heldMarks + 1 else g.run.heldMarks, issuedThisMark := false, ended := false } })

/-- PROGRESS_STALL: STALL raised once when the count reaches PROGRESS_MARKS; it triggers a trace that waits for it (R373,
R527). -/
def progressStall (r : Nat) (m : Mod) : Mod :=
  let g := m.region r
  match m.placementOf g.run.gang with
  | none => m
  | some p =>
    if !g.run.running ∨ g.run.stalled ∨ g.run.heldMarks < p.progress ∨ m.aon.state = .safeHold then m else
    let b := match g.seq.pipe with
      | b :: _ => (b.addr, b.pos)
      | [] => (g.seq.addr, g.seq.pos)
    let m := m.onRegion r (fun g => { g with
      run := { g.run with stalled := true }
      trace := if g.trace.trigger = 2 then { g.trace with armed := false } else g.trace })
    raiseEvent 0x01 r 1 g.run.gang b.1 b.2 0 m

/-! ### The mark (R34 to R45) -/

/-- A region at a mark: its view set to the broadcast value, and the gauge's interval begun afresh (R42, R43, R45). -/
def regionMark (r : Nat) (m : Mod) : Mod :=
  m.onRegion r (fun g =>
    if g.clocked then
      { g.setView (max g.view (m.aon.stick.toNat * 65536)) with
        viewValid := true, viewCap := (m.aon.stick.toNat + m.aon.span - 1) * 65536, gaugeMin := 63, shimsThisMark := 0 }
    else g)

/-- 16 mark intervals in a row whose every edge was ignored end the lock of MARK_IN (R40; log entry 65). -/
def markInInterval (a : Aon) : Aon :=
  let n := if a.edgeTaken then 0 else if a.edgeIgnored then a.missRun + 1 else a.missRun
  let lost : Bool := a.syncIo == .markIn && decide (16 ≤ n)
  { a with edgeTaken := false, edgeIgnored := false, missRun := if lost then 0 else n, acquiring := a.acquiring || lost }

/-- AON's part of a mark: trim and jump applied, the numbers advanced, the next span announced (R34 to R38, R419, R420, R646). -/
def aonMark (m : Mod) : Mod :=
  let ts := m.thetas
  let a := m.aon
  let stick := a.stickAt a.refCycles (a.trim + jumpOf m)
  let d := nextTrim ts
  { m with aon := { markInInterval a with
    stick := stick, stickAtMark := stick, markNumber := a.markNumber + 1, refCycles := 0, trim := d, span := ((46080 : Int) + d).toNat
    pins := { a.pins with syncOut := a.syncIo == .markOut && a.state != .safeHold }
    heartbeat := if a.tirixRunning && !a.beatStopped then a.heartbeat + 1 else a.heartbeat } }

/-- Vector 31, when records have been written since its last message (R535). -/
def signalEvents (m : Mod) : Mod :=
  if m.events.unsignalled ∧ m.events.irq ∧ m.host.msixOn ∧ m.aon.state ≠ .safeHold then
    sendMsix 31 { m with events := { m.events with unsignalled := false } }
  else m

/-- A mark, in the order of log entry 40. -/
def doMark (m : Mod) : Mod :=
  let old := m
  let m := aonMark m
  let m := { m with ports := m.ports.mapVals (fun _ x => portMark m.aon.stick x), mesh := { m.mesh with parityMark := [] } }
  let m := touchTopo old m
  let m := allRegions.foldl (fun m r => progressMark r m) m
  let m := allRegions.foldl (fun m r => regionMark r (emergencyMark r m)) m
  let m := changeMark (envelopeMark m)
  let m := { m with aon := { m.aon with maskAtMark := m.aon.appliedMask } }
  signalEvents (markEntries (markEvents m))

/-- MARK: 1,024 reference cycles after the last (R34). -/
def mark (m : Mod) : Mod := if m.aon.state = .off ∨ m.aon.refCycles < 1024 then m else doMark m

/-- SYNC_IO_EDGE: a rising edge sampled becomes a mark, is acquired, ignored and counted, or starts the traces that wait for it
(R39, R40, R527, R645). -/
def syncIoEdge (m : Mod) : Mod :=
  let a := m.aon
  if a.state = .off ∨ !a.pins.syncEdge then m else
  let m := m.onPins (fun p => { p with syncEdge := false })
  match a.syncIo with
  | .off => m
  | .markOut => m
  | .trigger => m.forRegions (fun m r => m.onRegion r (fun g =>
      if g.trace.trigger = 1 then { g with trace := { g.trace with armed := false } } else g))
  | .markIn =>
    let acquire : Bool := a.acquiring && !m.anyRunning
    if acquire && decide (16 ≤ a.refCycles) || a.refCycles == 1024 then
      doMark { m with aon := { m.aon with edgeTaken := true, acquiring := a.acquiring && !acquire } }
    else if acquire then m
    else { m with aon := { m.aon with markInMiss := m.aon.markInMiss + 1, edgeIgnored := true } }

/-- HEARTBEAT_LOST: Tirix has stopped advancing HEARTBEAT (R605). -/
def heartbeatLost (m : Mod) : Mod :=
  if m.aon.tirixRunning ∧ !m.aon.beatStopped then enterSafeHold 7 { m with aon := { m.aon with beatStopped := true } } else m

/-! ### The commands -/

/-- REFERENCE_CYCLE. -/
def execReferenceCycle (sync : Bool) (s : State) : Host.Outcome State Fault Refusal :=
  s.runIf (Instr.wf (.referenceCycle sync)) (referenceCycle sync)

/-- CYCLE_EDGE. -/
def execCycleEdge (r : Fin 25) (gauge : BitVec 6) (s : State) : Host.Outcome State Fault Refusal :=
  s.runIf (Instr.wf (.cycleEdge r gauge)) (cycleEdge r gauge.toNat)

/-- SHIM. -/
def execShim (r : Fin 25) (gauge : BitVec 6) (s : State) : Host.Outcome State Fault Refusal :=
  s.runIf (Instr.wf (.shim r gauge)) (shim r gauge.toNat)

/-- MARK. -/
def execMark (s : State) : Host.Outcome State Fault Refusal := s.runIf (Instr.wf .mark) mark

/-- SYNC_IO_EDGE. -/
def execSyncIoEdge (s : State) : Host.Outcome State Fault Refusal := s.runIf (Instr.wf .syncIoEdge) syncIoEdge

/-- CHANGE_ACK. -/
def execChangeAck (r : Fin 25) (s : State) : Host.Outcome State Fault Refusal :=
  s.runIf (Instr.wf (.changeAck r)) (changeAck r)

/-- MODE_APPLY. -/
def execModeApply (r : Fin 25) (s : State) : Host.Outcome State Fault Refusal :=
  s.runIf (Instr.wf (.modeApply r)) (modeApply r)

/-- PROGRESS_STALL. -/
def execProgressStall (r : Fin 25) (s : State) : Host.Outcome State Fault Refusal :=
  s.runIf (Instr.wf (.progressStall r)) (progressStall r)

/-- HEARTBEAT_LOST. -/
def execHeartbeatLost (s : State) : Host.Outcome State Fault Refusal := s.runIf (Instr.wf .heartbeatLost) heartbeatLost

end Sys2Proof.Machine
end

