-- ==== Sys2Proof/Machine/GangCmd.lean ====
section
/-!
DEFINITION. Machine/GangCmd.lean: the program and gang commands of Table 14.11 and the pre-emption of a gang
(spec/06_sequencer.md R233 to R245; spec/07_scratchpad.md R278 to R288; spec/09_messages.md R336, R363, R375;
spec/14_tirix.md R520 to R524; spec/16_power.md R578, R586; spec/17_faults.md R617).
-/

namespace Sys2Proof.Machine

open Sys2Proof

/-- A program or gang command: owner and ordinary sessions with the PROGRAM right (Table 14.6, Table 14.7). -/
def gangCmd (code : Nat) (lengthOk : Mod → Req → Bool) (rights : Mod → Req → Bool) (run : Req → Mod → Ans) : Cmd :=
  { code := code, kinds := [1, 2], lengthOk := lengthOk, rights := fun m q => m.holds q.no 0 && rights m q, run := run }

/-! ### PROGRAM_LOAD (R520) -/

def loadFlag (q : Req) (i : Nat) : Bool := q.fld 0x0C 2 / 2 ^ i % 2 == 1

def programLoadRun (q : Req) (m : Mod) : Ans :=
  { m := leaveStandby m, job := some (.load (BitVec.ofNat 64 (q.fld 0 8)) (q.fld 8 4) (loadFlag q 1) (loadFlag q 0)) }

def programLoadCmd : Cmd :=
  { gangCmd 0x0030 (fun _ q => q.size 0x0E && decide (128 ≤ q.fld 8 4 ∧ q.fld 8 4 ≤ 2 ^ 30)) (fun _ _ => true) programLoadRun with
    long := fun _ _ => true }

/-- The pages an image of some bytes takes. -/
def imagePages (len : Nat) : Nat := (len + pageSize - 1) / pageSize

/-- What a load ends with: the image, or a status (R520; log entry 44 says which of several failures is answered). -/
def loadImage (sess : Nat) (f : Src) (len : Nat) (interlock : Bool) (m : Mod) : Image ⊕ Nat :=
  let n := imagePages len
  if !imageOk f len then .inr eLength
  else if !timingOk (f.num 6 2) m.stepping interlock then .inr eTiming
  else
    match m.tirixPages n, freshIds m.nextImage 1 (m.images.map (·.id)) with
    | some ps, some id =>
      if m.quotaOf sess < m.quotaUsed sess + n then .inr eStock
      else if m.aon.state = .roughCut ∧ f.num 8 4 % 2 = 0 then .inr eRoughCut
      else .inl (readImage f id sess m.stepping ps)
    | _, _ => .inr eStock

/-- The bytes of an image's copy at offset `o` of its pages. -/
def imageChunk (f : Src) (len o : Nat) : Vec := chunkOf ((List.range 1024).map (fun i => if o + i < len then f (o + i) else 0))

/-- The copy of an image written to its pages. -/
def copyImage (f : Src) (len : Nat) (ps : List Nat) (m : Mod) : Mod :=
  (List.range ((len + 1023) / 1024)).foldl (fun m k =>
    m.setChunk (pageChunk (ps.getD (k / 2048) 0) (k % 2048)) (imageChunk f len (1024 * k))) m

/-- PROGRAM_LOAD_DONE: the source read, checked, and kept (R232, R520). -/
def programLoadDone (mb : Nat) (m : Mod) : Mod :=
  match m.jobs.find? (fun j => j.mb == mb && (match j.kind with
    | .load .. => true
    | _ => false)) with
  | none => m
  | some j =>
    match j.kind with
    | .load src len interlock stock =>
      let a := src.toNat
      let m := if stock then (pageRange (a / pageSize) ((a + len + pageSize - 1) / pageSize - a / pageSize)).foldl
        (fun m p => makeResident j.session p m) m else m
      if stock ∧ !m.rangeOk j.session a len true false then completeJob j eStock [] m else
      let f : Src := fun o => if stock then m.stockByte j.session (a + o) else m.host.mem.get (a + o)
      match loadImage j.session f len interlock m with
      | .inr st => completeJob j st [] m
      | .inl i =>
        let m := copyImage f len i.pages { m with images := m.images ++ [i], nextImage := i.id % 65535 + 1 }
        completeJob j 0 (le 2 i.id ++ le 1 i.parts.length ++ le 1 (b2n i.interlocked)) m
    | _ => m

/-! ### PROGRAM_UNLOAD -/

def programUnloadRun (q : Req) (m : Mod) : Ans :=
  if (m.image (q.fld 0 2)).isNone then Ans.fail m eState else { m := unloadImage (q.fld 0 2) m }

def programUnloadCmd : Cmd :=
  gangCmd 0x0031 (fun _ q => q.size 2) (fun m q => m.ownsImage q.no (q.fld 0 2)) programUnloadRun

/-! ### Choosing regions (R521) -/

/-- Whether a region is bound to a part that runs there, or that is placed and has never started (R521). -/
def regionBusy (m : Mod) (r : Nat) : Bool :=
  m.placements.any (fun p => p.gangs.any (fun g => g.region == r && (g.running || !g.started)))

/-- Whether a part may be bound to a region (R521, R510; log entry 49). -/
def regionFits (m : Mod) (mask : BitVec 25) (cores r : Nat) : Bool :=
  !regionBusy m r && bit m.desc.tested r && bit mask r && decide (cores ≤ (m.usableSites r).length)

/-- The named regions taken as named, then the lowest that fits for each part left (R521). -/
def chooseRegions (fits : Nat → Nat → Bool) (want cores : List Nat) : Option (List Nat) :=
  let named := want.filter (· != 0xFF)
  if !(decide named.Nodup) || !((want.zip cores).all (fun x => x.1 == 0xFF || fits x.2 x.1)) then none
  else
    (want.zip cores).foldl (fun (a : Option (List Nat)) x => a.bind (fun rs =>
      if x.1 ≠ 0xFF then some (rs ++ [x.1])
      else (allRegions.find? (fun r => !rs.contains r && !named.contains r && fits x.2 r)).map (fun r => rs ++ [r]))) (some [])

/-- The sites of a part's logical cores: the first usable ones of its region (R336, R617; log entry 14). -/
def Mod.sitesFor (m : Mod) (r cores : Nat) : List Nat := (m.usableSites r).take cores

/-- The region mask of a mailbox's session. -/
def Mod.maskOf (m : Mod) (mb : Nat) : BitVec 25 :=
  match m.sessionOn mb with
  | some s => s.regions
  | none => 0

/-! ### GANG_PLACE (R521, R241) -/

/-- The parts of the image a request names. -/
def Mod.partsOf (m : Mod) (i : Nat) : List PartDecl :=
  match m.image i with
  | some x => x.parts
  | none => []

/-- A SIG entry. -/
def readSig (w : Nat) : Sig :=
  { gang := w / 2 ^ 48, part := w / 2 ^ 40 % 256, remote := w / 2 ^ 39 % 2 == 1
    module := if w / 2 ^ 39 % 2 = 1 then w / 2 ^ 27 % 4096 else 0, word := w % 2048 }

def placeSigs (q : Req) : List Sig := (List.range (q.byte 6)).map (fun j => readSig (q.fld (0x28 + 8 * j) 8))

/-- The module indices of PARTNERS. -/
def placePartners (q : Req) : List Nat := (List.range 4096).filter (fun i => q.byte (0x128 + i / 8) / 2 ^ (i % 8) % 2 == 1)

def placeWant (q : Req) (n : Nat) : List Nat := (List.range n).map (fun k => q.byte (8 + k))

/-- The save area of some parts in pages (R241). -/
def savePagesOf (ps : List PartDecl) : Nat :=
  imagePages (ps.foldl (fun a d => a + 10 * 2 ^ 20 * d.cores + 2 ^ 16) 0)

/-- A core's place written to its word store (R94). -/
def placeWords (k cores : Nat) (c : Core) : Core :=
  { c with cc := { c.cc with words := (c.cc.words.set 0x7FF (BitVec.ofNat 64 k)).set 0x7FE (BitVec.ofNat 64 cores) } }

/-- Words 0x7FF and 0x7FE of a part's cores. -/
def writePlaces (sites : List Nat) (m : Mod) : Mod :=
  sites.zipIdx.foldl (fun m x => m.onCore x.1 (placeWords x.2 sites.length)) m

/-- The REGION array of an answer. -/
def regionBytes (rs : List Nat) : List Byte := (List.range 25).map (fun k => BitVec.ofNat 8 (rs.getD k 0xFF))

def gangPlaceRun (q : Req) (m : Mod) : Ans :=
  let i := q.fld 0 2
  let ps := m.partsOf i
  if (m.image i).isNone ∨ m.placements.any (fun p => p.image == i) then Ans.fail m eState else
  match chooseRegions (regionFits m (m.maskOf q.no)) (placeWant q ps.length) (ps.map (·.cores)),
      freshIds m.nextGang ps.length m.gangIds with
  | some rs, some g0 =>
    let sigs := placeSigs q
    let n := savePagesOf ps
    let known (g : Nat) : Bool := m.gangIds.contains g || decide (g0 ≤ g ∧ g < g0 + ps.length)
    if sigs.any (fun s => !s.remote && !known s.gang) then Ans.fail m ePlacement
    else if m.quotaOf (m.sessId q.no) < m.quotaUsed (m.sessId q.no) + n then Ans.fail m eStock
    else
      match m.tirixPages n with
      | none => Ans.fail m eStock
      | some pages =>
        if m.aon.state = .roughCut ∧ !(placePartners q).isEmpty then Ans.fail m eRoughCut
        else
          let gangs : List Gang := (ps.zip rs).zipIdx.map (fun (x : (PartDecl × Nat) × Nat) =>
            ({ id := g0 + x.2, part := x.1.1.part, region := x.1.2, sites := m.sitesFor x.1.2 x.1.1.cores } : Gang))
          let p : Placement := { g0 := g0, session := m.sessId q.no, image := i, gangs := gangs, sigs := sigs
                                 partners := placePartners q, savePages := pages }
          let m := gangs.foldl (fun m g => writePlaces g.sites m) m
          { m := { m with placements := m.placements ++ [p], nextGang := (g0 + ps.length - 1) % 65535 + 1 }
            body := le 2 g0 ++ zeros 2 ++ regionBytes rs }
  | _, _ => Ans.fail m ePlacement

/-- The length check of GANG_PLACE: REGION entries within PART_COUNT are regions or 0xFF. -/
def placeLength (m : Mod) (q : Req) : Bool :=
  q.size 0x328 && decide (q.byte 6 ≤ 32) &&
    (placeWant q (m.partsOf (q.fld 0 2)).length).all (fun r => decide (r < 25) || r == 0xFF)

def gangPlaceCmd : Cmd := gangCmd 0x0032 placeLength (fun m q => m.ownsImage q.no (q.fld 0 2)) gangPlaceRun

/-! ### GANG_PLACE with RELEASE (R522) -/

def gangReleaseRun (q : Req) (m : Mod) : Ans :=
  match m.placement (q.fld 4 2) with
  | none => Ans.fail m eState
  | some p => if p.preempted ∨ p.gangs.any (·.running) then Ans.fail m eState else { m := releasePlacement p.g0 m }

def gangReleaseCmd : Cmd := gangCmd 0x0032 (fun _ q => q.size 0x328) (fun m q => m.ownsPlacement q.no (q.fld 4 2)) gangReleaseRun

/-! ### What a gang's start does to a core (R90 to R93, R113, R160, R260, R265, R279 to R288, R357, R363) -/

/-- The cells a test names set to zero, of a memory of `n` cells. -/
def Mem.zeroWhere {w : Nat} (n : Nat) (f : Nat → Bool) (m : Mem w) : Mem w :=
  ((List.range n).filter f).foldl (fun m k => m.set k 0) m

/-- A core's rows as a part's gating and zero fill leave them: what is gated is lost and reads zero when powered again (log entry 50). -/
def gateCore (d : PartDecl) (c : Core) : Core :=
  if d.zeroFill then { c with sp := { c.sp with rows := Mem.zero }, arr := { c.arr with acc := Mem.zero } }
  else
    { c with
      sp := { c.sp with rows := if d.gateGroups = 0 then c.sp.rows else c.sp.rows.zeroWhere 16384 (rowGated d) }
      arr := { c.arr with acc := if d.gateLo || d.gateHi then c.arr.acc.zeroWhere (accRows d) (accGated d) else c.arr.acc } }

/-- A core scrubbed for another session (R286). -/
def scrubCore (c : Core) : Core :=
  { c with sp := { c.sp with rows := Mem.zero }, arr := { c.arr with acc := Mem.zero }, cc := { c.cc with words := Mem.zero }
           v0 := { c.v0 with tiles := Mem.zero }, v1 := { c.v1 with tiles := Mem.zero } }

/-- The owner fields of a declared word's shadow record (R363, R372, Table 9.7, Table 9.8). -/
def clampOwner (p : Placement) (d : PartDecl) (x : ClampDecl) : W128 :=
  match x.sigKind with
  | 1 => BitVec.ofNat 128 ((p.g0 + x.sigPart) * 2 ^ 112)
  | 2 =>
    match p.sigs.find? (fun s => s.part == d.part && s.word == x.word) with
    | some s => BitVec.ofNat 128 (s.gang * 2 ^ 112 + b2n s.remote * 2 ^ 52 + s.module * 2 ^ 40)
    | none => 0
  | _ => 0

/-- The word store at a gang's start: place, seed, G, declared clamp words and cursor words (R94, R139, R233, R265, R363; log entry 48). -/
def startWords (d : PartDecl) (k : Nat) (seed gstep : W64) (w : Mem 64) : Mem 64 :=
  let w := (((w.set 0x7FF (BitVec.ofNat 64 k)).set 0x7FE (BitVec.ofNat 64 d.cores)).set 0x7FD seed).set 0x7FC gstep
  let w := d.drawers.foldl (fun (w : Mem 64) x => w.set (0x780 + x.1) (BitVec.ofNat 64 (x.1 * 2 ^ 26))) w
  d.clamps.foldl (fun (w : Mem 64) x => w.set x.word (BitVec.ofNat 64 (2 ^ 63 + x.init))) w

/-- The words of one core that hold clamp words' shadow records. -/
def startShadow (p : Placement) (d : PartDecl) : Mem 128 :=
  d.clamps.foldl (fun (w : Mem 128) x => w.set x.word (clampOwner p d x)) Mem.zero

/-- A core at a gang's start, its rows as they are. -/
def startCore (p : Placement) (d : PartDecl) (k : Nat) (seed gstep : W64) (c : Core) : Core :=
  { cc := { seed := [(0, seed)], words := startWords d k seed gstep c.cc.words, shadow := startShadow p d }
    arr := { acc := c.arr.acc, cnt := { c.arr.cnt with sticky := 0, firstNonfinite := 0 } }
    vrec := { c.vrec with sticky := 0, firstNan := 0 }
    sp := { rows := c.sp.rows
            cnt := { c.sp.cnt with sticky := 0, uncorrectableRow := 0, firstError := 0, firstErrorHandle := 0 } }
    ni := { rx := c.ni.rx, cnt := { c.ni.cnt with firstStray := 0, firstStraySrc := 0, firstMsgError := 0 } }
    upd := { cnt := { c.upd.cnt with sticky := 0, firstUpdError := 0 } }
    stall := c.stall }

/-- Every usable core of a region scrubbed when its previous gang belonged to another session (R286). -/
def scrubRegion (r sess : Nat) (m : Mod) : Mod :=
  let g := m.region r
  if g.run.ever ∧ g.run.session ≠ sess then (m.usableSites r).foldl (fun m s => m.onCore s scrubCore) m else m

/-- Accumulators hold undefined contents under another width than the session's previous gang's (R132, R287; log entry 18). -/
def widthCores (r sess : Nat) (half : Bool) (sites : List Nat) (m : Mod) : Mod :=
  let g := m.region r
  if g.run.ever ∧ g.run.session = sess ∧ g.run.widthHalf ≠ half then
    sites.foldl (fun m s => m.onCore s (fun c => { c with arr := { c.arr with acc := Mem.undef (m.freeCtr + s) } }))
      { m with freeCtr := m.freeCtr + 25600 }
  else m

/-! ### What a gang's start does to a region (Table 6.1, R49, R55, R218, R233, R465, R486, R491, R554) -/

/-- The gang a start or resume runs on a region, from its start. -/
structure Begin where
  gang : Nat
  part : Nat
  region : Nat
  sites : List Nat
  step : Nat
  decl : PartDecl

/-- The run a region begins. `resumed` sets both void flags, as a pre-emption does. -/
def beginRun (b : Begin) (sess : Nat) (i : Image) (rough resumed maskOpen : Bool) (g : Region) : Region :=
  { g with
    decl := b.decl, site := b.sites
    run := { gang := b.gang, session := sess, part := b.part, running := true
             tickVoid := rough || resumed || maskOpen, cycleVoid := rough || resumed || i.interlocked
             interlocked := if i.interlocked then some i.table.toNat else none
             admitted := b.step, widthHalf := b.decl.halfWidth, ever := true }
    eng := { g.eng with cnt := { g.eng.cnt with firstDescError := if resumed then g.eng.cnt.firstDescError else 0 } } }

/-- The sequencer and the combiner at a gang's start. -/
def beginSeq (b : Begin) (base : Nat) (gstep layer : W64) (g : Region) : Region :=
  { g with
    seq := { g := gstep, addr := b.decl.entry, kerfBase := base, wait := .first, cnt := g.seq.cnt }
    dig := { layerBase := layer } }

/-- A part's region awake at its admitted step (R578, R576). -/
def wakeFor (b : Begin) (m : Mod) : Mod :=
  let m := wakeRegion b.region b.step m
  switchStep b.region (m.underCeiling b.region b.step) m

/-- A part started on its region. -/
def startPart (p : Placement) (i : Image) (base : Nat) (seed gstep layer : W64) (m : Mod) (b : Begin) : Mod :=
  let maskOpen : Bool := m.aon.inFlight && m.aon.appliedMask != 0x1FFFFFF
  let rough : Bool := m.aon.state == .roughCut
  let m := widthCores b.region p.session b.decl.halfWidth b.sites (scrubRegion b.region p.session (wakeFor b m))
  let m := b.sites.zipIdx.foldl (fun m x => m.onCore x.1 (fun c => startCore p b.decl x.2 seed gstep (gateCore b.decl c))) m
  let m := m.onRegion b.region (fun g => beginSeq b base gstep layer (beginRun b p.session i rough false maskOpen g))
  let m := beginInterval b.region b.decl.firstTicks b.decl.firstInterval b.decl.firstEclass m
  m.onGang b.gang (fun g => { g with
    sites := b.sites, started := true, running := true, status := 0xFF, rough := rough, boundaries := 0, saved := none })

/-- The regions that carry a started placement's routes, awake (R65, R383, R578). -/
def wakeRoutes (g0 : Nat) (m : Mod) : Mod :=
  match m.placement g0 with
  | none => m
  | some p => (routeRegions m (m.routeEnds p)).foldl (fun m r => if bit m.desc.tested r then wakeRegion r 1 m else m) m

/-! ### GANG_START (R523, R47) -/

def startFlag (q : Req) (i : Nat) : Bool := q.fld 2 2 / 2 ^ i % 2 == 1

/-- Whether a region that a start or resume would use is held: another gang runs there, or an ended one's work is unsettled
(R248). -/
def regionHeld (m : Mod) (r : Nat) : Bool := (m.region r).run.running || !(m.region r).run.settled

/-- B, when the request supplies none: the stick at the mark whose number is two greater than the latest (R47; log entry 45). -/
def Mod.runBase (m : Mod) : W64 := m.aon.stickAtMark + BitVec.ofNat 64 (m.aon.span + 46080)

/-- Whether a supplied base is too near (R47). -/
def baseEarly (m : Mod) (b : Nat) : Bool := decide (b < m.aon.stick.toNat + 92160)

/-- The ring of a request (R483): none when it asks for none; a failure is `some none`. -/
def startRing (q : Req) (m : Mod) : Option (Option DigRing) :=
  if !startFlag q 3 then none else
  let sa := q.fld 0x28 8
  let n := q.fld 0x30 4
  if n % 64 = 0 ∧ 64 + 8 * 1024 ≤ n ∧ sa + 0x40 + n ≤ 2 ^ 48 ∧ m.rangeOk (m.sessId q.no) sa (0x40 + n) false true then
    some (some { session := m.sessId q.no, sa := sa, bytes := n })
  else some none

/-- A new ring's header in stock, where its page is resident (R481; log entry 51). -/
def writeRingHeader (g : Option DigRing) (m : Mod) : Mod :=
  match g with
  | some g => if m.rangeOk g.session g.sa 0x40 true true then m.stockWrite g.session g.sa (ringHeader g) else m
  | none => m

/-- The parts of a placement ready to begin at given steps, on their regions. -/
def beginsOf (m : Mod) (p : Placement) (ds : List PartDecl) (steps : List Nat) : List Begin :=
  (p.gangs.zip (ds.zip steps)).map (fun (x : Gang × PartDecl × Nat) =>
    ({ gang := x.1.id, part := x.1.part, region := x.1.region, sites := m.sitesFor x.1.region x.2.1.cores
       step := x.2.2, decl := x.2.1 } : Begin))

/-- Whether every part finds its cores (R617). -/
def coresFound (m : Mod) (p : Placement) (ds : List PartDecl) : Bool :=
  (p.gangs.zip ds).all (fun x => decide (x.2.cores ≤ (m.usableSites x.1.region).length))

def stepBytes (steps : List Nat) : List Byte := steps.map (BitVec.ofNat 8)

/-- A placement started: every part with one run base (R48). -/
def startPlacement (q : Req) (p : Placement) (i : Image) (steps : List Nat) (ring : Option DigRing) (m : Mod) : Ans :=
  let base : W64 := if startFlag q 0 then BitVec.ofNat 64 (q.fld 8 8) else m.runBase
  let seed : W64 := if startFlag q 1 then BitVec.ofNat 64 (q.fld 0x10 8) else i.seed
  let gstep : W64 := if startFlag q 2 then BitVec.ofNat 64 (q.fld 0x18 8) else i.gstep
  let layer : W64 := BitVec.ofNat 64 (q.fld 0x20 8)
  let p' := { p with runBase := base, layerBase := layer, ring := ring, regionRecs := [] }
  let bs := beginsOf m p i.parts steps
  let m := leaveStandby (m.setPlacement p')
  let m := bs.foldl (startPart p' i base.toNat seed gstep layer) m
  { m := wakeRoutes p.g0 (writeRingHeader ring m), body := bytesOf base 8 ++ stepBytes steps }

def gangStartRun (q : Req) (m : Mod) : Ans :=
  match m.placement (q.fld 0 2) with
  | none => Ans.fail m eState
  | some p =>
    match m.image p.image with
    | none => Ans.fail m eState
    | some i =>
      let rs := p.gangs.map (·.region)
      if p.preempted ∨ rs.any (regionHeld m) ∨ (startFlag q 0 ∧ baseEarly m (q.fld 8 8)) then Ans.fail m eState
      else if !coresFound m p i.parts then Ans.fail m ePlacement
      else
        match admitParts m rs i.parts, startRing q m with
        | none, _ => Ans.fail m eEnvelope
        | some _, some none => Ans.fail m eStock
        | some steps, some (some r) => startPlacement q p i steps (some r) m
        | some steps, none => startPlacement q p i steps none m

def gangStartCmd : Cmd := gangCmd 0x0033 (fun _ q => q.size 0x34) (fun m q => m.ownsPlacement q.no (q.fld 0 2)) gangStartRun

/-! ### GANG_STOP (R246, R524) -/

def gangStopRun (q : Req) (m : Mod) : Ans :=
  match m.placement (q.fld 0 2) with
  | none => Ans.fail m eState
  | some p => if p.gangs.any (·.running) then { m := stopPlacement 1 p.g0 m } else Ans.fail m eState

def gangStopCmd : Cmd := gangCmd 0x0034 (fun _ q => q.size 2) (fun m q => m.ownsPlacement q.no (q.fld 0 2)) gangStopRun

/-! ### GANG_PREEMPT (R241 to R243) -/

/-- A gang's regions changed, where each still holds its part. -/
def onParts (p : Placement) (f : Region → Region) (m : Mod) : Mod :=
  p.gangs.foldl (fun m g => m.onRegion g.region (fun x => if x.run.gang = g.id then f x else x)) m

def gangPreemptRun (q : Req) (m : Mod) : Ans :=
  match m.placement (q.fld 0 2) with
  | none => Ans.fail m eState
  | some p =>
    if !p.gangs.all (·.running) then Ans.fail m eState
    else { m := onParts p (fun x => { x with run := { x.run with preempting := true } }) m, job := some (.preempt p.g0) }

def gangPreemptCmd : Cmd :=
  { gangCmd 0x0035 (fun _ q => q.size 2) (fun m q => m.ownsPlacement q.no (q.fld 0 2)) gangPreemptRun with long := fun _ _ => true }

/-- Whether a core of a gang is quiescent (R241). -/
def coreQuiescent (gang : Nat) (c : Core) : Bool :=
  coreIdle c && c.arr.completeDue.isNone && c.ni.tx.isEmpty && c.ni.tokWait.isEmpty && c.upd.jobs.isEmpty && c.sp.landing.isEmpty &&
    c.ni.rx.all (fun x => x.gang != gang)

/-- Whether a part waits at its PREEMPT_POINT, quiescent (R241; log entry 52). -/
def partQuiescent (m : Mod) (x : Gang) : Bool :=
  let g := m.region x.region
  g.run.gang == x.id && g.run.running && g.seq.wait == .preempt && g.seq.pipe.isEmpty && g.seq.stopping.isNone &&
    g.eng.queue.isEmpty && g.eng.jobs.isEmpty && g.eng.xfers.isEmpty && g.eng.landing.isEmpty && g.eng.stores.isEmpty &&
    g.site.all (fun s => coreQuiescent x.id (m.core s)) && m.mesh.msgs.all (fun n => n.2.dgang != x.id)

/-- A part's state saved, and its region left (R243; log entry 52). -/
def savePart (m : Mod) (x : Gang) : Mod :=
  let g := m.region x.region
  let saved : SavedPart := { seq := g.seq, dig := g.dig, cores := g.site.map m.core }
  let m := g.site.foldl (fun m s => m.onCore s (fun c => { c with queues := [], ni := { c.ni with tokens := [], recvs := [] } })) m
  let m := m.onRegion x.region (fun g => { g with
    run := { g.run with running := false, ended := true, status := 7, preempting := false, heldMarks := 0, stalled := false }
    seq := { g.seq with wait := .none, interval := none, kerfBase := 0
                        cnt := { g.seq.cnt with preemptions := bump32 g.seq.cnt.preemptions 1 } }
    dig := { g.dig with pending := [] } })
  m.onGang x.id (fun y => { y with
    running := false, pending := false, status := 7, tickVoid := true, cycleVoid := true, admitted := g.run.admitted
    bundle := g.seq.addr, position := BitVec.ofNat 64 g.seq.pos, gstep := g.seq.g, kerfBase := BitVec.ofNat 64 g.seq.kerfBase
    boundaries := g.dig.boundaries.toNat, saved := some saved })

/-- PREEMPT_SAVE: every part quiescent, all are saved together and the pre-emption completes (R242, R371, R372). -/
def preemptSave (g0 : Nat) (m : Mod) : Mod :=
  match m.placement g0, m.jobs.find? (fun j => match j.kind with
    | .preempt g => g == g0
    | _ => false) with
  | some p, some j =>
    if !p.gangs.all (partQuiescent m) then m else
    let m := p.gangs.foldl savePart m
    let m := { m with placements := m.placements.map (fun x => if x.g0 == g0 then { x with preempted := true } else x) }
    let m := p.gangs.foldl (fun m g =>
      floodNotice (.preempted (Fin.ofNat 4096 (coordIndex m.topo.coord)) (BitVec.ofNat 16 g.id)) none m) m
    completeJob j 0 [] m
  | _, _ => m

/-! ### GANG_RESUME (R244, R524) -/

/-- A saved core put back on a site: the site keeps its own counters, and what the part gates stays lost. -/
def restoreCore (d : PartDecl) (saved c : Core) : Core :=
  let x := { saved with
    arr := { saved.arr with cnt := c.arr.cnt, swapCycle := none }, vrec := c.vrec, sp := { saved.sp with cnt := c.sp.cnt }
    ni := { saved.ni with cnt := c.ni.cnt, rx := c.ni.rx }, upd := { c.upd with jobs := [] }, stall := c.stall }
  gateCore { d with zeroFill := false } x

/-- A part resumed on its region: its PREEMPT_POINT issues again without waiting for its old target. -/
def resumePart (p : Placement) (i : Image) (base : Nat) (m : Mod) (b : Begin) : Mod :=
  let rough : Bool := m.aon.state == .roughCut
  match (p.gangs.find? (fun g => g.id == b.gang)).bind (·.saved) with
  | none => m
  | some sv =>
    let m := scrubRegion b.region p.session (wakeFor b m)
    let m := (b.sites.zip sv.cores).foldl (fun m (x : Nat × Core) => m.onCore x.1 (restoreCore b.decl x.2)) m
    let m := m.onRegion b.region (fun g =>
      let g := beginRun b p.session i rough true false g
      { g with seq := { sv.seq with kerfBase := base, wait := .first, resumeIssue := true, cnt := g.seq.cnt }, dig := sv.dig })
    m.onGang b.gang (fun g => { g with
      region := b.region, sites := b.sites, running := true, status := 0xFF, rough := g.rough || rough, saved := none })

/-- A placement resumed on regions chosen. -/
def resumePlacement (q : Req) (p : Placement) (i : Image) (rs steps : List Nat) (m : Mod) : Ans :=
  let base : W64 := if startFlag q 0 then BitVec.ofNat 64 (q.fld 8 8) else m.runBase
  let p' := { p with runBase := base, preempted := false, gangs := (p.gangs.zip rs).map (fun (x : Gang × Nat) => { x.1 with region := x.2 }) }
  let bs := beginsOf m p' i.parts steps
  let m := leaveStandby (m.setPlacement p')
  let m := wakeRoutes p.g0 (bs.foldl (resumePart p' i base.toNat) m)
  let m := p.gangs.foldl (fun m g =>
    floodNotice (.resumed (Fin.ofNat 4096 (coordIndex m.topo.coord)) (BitVec.ofNat 16 g.id)) none m) m
  { m := m, job := some (.resume p.g0 base) }

def resumeWant (q : Req) (n : Nat) : List Nat := (List.range n).map (fun k => q.byte (0x10 + k))

def gangResumeRun (q : Req) (m : Mod) : Ans :=
  match m.placement (q.fld 0 2) with
  | none => Ans.fail m eState
  | some p =>
    match m.image p.image with
    | none => Ans.fail m eState
    | some i =>
      if !p.preempted ∨ (startFlag q 0 ∧ baseEarly m (q.fld 8 8)) then Ans.fail m eState
      else
        match chooseRegions (regionFits m (m.maskOf q.no)) (resumeWant q i.parts.length) (i.parts.map (·.cores)) with
        | none => Ans.fail m ePlacement
        | some rs =>
          if rs.any (regionHeld m) then Ans.fail m eState
          else
            match admitParts m rs i.parts with
            | none => Ans.fail m eEnvelope
            | some steps => resumePlacement q p i rs steps m

/-- The parts of the image a placement holds. -/
def Mod.partsPlaced (m : Mod) (g0 : Nat) : List PartDecl :=
  match m.placement g0 with
  | some p => m.partsOf p.image
  | none => []

def gangResumeCmd : Cmd :=
  { gangCmd 0x0036 (fun m q => q.size 0x29 &&
      (resumeWant q (m.partsPlaced (q.fld 0 2)).length).all (fun r => decide (r < 25) || r == 0xFF))
      (fun m q => m.ownsPlacement q.no (q.fld 0 2)) gangResumeRun with long := fun _ _ => true }

/-- GANG_RESUME_DONE: every part has issued its PREEMPT_POINT, or one has ended first (log entry 53). -/
def gangResumeDone (mb : Nat) (m : Mod) : Mod :=
  match m.jobs.find? (fun j => j.mb == mb && (match j.kind with
    | .resume .. => true
    | _ => false)) with
  | none => m
  | some j =>
    match j.kind with
    | .resume g0 base =>
      match m.placement g0 with
      | none => completeJob j eState [] m
      | some p =>
        if !p.gangs.all (·.running) then completeJob j eState [] m
        else if p.gangs.all (fun g => !(m.region g.region).seq.resumeIssue) then completeJob j 0 (bytesOf base 8) m
        else m
    | _ => m

/-! ### GANG_STATUS (Table 14.11, R375) -/

/-- What a stall report says of one core: the word waited on and DETAIL, of its lowest unmet slot (Table 9.9; log entry 54). -/
def stallDetail (c : Core) (word : Nat) (hs : List Hold) : Nat × Nat :=
  match sortBy (fun a b => decide (a.slot ≤ b.slot)) hs with
  | [] => (0xFFFF, 0)
  | h :: _ =>
    if h.cause = 7 then (word, (c.cc.words.get word).toNat)
    else if h.cause = 2 ∧ 24 ≤ h.queue ∧ h.queue < 28 then
      (0xFFFF, match c.ni.tx with
        | t :: _ => hdrTag t.hdr * 2 ^ 48 + hdrDpart t.hdr * 2 ^ 43 + hdrDcore t.hdr * 2 ^ 33
        | [] => 0)
    else if h.cause = 1 then
      (0xFFFF, match c.ni.recvs.find? (fun x => x.rq == h.queue) with
        | some x => x.entry * 2 ^ 56 + (Tab.get c.ni.rings x.entry {}).m % 256 * 2 ^ 48
        | none => 0)
    else (0xFFFF, 0)

/-- The bundle a gang is held at. -/
def heldAt (g : Region) : Nat × Nat :=
  match g.seq.pipe with
  | b :: _ => if seqHeld g then (b.addr, b.pos) else (0, 0)
  | [] => if g.seq.wait == .stock || g.seq.wait == .digest then (g.seq.addr, g.seq.pos) else (0, 0)

/-- The stall report of a gang on its region (Table 9.9): all zero but for its names once it no longer runs there. -/
def stallReport (m : Mod) (gang r : Nat) : List Byte :=
  let g := m.region r
  let live : Bool := g.run.running && g.run.gang == gang
  let hs := if live && seqHeld g then holdReport m r else []
  let es := hs.take 64
  let at_ := if live then heldAt g else (0, 0)
  le 2 gang ++ le 1 r ++ zeros 1 ++ le 2 (at_.1 % 32768) ++ le 2 es.length ++ le 8 at_.2 ++
    le 4 (if live then g.run.heldMarks else 0) ++ le 2 hs.length ++ zeros 10 ++
    es.flatMap (fun x =>
      let c := m.core (g.siteOf x.1)
      let d := stallDetail c x.2.2 x.2.1
      le 2 x.1 ++ le 2 d.1 ++ bytesOf c.stall.holdLast 4 ++ le 8 d.2) ++
    ((List.range (64 - es.length)).flatMap (fun _ => le 2 0 ++ le 2 0xFFFF ++ zeros 12))

/-- A gang's state, from its region while it runs there, else as it was left (log entry 54). -/
def statusBody (m : Mod) (p : Placement) (x : Gang) (report : Bool) : List Byte :=
  let g := m.region x.region
  let live : Bool := x.running
  let interlocked : Bool := match m.image p.image with
    | some i => i.interlocked
    | none => false
  let status := if live then 0xFF else x.status
  let flags := b2n live * 2 ^ 23 + 2 ^ 22 + b2n (live && g.run.preempting) * 2 ^ 21 +
    b2n (if live then g.run.tickVoid else x.tickVoid) * 2 ^ 20 + b2n (if live then g.run.cycleVoid else x.cycleVoid) * 2 ^ 19 +
    b2n interlocked * 2 ^ 18 + x.part * 2 ^ 13 + x.region * 2 ^ 8 + (if live then g.run.admitted else x.admitted) * 16 +
    (if g.run.gang = x.id then g.step else 0)
  le 4 (status * 2 ^ 24 + flags) ++ le 2 ((if live then g.seq.addr else x.bundle) % 32768) ++ zeros 2 ++ bytesOf p.runBase 8 ++
    (if live then le 8 g.seq.kerfBase else bytesOf x.kerfBase 8) ++ (if live then le 8 g.seq.pos else bytesOf x.position 8) ++
    bytesOf (if live then g.seq.g else x.gstep) 8 ++ (if report then stallReport m x.id x.region else [])

def gangStatusRun (q : Req) (m : Mod) : Ans :=
  let id := q.fld 0 2
  match (m.placementOf id).bind (fun p => (p.gangs.find? (fun g => g.id == id)).map (fun g => (p, g))) with
  | none => Ans.fail m eState
  | some (p, g) => { m := m, body := statusBody m p g (q.fld 2 2 % 2 == 1) }

def gangStatusCmd : Cmd :=
  { code := 0x0037, kinds := [1, 2, 3], states := statesRFTH, lengthOk := fun _ q => q.size 4
    rights := fun m q => m.observesGang q.no (q.fld 0 2), run := gangStatusRun }

/-! ### The commands -/

/-- PROGRAM_LOAD. -/
def execProgramLoad (q : Req) (s : State) : Host.Outcome State Fault Refusal :=
  s.runIf (Instr.wf (.programLoad q)) (mailboxCmd programLoadCmd q)

/-- PROGRAM_LOAD_DONE. -/
def execProgramLoadDone (mb : Fin 31) (s : State) : Host.Outcome State Fault Refusal :=
  s.runIf (Instr.wf (.programLoadDone mb)) (programLoadDone mb.val)

/-- PROGRAM_UNLOAD. -/
def execProgramUnload (q : Req) (s : State) : Host.Outcome State Fault Refusal :=
  s.runIf (Instr.wf (.programUnload q)) (mailboxCmd programUnloadCmd q)

/-- GANG_PLACE. -/
def execGangPlace (q : Req) (s : State) : Host.Outcome State Fault Refusal :=
  s.runIf (Instr.wf (.gangPlace q)) (mailboxCmd gangPlaceCmd q)

/-- GANG_PLACE with RELEASE. -/
def execGangPlaceRelease (q : Req) (s : State) : Host.Outcome State Fault Refusal :=
  s.runIf (Instr.wf (.gangPlaceRelease q)) (mailboxCmd gangReleaseCmd q)

/-- GANG_START. -/
def execGangStart (q : Req) (s : State) : Host.Outcome State Fault Refusal :=
  s.runIf (Instr.wf (.gangStart q)) (mailboxCmd gangStartCmd q)

/-- GANG_STOP. -/
def execGangStop (q : Req) (s : State) : Host.Outcome State Fault Refusal :=
  s.runIf (Instr.wf (.gangStop q)) (mailboxCmd gangStopCmd q)

/-- GANG_PREEMPT. -/
def execGangPreempt (q : Req) (s : State) : Host.Outcome State Fault Refusal :=
  s.runIf (Instr.wf (.gangPreempt q)) (mailboxCmd gangPreemptCmd q)

/-- PREEMPT_SAVE. -/
def execPreemptSave (g0 : W16) (s : State) : Host.Outcome State Fault Refusal :=
  s.runIf (Instr.wf (.preemptSave g0)) (preemptSave g0.toNat)

/-- GANG_RESUME. -/
def execGangResume (q : Req) (s : State) : Host.Outcome State Fault Refusal :=
  s.runIf (Instr.wf (.gangResume q)) (mailboxCmd gangResumeCmd q)

/-- GANG_RESUME_DONE. -/
def execGangResumeDone (mb : Fin 31) (s : State) : Host.Outcome State Fault Refusal :=
  s.runIf (Instr.wf (.gangResumeDone mb)) (gangResumeDone mb.val)

/-- GANG_STATUS. -/
def execGangStatus (q : Req) (s : State) : Host.Outcome State Fault Refusal :=
  s.runIf (Instr.wf (.gangStatus q)) (mailboxCmd gangStatusCmd q)

end Sys2Proof.Machine
end

