-- ==== Sys2Proof/Machine/Modes.lean ====
section
/-!
DEFINITION. Machine/Modes.lean: the mode, power, event, fault and policy commands of Table 14.14 and Table 14.15
(spec/14_tirix.md R513, R528 to R536; spec/02_story_stick.md R66 to R69; spec/15_bringup.md R555, R572 to R574;
spec/16_power.md R587, R588, R593; spec/17_faults.md R600, R604, R611, R612, R620, R621, R623).
-/

namespace Sys2Proof.Machine

open Sys2Proof

/-- An owner's command. -/
def ownerCmd (code : Nat) (lengthOk : Mod → Req → Bool) (run : Req → Mod → Ans) : Cmd :=
  { code := code, kinds := [1], lengthOk := lengthOk, run := run }

/-! ### STEP_STAGE (R528, R555, R587) -/

/-- The regions a STEP_STAGE names, with their codes. -/
def stageEntries (q : Req) : List (Nat × Nat) :=
  (allRegions.map (fun n => (n, q.byte n))).filter (fun x => x.2 != 0xFF)

/-- The step a region is charged at once what is staged applies (R587). -/
def stagedOf (m : Mod) (t : Tab Nat) (r : Nat) : Nat := Tab.get t r (m.region r).run.admitted

/-- Whether the staged steps keep the sum of R586 within the limit. -/
def stageFits (m : Mod) (t : Tab Nat) : Bool :=
  decide (m.fixedPower [] + m.runningRegions.foldl (fun a r => a + chargeAt (m.region r).decl (stagedOf m t r)) 0 ≤ m.powerLimit)

/-- Whether the gang a region runs was started or resumed in ROUGH_CUT (R555). -/
def roughRegion (m : Mod) (r : Nat) : Bool :=
  let g := m.region r
  g.run.running && (match m.placementOf g.run.gang with
    | some p => p.gangs.any (fun x => x.id == g.run.gang && x.rough)
    | none => false)

/-- Whether a region may be staged at a code (R528, R555, R587). -/
def stageOk (m : Mod) (x : Nat × Nat) : Bool :=
  let g := m.region x.1
  decide (x.2 ≤ m.settings.ceiling) && (decide (x.2 ≤ 3) || (m.aon.state != .roughCut && !roughRegion m x.1)) &&
    (!g.run.running || ((partPower g.decl x.2).isSome && decide (g.decl.floor ≤ x.2)))

/-- The codes of regions 16·ITEM to 16·ITEM + 15, 4 bits each (Table 15.12). -/
def stepWord (item : Nat) (f : Nat → Nat) : Nat :=
  (List.range 16).foldl (fun a k => a + (if 16 * item + k < 25 then f (16 * item + k) % 16 else 15) * 16 ^ k) 0

def stepStageRun (q : Req) (m : Mod) : Ans :=
  if m.aon.inFlight then Ans.fail m eBusy else
  let xs := stageEntries q
  let t := xs.foldl (fun (t : Tab Nat) x => Tab.set t x.1 x.2) m.settings.stagedSteps
  if !xs.all (stageOk m) ∨ (xs.any (fun x => (m.region x.1).run.running) ∧ !stageFits m t) then Ans.fail m eEnvelope else
  let log (item : Nat) (n : Mod) : Mod :=
    logChange 0x0050 (m.sessId q.no) item 0 false (stepWord item (fun r => (m.region r).step))
      (stepWord item (fun r => if q.byte r = 0xFF then 15 else q.byte r)) n
  let m' := { m with settings := { m.settings with stagedSteps := t } }
  let m' := xs.foldl (fun m x => m.onRegion x.1 (fun g => { g with ack := false })) m'
  { m := log 1 (log 0 m') }

def stepStageCmd : Cmd :=
  ownerCmd 0x0050 (fun _ q => q.size 25 && allRegions.all (fun n => decide (1 ≤ q.byte n ∧ q.byte n ≤ 8) || q.byte n == 0xFF)) stepStageRun

/-! ### MODE_COMMIT (R66 to R69, R529) -/

/-- The log entry of a MODE_COMMIT (Table 15.12). -/
def logCommit (q : Req) (m : Mod) : Mod :=
  logChange 0x0051 (m.sessId q.no) (q.byte 8) 0 false m.settings.modes.toNat (q.fld 0 7 * 256 + q.byte 9 % 8) m

/-- A region in the scope of a commit takes what is committed for it. What a sleeping region still had to apply is applied
first (R69). -/
def commitRegion (change value : BitVec 3) (m : Mod) (r : Nat) : Mod :=
  let step := Tab.find m.settings.stagedSteps r
  if change = 0 ∧ step.isNone then m else
  (applyChange r m).onRegion r (fun g => { g with
    pendingChange := true, pendChange := change, pendValue := value, stagedStep := step, ack := g.ack && change == 0 })

/-- Everything staged committed as one change (R68; log entry 61). -/
def commitAll (mark : W64) (change value : BitVec 3) (m : Mod) : Mod :=
  let m := allRegions.foldl (commitRegion change value) m
  { m with
    aon := { m.aon with inFlight := true, commitMark := mark, appliedMask := 0 }
    settings := { m.settings with
      flightSteps := m.settings.stagedSteps, flightWheel := m.settings.stagedWheel, flightChange := change, flightValue := value
      stagedSteps := [], stagedWheel := none } }

def modeCommitRun (q : Req) (m : Mod) : Ans :=
  if q.fld 0 8 < m.aon.markNumber.toNat + 2 then Ans.fail m eState
  else if m.aon.inFlight then Ans.fail m eBusy
  else { m := commitAll (BitVec.ofNat 64 (q.fld 0 8)) (BitVec.ofNat 3 (q.byte 8)) (BitVec.ofNat 3 (q.byte 9)) (logCommit q m) }

def modeCommitCmd : Cmd := ownerCmd 0x0051 (fun _ q => q.size 0x0A) modeCommitRun

def modeWithdrawRun (q : Req) (m : Mod) : Ans :=
  if m.aon.inFlight then Ans.fail m eBusy
  else
    let m := logCommit q m
    { m := { m with settings := { m.settings with stagedSteps := [], stagedWheel := none } } }

def modeWithdrawCmd : Cmd := ownerCmd 0x0051 (fun _ q => q.size 0x0A) modeWithdrawRun

/-! ### ENVELOPE_SET and CEILING_SET (R513, R530, R572, R588) -/

/-- LIMIT_CHANGE. -/
def limitChange (cmd value : Nat) (m : Mod) : Mod := raiseEvent 0x11 0xFFFF 1 0 cmd value 0 m

/-- A raise-limited setting changed, or a raise beyond the limit refused. -/
def limitRun (cmd : Nat) (q : Req) (old raises new : Nat) (set : Nat → Nat → Mod → Mod) (m : Mod) : Ans :=
  if old < new ∧ raises = 0 then
    { m := limitChange cmd new (logChange cmd (m.sessId q.no) 0 0 true old new m), status := eLimit }
  else
    let left := if old < new then raises - 1 else raises
    let m' := set new left m
    let m' := if new < old then lowerLimit m' else m'
    { m := limitChange cmd new (logChange cmd (m.sessId q.no) 0 0 false old new m'), body := le 4 new ++ le 1 left }

def envelopeSetRun (q : Req) (m : Mod) : Ans :=
  limitRun 0x0052 q m.settings.envelope m.settings.envelopeRaises (q.fld 0 4)
    (fun v n m => { m with settings := { m.settings with envelope := v, envelopeRaises := n } }) m

def envelopeSetCmd : Cmd := ownerCmd 0x0052 (fun _ q => q.size 4 && decide (40000 ≤ q.fld 0 4 ∧ q.fld 0 4 ≤ 165000)) envelopeSetRun

def ceilingSetRun (q : Req) (m : Mod) : Ans :=
  limitRun 0x0053 q m.settings.ceiling m.settings.ceilingRaises (q.byte 0)
    (fun v n m => { m with settings := { m.settings with ceiling := v, ceilingRaises := n } }) m

def ceilingSetCmd : Cmd := ownerCmd 0x0053 (fun _ q => q.size 1 && decide (1 ≤ q.byte 0 ∧ q.byte 0 ≤ 8)) ceilingSetRun

/-! ### TELEMETRY_READ (R593, Table 16.6) -/

def telemRegionBytes (x : TelemRegion) : List Byte :=
  le 1 x.rstate ++ le 1 x.rsteps ++ le 2 x.tjMax ++ le 4 x.gaugeWarns ++ le 4 x.lastEnergy ++ le 4 x.lastDecl

/-- The telemetry record as last rewritten. -/
def telemBytes (t : Telem) : List Byte :=
  le 4 0x4D54574B ++ bytesOf t.gen 4 ++ bytesOf t.stick 8 ++ le 4 t.inputMv ++ le 4 t.inputMa ++ le 4 t.loadW ++ le 4 t.envelopeW ++
    le 4 t.admittedW ++ le 4 t.gov ++ le 2 t.inlet ++ le 2 t.outlet ++ le 4 t.auxMw ++ bytesOf t.bar2Discards 4 ++
    bytesOf t.declOverruns 4 ++ bytesOf t.declMismatches 4 ++ bytesOf t.emergencySteps 4 ++
    (List.range 30).flatMap (fun i => le 4 (t.domainW.getD i 0)) ++ zeros 8 ++
    allRegions.flatMap (fun r => telemRegionBytes (t.regions.getD r {})) ++
    (List.range 400).flatMap (fun i => le 2 (Tab.get t.sensors i 0))

def telemetryReadCmd : Cmd :=
  { code := 0x0054, kinds := [1, 2, 3], states := statesRFTH, lengthOk := fun _ q => q.size 0
    rights := fun m q => m.holds q.no 2 || (m.kindOf q.no == 3 && m.holds q.no 4)
    run := fun _ m => { m := m, body := telemBytes m.power.telem } }

/-! ### EVENT_ACK, LOG_READ (R534 to R536, R573, R604) -/

def eventAckRun (q : Req) (m : Mod) : Ans :=
  let e := { m.events with consumed := BitVec.ofNat 32 (q.fld 0 4) }
  { m := { m with events := if m.aon.state = .safeHold then e else e.flush } }

def eventAckCmd : Cmd :=
  { ownerCmd 0x0060 (fun m q => q.size 4 && decide
      ((BitVec.ofNat 32 (q.fld 0 4) - m.events.consumed).toNat ≤ (m.events.produced - m.events.consumed).toNat)) eventAckRun with
    states := statesRFTH }

/-- A change-log entry's bytes (Table 15.11). -/
def logBytes (e : LogEntry) : List Byte :=
  bytesOf e.command 2 ++ bytesOf e.session 2 ++ bytesOf e.detail 4 ++ bytesOf e.stick 8 ++ bytesOf e.old 8 ++ bytesOf e.new 8

def logReadRun (q : Req) (m : Mod) : Ans :=
  let oldest := m.logTotal - BitVec.ofNat 32 m.log.length
  let entry (k : Nat) : List Byte :=
    match m.log[(BitVec.ofNat 32 (q.fld 0 4 + k) - oldest).toNat]? with
    | some e => logBytes e
    | none => zeros 32
  { m := m, body := bytesOf m.logTotal 4 ++ bytesOf oldest 4 ++ zeros 8 ++ (List.range (q.fld 4 2)).flatMap entry }

def logReadCmd : Cmd :=
  { ownerCmd 0x0061 (fun _ q => q.size 6 && decide (1 ≤ q.fld 4 2 ∧ q.fld 4 2 ≤ 55)) logReadRun with states := statesRFTH }

/-! ### FENCE_CORE (R531, R615 to R621) -/

/-- FENCE_CORE: a fence installed in an owner session, answered with the new generation (R621; log entry 57). -/
def fenceCoreRun (q : Req) (m : Mod) : Ans :=
  let s := q.fld 0 2
  let kind := q.byte 2
  let old := m.fence s
  let log (m' : Mod) : Mod := logChange 0x0062 (m.sessId q.no) kind s false old kind m'
  if 2 ≤ old ∨ kind ≤ old ∨ m.mesh.removing.contains s ∨ (kind = 2 ∧ m.ringBlocked s) then Ans.fail m eState
  else if kind = 1 then
    let m' := fenceCoreOnly s (log m)
    { m := m', body := bytesOf m'.desc.gen 4 }
  else { m := fenceFull s (log m), body := bytesOf (m.desc.gen + 1) 4 }

def fenceCoreCmd : Cmd :=
  ownerCmd 0x0062 (fun _ q => q.size 3 && decide (q.fld 0 2 < 25600) && decide (1 ≤ q.byte 2 ∧ q.byte 2 ≤ 2)) fenceCoreRun

/-! ### SAFE_HOLD_CLEAR (R532, R611, R612, Table 17.4, Table 17.5) -/

/-- Whether a cause that has arisen persists (Table 17.5). -/
def causePersists (m : Mod) (cause : Nat) : Bool :=
  let p := m.aon.pins
  let now := m.aon.stick.toNat
  bit m.aon.heldCauses cause && (match cause with
    | 1 => p.holdIn
    | 2 => m.power.sensors.any (fun x => decide (10000 ≤ x.2))
    | 3 => !(p.flowOk && (match p.flowSince with
        | some t => decide (t + oneSecond ≤ now)
        | none => false))
    | 5 => !(match p.refSince with
        | some t => decide (t + 2250000 ≤ now)
        | none => false)
    | 6 => false
    | _ => true)

/-- A port resumed at HELLO (R429). -/
def resumePort (m : Mod) (p : Nat) : Mod :=
  if (m.port p).state = .quiet then helloSend p (movePort p .hello 0 m) else m

/-- Safe hold left for the state at entry (log entry 58). -/
def leaveHold (m : Mod) : Mod :=
  let st := m.aon.entryState
  let edge (e : EdgeState) : EdgeState := if e = .selfRefresh then .on else e
  let m := { m with aon := { m.aon with
    state := st, safeCause := 0, heldCauses := 0, pins := { m.aon.pins with fault := false } } }
  let m := if st = .standby then m else
    { m with stock := { m.stock with selfRefresh := false }
             bringup := { m.bringup with west := edge m.bringup.west, east := edge m.bringup.east } }
  let asleep := allRegions.filter (fun r => (m.region r).dom == .sleep)
  let since := asleep.foldl (fun (t : Tab Nat) r => Tab.set t r m.aon.stick.toNat) m.power.sleepSince
  let m := { m with power := { m.power with sleepSince := since } }
  let old := m
  let m := touchTopo old ((List.range 24).foldl resumePort m)
  let m := answerWaiting (List.range' 1 30) eSafeHold m
  { m with events := m.events.flush }

def safeHoldClearRun (q : Req) (m : Mod) : Ans :=
  if (List.range' 1 8).any (causePersists m) then Ans.fail m eState
  else
    let cause := m.aon.safeCause
    { m := logChange 0x0063 (m.sessId q.no) 0 0 false cause.toNat 0 (leaveHold m), body := bytesOf cause 1 }

def safeHoldClearCmd : Cmd := { ownerCmd 0x0063 (fun _ q => q.size 0) safeHoldClearRun with states := [.safeHold] }

/-! ### POLICY_SET (R533, R600, R623, Table 14.15) -/

def policyCmd (lengthOk : Req → Bool) (run : Req → Mod → Ans) : Cmd :=
  ownerCmd 0x0064 (fun _ q => q.size 0x10 && lengthOk q) run

/-- A policy item's success, logged with PREVIOUS (log entry 60). -/
def policyDone (q : Req) (old new : Nat) (m m' : Mod) : Ans :=
  { m := logChange 0x0064 (m.sessId q.no) (q.byte 0) (q.fld 2 2) false old new m', body := le 4 old }

def eventPolicyRun (q : Req) (m : Mod) : Ans :=
  let code := q.fld 2 2
  let v := q.fld 4 4
  let old := m.level code
  if v < evDefault code ∧ !evLowerable code then
    { m := logChange 0x0064 (m.sessId q.no) 1 code true old v m, status := eLimit }
  else policyDone q old v m { m with settings := { m.settings with policy := Tab.set m.settings.policy code v } }

def eventPolicyCmd : Cmd :=
  policyCmd (fun q => q.byte 0 == 1 && decide (1 ≤ q.fld 2 2 ∧ q.fld 2 2 ≤ 0x14) && decide (q.fld 4 4 ≤ 3)) eventPolicyRun

def progressMarksRun (q : Req) (m : Mod) : Ans :=
  match m.placement (q.fld 2 2) with
  | none => Ans.fail m eState
  | some p => policyDone q p.progress (q.fld 4 4) m (m.setPlacement { p with progress := q.fld 4 4 })

def progressMarksCmd : Cmd :=
  policyCmd (fun q => q.byte 0 == 2 && decide (1 ≤ q.fld 4 4 ∧ q.fld 4 4 ≤ 65535)) progressMarksRun

/-- The mode a value of SYNC_IO names. -/
def syncOf (v : Nat) : SyncMode :=
  match v with
  | 0 => .off
  | 1 => .markOut
  | 2 => .markIn
  | _ => .trigger

/-- Traces that wait for a SYNC_IO edge ended (R533, R623). -/
def endWaiting (m : Mod) : Mod :=
  m.forRegions (fun m r => m.onRegion r (fun g =>
    if g.trace.on && g.trace.trigger == 1 && g.trace.armed then { g with trace := {} } else g))

def syncIoRun (q : Req) (m : Mod) : Ans :=
  let new := syncOf (q.fld 4 4)
  let old := m.aon.syncIo
  let m' := if new = .trigger then m else endWaiting m
  let m' := if new = old then m' else
    { m' with aon := { m'.aon with syncIo := new, acquiring := new == .markIn, missRun := 0, edgeTaken := false, edgeIgnored := false } }
  policyDone q old.code (q.fld 4 4) m m'

def syncIoCmd : Cmd := policyCmd (fun q => q.byte 0 == 3 && q.fld 2 2 == 0 && decide (q.fld 4 4 ≤ 3)) syncIoRun

def bar2WindowRun (q : Req) (m : Mod) : Ans :=
  let on : Bool := q.fld 4 4 % 2 == 1
  policyDone q (b2n m.settings.bar2On) (q.fld 8 8 / 2 * 2 + b2n on) m
    { m with settings := { m.settings with bar2On := on, bar2Base := BitVec.ofNat 64 (q.fld 8 8) } }

def bar2WindowCmd : Cmd := policyCmd (fun q => q.byte 0 == 4 && q.fld 2 2 == 0 && q.fld 8 8 % pageSize == 0) bar2WindowRun

/-! ### The commands -/

/-- STEP_STAGE. -/
def execStepStage (q : Req) (s : State) : Host.Outcome State Fault Refusal :=
  s.runIf (Instr.wf (.stepStage q)) (mailboxCmd stepStageCmd q)

/-- MODE_COMMIT. -/
def execModeCommit (q : Req) (s : State) : Host.Outcome State Fault Refusal :=
  s.runIf (Instr.wf (.modeCommit q)) (mailboxCmd modeCommitCmd q)

/-- MODE_COMMIT with WITHDRAW. -/
def execModeCommitWithdraw (q : Req) (s : State) : Host.Outcome State Fault Refusal :=
  s.runIf (Instr.wf (.modeCommitWithdraw q)) (mailboxCmd modeWithdrawCmd q)

/-- ENVELOPE_SET. -/
def execEnvelopeSet (q : Req) (s : State) : Host.Outcome State Fault Refusal :=
  s.runIf (Instr.wf (.envelopeSet q)) (mailboxCmd envelopeSetCmd q)

/-- CEILING_SET. -/
def execCeilingSet (q : Req) (s : State) : Host.Outcome State Fault Refusal :=
  s.runIf (Instr.wf (.ceilingSet q)) (mailboxCmd ceilingSetCmd q)

/-- TELEMETRY_READ. -/
def execTelemetryRead (q : Req) (s : State) : Host.Outcome State Fault Refusal :=
  s.runIf (Instr.wf (.telemetryRead q)) (mailboxCmd telemetryReadCmd q)

/-- EVENT_ACK. -/
def execEventAck (q : Req) (s : State) : Host.Outcome State Fault Refusal :=
  s.runIf (Instr.wf (.eventAck q)) (mailboxCmd eventAckCmd q)

/-- LOG_READ. -/
def execLogRead (q : Req) (s : State) : Host.Outcome State Fault Refusal :=
  s.runIf (Instr.wf (.logRead q)) (mailboxCmd logReadCmd q)

/-- FENCE_CORE. -/
def execFenceCore (q : Req) (s : State) : Host.Outcome State Fault Refusal :=
  s.runIf (Instr.wf (.fenceCore q)) (mailboxCmd fenceCoreCmd q)

/-- SAFE_HOLD_CLEAR. -/
def execSafeHoldClear (q : Req) (s : State) : Host.Outcome State Fault Refusal :=
  s.runIf (Instr.wf (.safeHoldClear q)) (mailboxCmd safeHoldClearCmd q)

/-- POLICY_SET item 0x01. -/
def execEventPolicy (q : Req) (s : State) : Host.Outcome State Fault Refusal :=
  s.runIf (Instr.wf (.eventPolicy q)) (mailboxCmd eventPolicyCmd q)

/-- POLICY_SET item 0x02. -/
def execProgressMarks (q : Req) (s : State) : Host.Outcome State Fault Refusal :=
  s.runIf (Instr.wf (.progressMarks q)) (mailboxCmd progressMarksCmd q)

/-- POLICY_SET item 0x03. -/
def execSyncIo (q : Req) (s : State) : Host.Outcome State Fault Refusal :=
  s.runIf (Instr.wf (.syncIo q)) (mailboxCmd syncIoCmd q)

/-- POLICY_SET item 0x04. -/
def execBar2Window (q : Req) (s : State) : Host.Outcome State Fault Refusal :=
  s.runIf (Instr.wf (.bar2Window q)) (mailboxCmd bar2WindowCmd q)

end Sys2Proof.Machine
end

