-- ==== Sys2Proof/Machine/ModuleCmd.lean ====
section
/-!
DEFINITION. Machine/ModuleCmd.lean: the module and topology commands of Table 14.9 (spec/14_tirix.md R515, R516;
spec/01_module.md R21 to R24; spec/10_decler_links.md R398, R410 to R414).
-/

namespace Sys2Proof.Machine

open Sys2Proof

/-! ### GET_DESCRIPTOR and GET_TOPOLOGY -/

/-- The fence map, two bits a site (R22). -/
def fenceBytes (m : Mod) : List Byte :=
  (List.range 6400).map (fun i => BitVec.ofNat 8
    (m.fence (4 * i) + 4 * m.fence (4 * i + 1) + 16 * m.fence (4 * i + 2) + 64 * m.fence (4 * i + 3)))

/-- The module descriptor, 8,192 bytes (Table 1.2). -/
def descBytes (m : Mod) : List Byte :=
  let d := m.desc
  let use (r : Nat) : Nat := Tab.get d.usable r 0
  le 4 0x3532574B ++ le 2 1 ++ le 2 m.stepping ++ bytesOf d.serial 8 ++ bytesOf d.gen 4 ++
    le 4 (allRegions.foldl (fun a r => a + use r) 0) ++ le 4 d.tested.toNat ++ le 4 d.short.toNat ++ bytesOf d.stockTrained 4 ++
    le 4 d.portsTrained.toNat ++ zeros 0x18 ++ allRegions.flatMap (fun r => le 2 (use r)) ++ zeros 0x0E ++ fenceBytes m ++ zeros 0x680

/-- The length check of a snapshot of a record of some size (R515). -/
def snapLength (size : Nat) (q : Req) : Bool :=
  q.size 4 && decide (1 ≤ q.fld 2 2) && decide (q.fld 2 2 ≤ 1768) && decide (q.fld 0 2 + q.fld 2 2 ≤ size)

/-- A snapshot: the generation and the bytes asked for (Table 14.9). -/
def snapBody (gen : W32) (bs : List Byte) (q : Req) : List Byte := bytesOf gen 4 ++ zeros 4 ++ slice bs (q.fld 0 2) (q.fld 2 2)

def getDescriptorCmd : Cmd :=
  { code := 0x0010, kinds := [4, 1, 2, 3], states := statesRFTH, lengthOk := fun _ q => snapLength 8192 q
    run := fun q m => { m := m, body := snapBody m.desc.gen (descBytes m) q } }

def getTopologyCmd : Cmd :=
  { code := 0x0011, kinds := [4, 1, 2, 3], lengthOk := fun _ q => snapLength 1536 q
    run := fun q m => { m := m, body := snapBody m.topo.gen (topoBytes m) q } }

/-! ### SET_PARTITION (R398, R516) -/

/-- The last hello of every port in UP or ISOLATED judged again. -/
def rejudge (m : Mod) : Mod :=
  (List.range 24).foldl (fun m p =>
    let x := m.port p
    if (x.state = .up ∨ x.state = .isolated) ∧ !x.nhello.isEmpty then judgeHello p m else m) m

/-- DIMS and COORD as the change log holds them (Table 15.12). -/
def placeWord (coord dims : W16) : Nat := dims.toNat * 65536 + coord.toNat

/-- SET_PARTITION: the module given its place in a partition (log entry 67). -/
def setPartitionRun (q : Req) (m : Mod) : Ans :=
  let part : W64 := BitVec.ofNat 64 (q.fld 0 8)
  let coord : W16 := BitVec.ofNat 16 (q.fld 8 2 % 4096)
  let dims : W16 := BitVec.ofNat 16 (q.fld 0x0A 2 % 4096)
  let s := m.sessId q.no
  if m.topo.partition ≠ 0 ∧ m.topo.partition ≠ part then
    { m := logChange 0x0012 s 0 0 true m.topo.partition.toNat part.toNat m, status := eLimit }
  else if m.anyRunning then Ans.fail m eState
  else
    let m' := rejudge (touchTopo m { m with topo := { m.topo with partition := part, coord := coord, dims := dims } })
    if m.topo.partition = 0 then { m := logChange 0x0012 s 0 0 false 0 part.toNat m' }
    else { m := logChange 0x0012 s 1 0 false (placeWord m.topo.coord m.topo.dims) (placeWord coord dims) m' }

/-- Each coordinate below its dimension (R398). -/
def coordOk (coord dims : Nat) : Bool := [1, 16, 256].all (fun k => decide (coord / k % 16 ≤ dims / k % 16))

def setPartitionCmd : Cmd :=
  { code := 0x0012, kinds := [1]
    lengthOk := fun _ q => q.size 0x0C && q.fld 0 8 != 0 && coordOk (q.fld 8 2) (q.fld 0x0A 2)
    run := setPartitionRun }

/-! ### LINK_CONTROL (Table 14.9) -/

/-- The ports a LINK_CONTROL names. -/
def namedPorts (mask : Nat) : List Nat := (List.range 24).filter (fun p => mask / 2 ^ p % 2 == 1)

/-- The fields of a LINK_CONTROL within their ranges. -/
def linkLength (q : Req) : Bool := q.size 0x50 && decide (q.byte 0 ≤ 4) && (q.byte 0 != 3 || decide (q.fld 8 4 ≤ 1))

def linkCmd (long : Bool) (run : Req → Mod → Ans) : Cmd :=
  { code := 0x0013, kinds := [1], states := statesFT, lengthOk := fun _ q => linkLength q, long := fun _ _ => long, run := run }

def linkDisableCmd : Cmd :=
  linkCmd false (fun q m => { m := (namedPorts (q.fld 4 4)).foldl (fun m p => movePort p .disabled 0 m) m })

def linkEnableCmd : Cmd :=
  linkCmd false (fun q m => { m := (namedPorts (q.fld 4 4)).foldl (fun m p =>
    if (m.port p).state = .disabled then movePort p .training 0 m else m) m })

/-- CHALLENGE: a nonce to every named port's neighbour (R410). -/
def challengeRun (q : Req) (m : Mod) : Ans :=
  let ps := namedPorts (q.fld 4 4)
  if ps.any (fun p => (m.port p).state != .hello && (m.port p).state != .up) then Ans.fail m eState
  else { m := touchTopo m (ps.foldl (fun m p => sendChallenge p m) m), job := some (.challenge (BitVec.ofNat 24 (q.fld 4 4))) }

def linkChallengeCmd : Cmd := linkCmd true challengeRun

/-- The RESULT of a challenged port, none while it is still awaited: answered, failed with its port, or NOT_READY for 60 s
(Table 14.9). -/
def challengeResult (m : Mod) (p : Nat) : Option Nat :=
  let x := m.port p
  if x.verif = 2 then some 1
  else if x.verif = 3 ∨ !x.state.talks then some 2
  else match x.challenge with
    | some t => if t + 60 * 2250000000 ≤ m.aon.stick.toNat then some 3 else none
    | none => some 2

/-- LINK_CHALLENGE_DONE. -/
def challengeDone (mb : Nat) (m : Mod) : Mod :=
  match m.jobs.find? (fun j => j.mb == mb && (match j.kind with
    | .challenge _ => true
    | _ => false)) with
  | none => m
  | some j =>
    let ps : List Nat := match j.kind with
      | .challenge ports => namedPorts ports.toNat
      | _ => []
    if ps.any (fun p => (challengeResult m p).isNone) then m
    else completeJob j 0 (le 6 (ps.foldl (fun a p => a + (challengeResult m p).getD 0 * 4 ^ p) 0)) m

def requireRun (q : Req) (m : Mod) : Ans :=
  let on : Bool := q.fld 8 4 == 1
  let m' := rejudge (touchTopo m { m with topo := { m.topo with requireVerified := on } })
  { m := logChange 0x0013 (m.sessId q.no) 3 0 false (b2n m.topo.requireVerified) (b2n on) m' }

def requireVerifiedCmd : Cmd := linkCmd false requireRun

def anchorRun (q : Req) (m : Mod) : Ans :=
  let a := slice q.body 0x10 64
  let a := if a.all (· == 0) then [] else a
  { m := logChange 0x0013 (m.sessId q.no) 4 0 false (fld m.topo.anchor 0 8) (fld a 0 8) { m with topo := { m.topo with anchor := a } } }

def trustAnchorCmd : Cmd := linkCmd false anchorRun

/-! ### The commands -/

/-- GET_DESCRIPTOR. -/
def execGetDescriptor (q : Req) (s : State) : Host.Outcome State Fault Refusal :=
  s.runIf (Instr.wf (.getDescriptor q)) (mailboxCmd getDescriptorCmd q)

/-- GET_TOPOLOGY. -/
def execGetTopology (q : Req) (s : State) : Host.Outcome State Fault Refusal :=
  s.runIf (Instr.wf (.getTopology q)) (mailboxCmd getTopologyCmd q)

/-- SET_PARTITION. -/
def execSetPartition (q : Req) (s : State) : Host.Outcome State Fault Refusal :=
  s.runIf (Instr.wf (.setPartition q)) (mailboxCmd setPartitionCmd q)

/-- LINK_CONTROL operation 0. -/
def execLinkDisable (q : Req) (s : State) : Host.Outcome State Fault Refusal :=
  s.runIf (Instr.wf (.linkDisable q)) (mailboxCmd linkDisableCmd q)

/-- LINK_CONTROL operation 1. -/
def execLinkEnable (q : Req) (s : State) : Host.Outcome State Fault Refusal :=
  s.runIf (Instr.wf (.linkEnable q)) (mailboxCmd linkEnableCmd q)

/-- LINK_CONTROL operation 2. -/
def execLinkChallenge (q : Req) (s : State) : Host.Outcome State Fault Refusal :=
  s.runIf (Instr.wf (.linkChallenge q)) (mailboxCmd linkChallengeCmd q)

/-- LINK_CHALLENGE_DONE. -/
def execLinkChallengeDone (mb : Fin 31) (s : State) : Host.Outcome State Fault Refusal :=
  s.runIf (Instr.wf (.linkChallengeDone mb)) (challengeDone mb.val)

/-- LINK_CONTROL operation 3. -/
def execRequireVerified (q : Req) (s : State) : Host.Outcome State Fault Refusal :=
  s.runIf (Instr.wf (.requireVerified q)) (mailboxCmd requireVerifiedCmd q)

/-- LINK_CONTROL operation 4. -/
def execTrustAnchor (q : Req) (s : State) : Host.Outcome State Fault Refusal :=
  s.runIf (Instr.wf (.trustAnchor q)) (mailboxCmd trustAnchorCmd q)

end Sys2Proof.Machine
end

