-- ==== Sys2Proof/Machine/Records.lean ====
section
/-!
DEFINITION. Machine/Records.lean: the counter records that COUNTERS_READ returns (Tables 2.5, 3.6, 4.6, 5.9, 6.21, 7.3, 8.7,
9.10, 10.10 and 11.7; spec/14_tirix.md Table 14.12).
-/

namespace Sys2Proof.Machine

open Sys2Proof

def w8 (x : W64) : List Byte := bytesOf x 8
def w4 (x : W32) : List Byte := bytesOf x 4

/-- Table 2.5. -/
def timeRecord (m : Mod) (r : Nat) : List Byte :=
  let g := m.region r
  let t := g.time
  let staged := Tab.find m.settings.stagedSteps r
  let code := (staged.orElse (fun _ => g.stagedStep)).getD 0
  let form : Bool := match g.seq.interval with
    | some i => i.ticks
    | none => false
  let stepState := b2n form * 2 ^ 18 + b2n g.run.tickVoid * 2 ^ 17 + b2n g.ack * 2 ^ 16 + g.decl.floor % 16 * 2 ^ 12 +
    b2n (staged.isSome || g.pendingChange) * 2 ^ 8 + code % 16 * 16 + g.step
  le 8 g.ticks ++ le 8 g.seq.kerfBase ++ le 4 stepState ++ le 4 (g.gaugeStretch * 256 + g.gaugeMin) ++
    w8 t.kerfCount ++ w8 t.kerfOverruns ++ w4 t.kerfOverrunMax ++ w4 m.aon.markInMiss ++ w8 t.shimHalf ++ w8 t.shimFull ++
    w8 t.gaugeWarnCount ++ w8 t.launchLate ++ w8 t.kerfWait ++ w8 t.launchWait ++ w4 t.stepHold ++ w4 t.splineFull ++ zeros 24

/-- Table 3.6. -/
def stallRecord (c : Core) : List Byte :=
  let s := c.stall
  w4 s.gangHeld ++ w4 s.emptyPop ++ w4 s.fullPush ++ w4 s.bankConflict ++ w4 s.drawerGuard ++ w4 s.landingWait ++ w4 s.wordWait ++
    w4 s.drainHold ++ w4 s.swapHold ++ w4 s.bankConflicts ++ w4 s.holdLast ++ w4 s.leftover ++ zeros 16

/-- ARRAY_STATE (Table 4.6). -/
def arrayState (a : ArrayState) (half : Bool) : Nat :=
  (match a.load with
    | some l => l.fmt % 16
    | none => 0) * 16 + b2n half * 8 + b2n a.complete * 2 + b2n a.active

/-- Table 4.6. -/
def arrayRecord (half : Bool) (c : Core) : List Byte :=
  let k := c.arr.cnt
  w8 k.slices ++ w8 k.planeSwaps ++ w8 k.planeRestarts ++ w8 k.nonfiniteSlices ++ w8 k.overflowSums ++ w8 k.nanSums ++
    w8 k.slicesDiscarded ++ w8 k.formatMismatches ++ w4 k.sticky ++ w4 k.firstNonfinite ++ le 4 (arrayState c.arr half) ++ zeros 20

/-- Table 5.9. -/
def vectorRecord (c : Core) : List Byte :=
  let k := c.vrec
  w8 k.v0Ops ++ w8 k.v1Ops ++ w8 k.nanResults ++ w8 k.infResults ++ w8 k.cvtSaturations ++ w8 k.intWraps ++ w8 k.intSaturations ++
    w4 k.sticky ++ w4 k.firstNan ++ w4 c.v0.cvt ++ w4 c.v1.cvt ++ zeros 24

/-- SEQ_STATE (Table 6.21). -/
def seqState (g : Region) : Nat :=
  (if g.run.running || g.run.gang == 0 then 0 else g.run.status) * 2 ^ 24 + b2n g.run.running * 2 ^ 23 +
    b2n g.run.preempting * 2 ^ 22 + g.seq.addr % 32768

/-- Table 6.21. -/
def sequencerRecord (g : Region) : List Byte :=
  let k := g.seq.cnt
  le 8 g.seq.pos ++ w8 g.seq.g ++ le 4 (seqState g) ++ w4 k.branches ++ w8 k.issued ++ w8 k.held ++ w4 k.stockHold ++
    w4 k.preemptions ++ g.seq.loops.toList.flatMap w4 ++ zeros 16

/-- Table 7.3. -/
def scratchRecord (c : Core) : List Byte :=
  let k := c.sp.cnt
  w8 k.correctedWords ++ w8 k.landingRows ++ w8 k.landingYieldCycles ++ w4 k.landingWaitMax ++ w4 k.landingFullCycles ++
    w4 k.gatedAccesses ++ w4 k.handleErrors ++ w4 k.offsetErrors ++ w4 k.uncorrectableRow ++ w4 k.sticky ++ w4 k.firstError ++
    w4 k.firstErrorHandle ++ zeros 4

/-- Table 8.7. -/
def engineRecord (g : Region) : List Byte :=
  let k := g.eng.cnt
  w8 k.descriptors ++ w8 k.transfers ++ w8 k.merges ++ w8 k.bytesLoaded ++ w8 k.bytesStored ++ w4 k.latencyMax ++ w4 k.tagsMax ++
    w4 k.descErrors ++ w4 k.edcRetries ++ w4 k.uncorrectable ++ w4 k.pageWaits ++ w4 k.tokenFull ++ w4 k.tokensDiscarded ++
    w4 k.firstDescError ++ w4 k.hostSteals ++ zeros 16

/-- Table 9.10. -/
def messageRecord (c : Core) : List Byte :=
  let k := c.ni.cnt
  (List.range 4).flatMap (fun v =>
    w4 (k.sent[v]?.getD 0) ++ w4 (k.received[v]?.getD 0) ++ w4 (k.txStall[v]?.getD 0) ++ w4 (k.collisions[v]?.getD 0)) ++
    k.stray.toList.flatMap w4 ++ w4 k.messageErrors ++ w4 k.clampFaults ++ w4 k.parityErrors ++ w4 k.ringWaitCycles ++
    w4 k.debugDrops ++ w4 k.firstStray ++ w4 k.firstStraySrc ++ w4 k.firstMsgError ++ zeros 16

/-- Table 10.10. -/
def linkRecord (x : Port) : List Byte :=
  let k := x.cnt
  w8 k.flitsTx ++ w8 k.flitsRx ++ w8 k.bytesTx ++ w8 k.bytesRx ++ w8 k.forwarded ++ w8 k.fecCorrected ++ w8 k.creditWait ++
    w4 k.crcErrors ++ w4 k.retries ++ w4 k.fecUncorrectable ++ w4 k.linkDowns ++ w4 k.failovers ++ w4 k.replayDrops ++
    w4 k.linkAborts ++ w4 k.noRouteDrops ++ w4 k.modeMismatches ++ w4 k.reservedFlits ++ w4 k.retryMax ++ w4 k.alignOffset ++ zeros 24

/-- Table 11.7. -/
def updateRecord (c : Core) : List Byte :=
  let k := c.upd.cnt
  w8 k.rowsApplied ++ w8 k.messagesApplied ++ w8 k.lazyEntries ++ w8 k.copyRows ++ w8 k.busyCycles ++ w4 k.nonfiniteRows ++
    w4 k.updRefused ++ w4 k.lazyRepeats ++ w4 k.inputFullCycles ++ w4 k.firstUpdError ++ w4 k.sticky ++ zeros 16

/-- The record size of a class (Table 14.12), 0 for a code that names none. -/
def classSize (cls : Nat) : Nat := [0, 128, 64, 96, 96, 96, 64, 96, 128, 128, 80].getD cls 0

/-- Whether a class has one record per core. -/
def classPerCore (cls : Nat) : Bool := [2, 3, 4, 6, 8, 10].contains cls

/-- The record of a class for a core, given its region's accumulator width. -/
def coreRecord (cls : Nat) (half : Bool) (c : Core) : List Byte :=
  match cls with
  | 2 => stallRecord c
  | 3 => arrayRecord half c
  | 4 => vectorRecord c
  | 6 => scratchRecord c
  | 8 => messageRecord c
  | _ => updateRecord c

/-- The record of a class for a region. -/
def regionRecord (cls : Nat) (m : Mod) (r : Nat) : List Byte :=
  match cls with
  | 1 => timeRecord m r
  | 5 => sequencerRecord (m.region r)
  | _ => engineRecord (m.region r)

end Sys2Proof.Machine
end

