-- ==== Sys2Proof/Machine/Observe.lean ====
section
/-!
DEFINITION. Machine/Observe.lean: the observation and debug commands of Table 14.13 (spec/14_tirix.md R525 to R527;
spec/07_scratchpad.md R281, R289; spec/09_messages.md R359, R376; spec/13_determinism.md R472, R486; spec/17_faults.md R610,
R623).
-/

namespace Sys2Proof.Machine

open Sys2Proof

/-- The bytes a response body holds (Table 14.4). -/
def responseSize : Nat := 1776

/-- An observation command. -/
def observeCmd (code : Nat) (lengthOk : Mod → Req → Bool) (rights : Mod → Req → Bool) (run : Req → Mod → Ans) : Cmd :=
  { code := code, kinds := [1, 2, 3], states := statesRFTH, lengthOk := lengthOk, rights := rights, run := run }

/-! ### A gang's cores (R526) -/

/-- Where a gang's state lies. -/
inductive GangView where
  | running
  | saved (x : SavedPart)
  | ended
  deriving DecidableEq, Repr

/-- A gang, its declarations, and where its state can be read: none when it has never started, or when its region has run
another gang or been off since. -/
def Mod.gangView (m : Mod) (id : Nat) : Option (Gang × PartDecl × Option GangView) :=
  match m.placementOf id with
  | none => none
  | some p =>
    match p.gangs.find? (fun g => g.id == id) with
    | none => none
    | some g =>
      let d := ((m.partsOf p.image).find? (fun d => d.part == g.part)).getD {}
      let v := match g.saved with
        | some x => some (.saved x)
        | none =>
          if g.running then some .running
          else if g.started && (m.region g.region).run.gang == id then some .ended else none
      some (g, d, v)

/-- A logical core of a gang. -/
def Mod.viewCore (m : Mod) (g : Gang) (v : GangView) (k : Nat) : Core :=
  match v with
  | .saved x => x.cores.getD k {}
  | _ => m.core (g.sites.getD k 0)

/-- Whether a gang runs. -/
def GangView.runs (v : GangView) : Bool := v == .running

/-! ### CLAMP_READ, CLAMP_SET (R376) -/

def clampReadRun (q : Req) (m : Mod) : Ans :=
  match m.gangView (q.fld 0 2) with
  | none => Ans.fail m eState
  | some (g, _, v) =>
    if g.sites.length ≤ q.fld 2 2 then Ans.fail m eLength else
    match v with
    | none => Ans.fail m eState
    | some v =>
      let c := m.viewCore g v (q.fld 2 2)
      { m := m, body := bytesOf (c.cc.words.get (q.fld 4 2)) 8 ++ bytesOf (c.cc.shadow.get (q.fld 4 2)) 16 }

def clampReadCmd : Cmd :=
  observeCmd 0x0040 (fun _ q => q.size 6 && decide (q.fld 4 2 < 2048)) (fun m q => m.observesGang q.no (q.fld 0 2)) clampReadRun

/-- A debug write of a core of a running gang. -/
def clampSetCmd (lengthOk : Mod → Req → Bool) (run : Req → Mod → Ans) : Cmd :=
  { code := 0x0041, kinds := [3], lengthOk := lengthOk, run := run
    rights := fun m q => m.holds q.no 4 && (match m.placementOf (q.fld 2 2) with
      | some p => m.debugs q.no p.session
      | none => true) }

/-- The site a CLAMP_SET names: a status when it names none. -/
def clampSite (q : Req) (m : Mod) : Nat ⊕ Nat :=
  match m.gangView (q.fld 2 2) with
  | none => .inr eState
  | some (g, _, v) =>
    if g.sites.length ≤ q.fld 4 2 then .inr eLength
    else if v = some .running then .inl (g.sites.getD (q.fld 4 2) 0) else .inr eState

/-- A clamp word written, ARMED kept, its waiter released (R376, Table 9.8; log entry 55). -/
def writeClamp (view a v : Nat) (c : Core) : Core :=
  let old := c.cc.words.get a
  let sh := put (put (c.cc.shadow.get a) 95 64 (view % 2 ^ 32)) 19 18 3
  releaseMonitor a { c with cc := { c.cc with
    words := c.cc.words.set a (put (BitVec.ofNat 64 v) 60 60 (b2n (bit old 60))), shadow := c.cc.shadow.set a sh } }

def clampSetWordRun (q : Req) (m : Mod) : Ans :=
  match clampSite q m with
  | .inr st => Ans.fail m st
  | .inl s =>
    let old := (m.core s).cc.words.get (q.fld 6 2)
    { m := m.onCore s (writeClamp (m.region (siteRegion s)).ticks (q.fld 6 2) (q.fld 8 8)), body := bytesOf old 8 }

def clampSetWordCmd : Cmd :=
  clampSetCmd (fun _ q => q.size 0x10 && q.byte 0 == 0 && decide (q.fld 6 2 < 2048) && q.fld 8 8 / 2 ^ 47 % 2 ^ 13 % 2 == 0 &&
    q.fld 8 8 / 2 ^ 48 % 2 ^ 12 == 0) clampSetWordRun

/-- The oldest message of a ring discarded (R359, R376). -/
def dropRing (t : TagDecl) (e : Nat) (c : Core) : Option (Core × W64) :=
  let k := ringUnwrap (Tab.get c.ni.rings e {}) (ringBase t) c
  if k.m = 0 ∨ c.ni.recvs.any (fun x => x.entry == e && x.begun) then none else
  let h : W128 := (c.sp.rows.get ((ringBase t + k.r) % 16384)).setWidth 128
  let n := if hdrKind h = 2 then 1 else 1 + hdrLen h
  some ({ c with ni := { c.ni with
      rings := Tab.set c.ni.rings e (ringAdvance k (ringRows t) n), cnt := { c.ni.cnt with debugDrops := bump32 c.ni.cnt.debugDrops 1 } } },
    h.setWidth 64)

def clampSetRingRun (q : Req) (m : Mod) : Ans :=
  match clampSite q m with
  | .inr st => Ans.fail m st
  | .inl s =>
    match Tab.find (m.region (siteRegion s)).decl.tags (q.fld 6 2) with
    | none => Ans.fail m eLength
    | some t =>
      if t.kind ≠ 2 then Ans.fail m eLength else
      match dropRing t (q.fld 6 2) (m.core s) with
      | none => Ans.fail m eState
      | some (c, h) => { m := m.setCore s c, body := bytesOf h 8 }

def clampSetRingCmd : Cmd :=
  clampSetCmd (fun _ q => q.size 0x10 && q.byte 0 == 1 && decide (q.fld 6 2 < 256)) clampSetRingRun

/-! ### COUNTERS_READ (R525, Table 14.12) -/

def countLogical (q : Req) : Bool := classPerCore (q.byte 0) && q.byte 1 % 2 == 1

/-- The record bound of a class whose records need no gang. -/
def classBound (cls : Nat) : Nat := if cls = 9 then 24 else if classPerCore cls then 1024 else 25

def countersLength (q : Req) : Bool :=
  let n := q.fld 8 2
  let cls := q.byte 0
  q.size 0x0A && classSize cls != 0 && decide (q.byte 2 < 25) && decide (1 ≤ n) && decide (n * classSize cls ≤ responseSize - 8) &&
    decide (q.fld 6 2 + n ≤ classBound cls)

/-- Who may read a request's records (Table 14.6, R525). -/
def countersRights (m : Mod) (q : Req) : Bool :=
  if q.byte 0 = 9 then m.holds q.no 2 || (m.kindOf q.no == 3 && m.holds q.no 4)
  else if countLogical q then m.observesGang q.no (q.fld 4 2)
  else if classPerCore (q.byte 0) then m.observesRegion q.no (q.byte 2)
  else (List.range' (q.fld 6 2) (q.fld 8 2)).all (fun r => m.observesRegion q.no r)

/-- The records of some sites. -/
def siteRecords (cls : Nat) (m : Mod) (sites : List Nat) : List Byte :=
  sites.flatMap (fun s => coreRecord cls (m.region (siteRegion s)).decl.halfWidth (m.core s))

def countersRun (q : Req) (m : Mod) : Ans :=
  let cls := q.byte 0
  let ks := List.range' (q.fld 6 2) (q.fld 8 2)
  let answer (bs : List Byte) : Ans := { m := m, body := le 2 (classSize cls) ++ zeros 6 ++ bs }
  if cls = 9 then answer (ks.flatMap (fun p => linkRecord (m.port p)))
  else if !classPerCore cls then answer (ks.flatMap (regionRecord cls m))
  else if countLogical q then
    match m.gangView (q.fld 4 2) with
    | none => Ans.fail m eState
    | some (g, _, _) =>
      if g.sites.length < q.fld 6 2 + q.fld 8 2 then Ans.fail m eLength
      else answer (siteRecords cls m (ks.map (fun k => g.sites.getD k 0)))
  else answer (siteRecords cls m (ks.map (siteAt (q.byte 2))))

def countersReadCmd : Cmd := observeCmd 0x0042 (fun _ q => countersLength q) countersRights countersRun

/-! ### TRACE_CONFIG (R527, R472, R623) -/

/-- Whether a session's gangs occupy a region, or those of a session in a debug session's scope. -/
def Mod.occupies (m : Mod) (mb r : Nat) : Bool :=
  m.placements.any (fun p => (m.owns mb p.session || m.debugs mb p.session) && p.gangs.any (fun g => g.region == r))

/-- Whether the digest has a region's WR taps, or a change that gives them to it is staged (R472). -/
def digestHolds (m : Mod) (r : Nat) : Bool :=
  let g := m.region r
  g.digestOn || bit m.settings.modes 1 || (g.pendingChange && bit g.pendChange 1 && bit g.pendValue 1) ||
    (m.aon.inFlight && bit m.settings.flightChange 1 && bit m.settings.flightValue 1)

def traceConfigRun (q : Req) (m : Mod) : Ans :=
  let tap := q.byte 0
  let trigger := q.byte 1
  let r := q.byte 2
  if tap = 1 ∧ digestHolds m r then Ans.fail m eResource
  else if tap ≠ 0 ∧ trigger = 1 ∧ m.aon.syncIo ≠ .trigger then Ans.fail m eResource
  else
    { m := m.onRegion r (fun g => { g with trace :=
        if tap = 0 then {} else
        { on := true, tap := tap, core := q.fld 4 2, ring := q.fld 8 8, bytes := q.fld 0x10 4, trigger := trigger
          armed := trigger != 0, session := m.sessId q.no } }) }

def traceConfigCmd : Cmd :=
  { code := 0x0043, kinds := [1, 2, 3], rights := fun m q => m.holds q.no 3 && m.occupies q.no (q.byte 2), run := traceConfigRun
    lengthOk := fun m q =>
      q.size 0x14 && decide (q.byte 0 ≤ 2) && decide (q.byte 1 ≤ 2) && decide (q.byte 2 < 25) && decide (q.fld 4 2 < 1024) &&
        (q.byte 0 == 0 || (q.fld 0x10 4 % 32 == 0 && decide (q.fld 8 8 + q.fld 0x10 4 ≤ 2 ^ 48) &&
          m.rangeOk (m.sessId q.no) (q.fld 8 8) (q.fld 0x10 4) false true)) }

/-! ### DIGEST_READ (R486, Table 13.5) -/

/-- A digest state record, of a combiner and the cores of its part. -/
def digestState (d : Combiner) (rows : W64) (enabled : Bool) : List Byte :=
  bytesOf d.boundaries 4 ++ le 4 (d.pending.length % 8) ++ bytesOf d.recordsWritten 4 ++ bytesOf d.holdCycles 4 ++ bytesOf rows 8 ++
    le 4 (b2n d.traceEnded * 2 + b2n enabled) ++ zeros 4

/-- The state record of one part: of its region while its gang is the region's, of its save area while pre-empted. -/
def partDigest (m : Mod) (x : Gang) : List Byte :=
  let g := m.region x.region
  match x.saved with
  | some s => digestState s.dig (s.cores.foldl (fun a c => a + c.dig.n) 0) g.digestOn
  | none =>
    if g.run.gang = x.id then digestState g.dig (g.site.foldl (fun a s => a + (m.core s).dig.n) 0) g.digestOn
    else digestState {} 0 g.digestOn

def digestReadRun (q : Req) (m : Mod) : Ans :=
  match m.placementOf (q.fld 0 2) with
  | none => Ans.fail m eState
  | some p =>
    let head := match p.ring with
      | some g => ringHeader g
      | none => zeros 64
    { m := m, body := head ++ p.gangs.flatMap (partDigest m) }

def digestReadCmd : Cmd := observeCmd 0x0044 (fun _ q => q.size 2) (fun m q => m.observesGang q.no (q.fld 0 2)) digestReadRun

/-! ### CORE_PEEK (R526, R289) -/

/-- The bytes of one item of a space. -/
def peekSize (space : Nat) : Nat := [512, 1024, 8, 8, 1024].getD space 1

def peekLength (q : Req) : Bool :=
  let sp := q.byte 0
  let n := q.fld 8 2
  q.size 0x0A && decide (sp ≤ 4) && decide (1 ≤ n) &&
    (if sp = 3 then decide (n ≤ 221) && decide (q.byte 1 < 64) else decide (n * peekSize sp ≤ responseSize)) &&
    (match sp with
      | 0 => decide (q.fld 6 2 + n ≤ 16384)
      | 2 => decide (q.fld 6 2 + n ≤ 2048)
      | 4 => decide (q.fld 6 2 + n ≤ 64)
      | _ => true)

/-- The drawer state record of some slots (Table 7.4). -/
def drawerBytes (c : Core) (d : Nat) (x : DrawerDecl) (first n : Nat) : List Byte :=
  bytesOf (c.cc.words.get (0x780 + d)) 4 ++ le 4 (2 ^ 16 + x.slotCount) ++ (List.range' first n).flatMap (fun s =>
    let t := c.slot d s
    le 8 (t.gen.toNat * 2 ^ 48 + t.reads.toNat * 2 ^ 32 + t.fill))

/-- A range that a core's declarations put out of bounds (R526). -/
def peekBeyond (q : Req) (d : PartDecl) : Bool :=
  let e := q.fld 6 2 + q.fld 8 2
  match q.byte 0 with
  | 1 => decide (accRows d < e)
  | 3 => decide ((match Tab.find d.drawers (q.byte 1) with
      | some x => x.slotCount
      | none => 0) < e)
  | _ => false

/-- The data of a CORE_PEEK (Table 14.13). -/
def peekData (q : Req) (d : PartDecl) (c : Core) : List Byte :=
  let ks := List.range' (q.fld 6 2) (q.fld 8 2)
  match q.byte 0 with
  | 0 => ks.flatMap (fun r => bytesOf (c.sp.rows.get r) 512)
  | 1 => ks.flatMap (fun r => bytesOf (accWiden d.halfWidth (c.arr.acc.get r)) 1024)
  | 2 => ks.flatMap (fun w => bytesOf (c.cc.words.get w) 8)
  | 3 => drawerBytes c (q.byte 1) (Tab.get d.drawers (q.byte 1) {}) (q.fld 6 2) (q.fld 8 2)
  | _ =>
    let v := if q.byte 1 / 4 % 2 = 1 then c.v1 else c.v0
    ks.flatMap (fun r => bytesOf (v.tiles.get (64 * (q.byte 1 % 4) + r)) 1024)

/-- A peek at a running gang's rows goes through the landing port (R526). -/
def peekPort (q : Req) (d : PartDecl) (m : Mod) (s : Nat) : Mod :=
  if q.byte 0 = 0 then
    m.onCore s (countLand ((List.range' (q.fld 6 2) (q.fld 8 2)).filter (fun r => !rowGated d r)).length)
  else m

def corePeekRun (q : Req) (m : Mod) : Ans :=
  match m.gangView (q.fld 2 2) with
  | none => Ans.fail m eState
  | some (g, d, v) =>
    if g.sites.length ≤ q.fld 4 2 ∨ peekBeyond q d then Ans.fail m eLength else
    match v with
    | none => Ans.fail m eState
    | some v =>
      if v.runs ∧ (q.byte 0 = 1 ∨ q.byte 0 = 2 ∨ q.byte 0 = 4) then Ans.fail m eState
      else
        { m := if v.runs then peekPort q d m (g.sites.getD (q.fld 4 2) 0) else m
          body := peekData q d (m.viewCore g v (q.fld 4 2)) }

def corePeekCmd : Cmd := observeCmd 0x0045 (fun _ q => peekLength q) (fun m q => m.observesGang q.no (q.fld 2 2)) corePeekRun

/-! ### The commands -/

/-- CLAMP_READ. -/
def execClampRead (q : Req) (s : State) : Host.Outcome State Fault Refusal :=
  s.runIf (Instr.wf (.clampRead q)) (mailboxCmd clampReadCmd q)

/-- CLAMP_SET, FORM 0. -/
def execClampSetWord (q : Req) (s : State) : Host.Outcome State Fault Refusal :=
  s.runIf (Instr.wf (.clampSetWord q)) (mailboxCmd clampSetWordCmd q)

/-- CLAMP_SET, FORM 1. -/
def execClampSetRing (q : Req) (s : State) : Host.Outcome State Fault Refusal :=
  s.runIf (Instr.wf (.clampSetRing q)) (mailboxCmd clampSetRingCmd q)

/-- COUNTERS_READ. -/
def execCountersRead (q : Req) (s : State) : Host.Outcome State Fault Refusal :=
  s.runIf (Instr.wf (.countersRead q)) (mailboxCmd countersReadCmd q)

/-- TRACE_CONFIG. -/
def execTraceConfig (q : Req) (s : State) : Host.Outcome State Fault Refusal :=
  s.runIf (Instr.wf (.traceConfig q)) (mailboxCmd traceConfigCmd q)

/-- DIGEST_READ. -/
def execDigestRead (q : Req) (s : State) : Host.Outcome State Fault Refusal :=
  s.runIf (Instr.wf (.digestRead q)) (mailboxCmd digestReadCmd q)

/-- CORE_PEEK. -/
def execCorePeek (q : Req) (s : State) : Host.Outcome State Fault Refusal :=
  s.runIf (Instr.wf (.corePeek q)) (mailboxCmd corePeekCmd q)

end Sys2Proof.Machine
end

