-- ==== Sys2Proof/Machine/Spdm.lean ====
section
/-!
DEFINITION. Machine/Spdm.lean: attestation: the SPDM 1.2 responder over DOE, MCTP and ATTEST (spec/15_bringup.md R565 to R568;
log entry 23).
-/

namespace Sys2Proof.Machine

open Sys2Proof

/-- An SPDM request as the responder sees it (R566). -/
inductive SpdmReq where
  | getVersion
  | getCapabilities
  | negotiateAlgorithms
  | getDigests
  | getCertificate (offset len : Nat)
  | challenge
  | getMeasurements (signed : Bool) (index : Nat)
  | other
  deriving DecidableEq, Repr

/-! ### Measurements (R568, Table 15.9) -/

/-- MODULE_STATE of the status page (Table 14.2). -/
def Mod.moduleState (m : Mod) : W32 :=
  BitVec.ofNat 32 (m.aon.state.code + 256 * m.aon.safeCause.toNat + 65536 * b2n m.aon.ownerInstalled +
    131072 * b2n m.aon.ownerProven + 262144 * b2n m.aon.identityReady + 524288 * b2n m.aon.tirixRunning)

/-- A measurement block: its index, whether it is a digest, its contents. -/
def Mod.measurement (m : Mod) (i : Nat) : Nat × Bool × List Byte :=
  match i with
  | 1 => (1, false, Config.rootDigest m.b0 ++ bytesOf (Config.romMinSvn m.b0) 2)
  | 2 => (2, true, m.ident.fwDigest)
  | 3 => (3, false, bytesOf m.aon.fwVersion 4 ++ bytesOf m.aon.svn 2 ++ le 2 m.stepping)
  | 4 => (4, true, if m.aon.ownerInstalled then sha512 m.ownerKey else zeros 64)
  | _ => (5, false, bytesOf m.moduleState 4)

/-! ### The responder -/

/-- Whether a request needs the identity key (R567). -/
def SpdmReq.signed : SpdmReq → Bool
  | .challenge => true
  | .getMeasurements s _ => s
  | _ => false

/-- The digest of certificate slot 0, none until a certificate has been accepted (R564, R567). -/
def Mod.slotDigest (m : Mod) : Option (List Byte) := if m.ident.cert.isEmpty then none else some (sha512 m.ident.cert)

/-- A signature of the identity key over the transcript of the path (R566, R567). -/
def Mod.spdmSign (m : Mod) : List Byte := Config.identitySign (m.ident.key.getD []) (Config.spdmTranscript m.freeCtr)

/-- What a request of the stage after algorithms are negotiated is answered. -/
def Mod.spdmBody (m : Mod) (r : SpdmReq) : SpdmRsp :=
  match r with
  | .getDigests => .digests m.slotDigest
  | .getCertificate off len => .certificate (slice m.ident.cert off (min len (m.ident.cert.length - off)))
  | .challenge => .challengeAuth m.slotDigest (Config.nonce m.freeCtr 32) m.spdmSign
  | .getMeasurements s i =>
    let sig := if s then some (Config.nonce m.freeCtr 32, m.spdmSign) else none
    if i = 0 then .measurements 5 [] sig
    else if i = 255 then .measurements 5 ((List.range' 1 5).map m.measurement) sig
    else if i ≤ 5 then .measurements 5 [m.measurement i] sig
    else .invalid
  | _ => .unsupported

/-- The answer of a path's responder and the stage of its connection afterwards (R565 to R567). -/
def Mod.spdmAnswer (m : Mod) (p : SpdmPath) (r : SpdmReq) : SpdmRsp × Fin 4 :=
  match r with
  | .other => (.unsupported, p.stage)
  | .getVersion => (.version 0x12, 1)
  | .getCapabilities => if p.stage = 1 then (.capabilities true true 2 false, 2) else (.unexpected, p.stage)
  | .negotiateAlgorithms => if p.stage = 2 then (.algorithms true true true, 3) else (.unexpected, p.stage)
  | r =>
    if r.signed ∧ !m.aon.identityReady then (.busy, p.stage)
    else if p.stage = 3 then (m.spdmBody r, 3) else (.unexpected, p.stage)

/-- A path's responder answers; each answer may draw a nonce. -/
def Mod.spdmPath (m : Mod) (p : SpdmPath) (r : SpdmReq) : SpdmPath :=
  let a := m.spdmAnswer p r
  { stage := a.2, answer := some a.1 }

/-- Whether SPDM requests over DOE and MCTP are answered: not before TIRIX_RUNNING, nor in SAFE_HOLD (R567). -/
def Mod.spdmServing (m : Mod) : Bool := m.aon.tirixRunning && m.aon.state != .safeHold

/-- DOE holds its Busy bit while its requests are not answered (R567, Table 17.4). -/
def Mod.doeBusy (m : Mod) : Bool := !m.spdmServing

/-- ATTEST: the request on the mailbox path; E_STATE where the other paths answer Busy (R567). -/
def attestRun (r : SpdmReq) (_ : Req) (m : Mod) : Ans :=
  let p := m.spdmPath m.ident.attest r
  if p.answer = some .busy then Ans.fail m eState
  else { m := { m with ident := { m.ident with attest := p }, freeCtr := m.freeCtr + 1 }
         body := (Config.spdmMessage m.freeCtr).take 1776 }

def attestCmd (r : SpdmReq) : Cmd :=
  { code := 0x0008, kinds := [4, 1, 2, 3], lengthOk := fun _ _ => true, run := attestRun r }

/-- An SPDM request over its path (R565). -/
def spdmRequest (via : SpdmVia) (r : SpdmReq) (m : Mod) : Mod :=
  match via with
  | .attest q => mailboxCmd (attestCmd r) q m
  | .doe =>
    if m.spdmServing then { m with ident := { m.ident with doe := m.spdmPath m.ident.doe r }, freeCtr := m.freeCtr + 1 } else m
  | .mctp =>
    if m.spdmServing then { m with ident := { m.ident with mctp := m.spdmPath m.ident.mctp r }, freeCtr := m.freeCtr + 1 } else m

/-- The request an SPDM message spells, by its request code (DSP0274; log entry 23). -/
def spdmParse (b : List Byte) : SpdmReq :=
  let p2 := fld b 3 1
  match fld b 1 1 with
  | 0x84 => .getVersion
  | 0xE1 => .getCapabilities
  | 0xE3 => .negotiateAlgorithms
  | 0x81 => .getDigests
  | 0x82 => .getCertificate (fld b 4 2) (fld b 6 2)
  | 0x83 => .challenge
  | 0xE0 => .getMeasurements (fld b 2 1 % 2 == 1) p2
  | _ => .other

/-! ### The commands -/

/-- GET_VERSION. -/
def execGetVersion (via : SpdmVia) (s : State) : Host.Outcome State Fault Refusal :=
  s.runIf (Instr.wf (.getVersion via)) (spdmRequest via .getVersion)

/-- GET_CAPABILITIES. -/
def execGetCapabilities (via : SpdmVia) (s : State) : Host.Outcome State Fault Refusal :=
  s.runIf (Instr.wf (.getCapabilities via)) (spdmRequest via .getCapabilities)

/-- NEGOTIATE_ALGORITHMS. -/
def execNegotiateAlgorithms (via : SpdmVia) (s : State) : Host.Outcome State Fault Refusal :=
  s.runIf (Instr.wf (.negotiateAlgorithms via)) (spdmRequest via .negotiateAlgorithms)

/-- GET_DIGESTS. -/
def execGetDigests (via : SpdmVia) (s : State) : Host.Outcome State Fault Refusal :=
  s.runIf (Instr.wf (.getDigests via)) (spdmRequest via .getDigests)

/-- GET_CERTIFICATE. -/
def execGetCertificate (via : SpdmVia) (offset len : W16) (s : State) : Host.Outcome State Fault Refusal :=
  s.runIf (Instr.wf (.getCertificate via offset len)) (spdmRequest via (.getCertificate offset.toNat len.toNat))

/-- CHALLENGE. -/
def execChallenge (via : SpdmVia) (nonce : List Byte) (s : State) : Host.Outcome State Fault Refusal :=
  s.runIf (Instr.wf (.challenge via nonce)) (spdmRequest via .challenge)

/-- GET_MEASUREMENTS. -/
def execGetMeasurements (via : SpdmVia) (nonce : List Byte) (signed : Bool) (index : Byte) (s : State) :
    Host.Outcome State Fault Refusal :=
  s.runIf (Instr.wf (.getMeasurements via nonce signed index)) (spdmRequest via (.getMeasurements signed index.toNat))

/-- Any other SPDM request. -/
def execSpdmUnsupportedRequest (via : SpdmVia) (s : State) : Host.Outcome State Fault Refusal :=
  s.runIf (Instr.wf (.spdmUnsupportedRequest via)) (spdmRequest via .other)

/-- MCTP Set Endpoint ID (R565). -/
def execSetEndpointId (eid : Byte) (s : State) : Host.Outcome State Fault Refusal :=
  s.runIf (Instr.wf (.setEndpointId eid)) (fun m =>
    if m.aon.state = .off then m else { m with ident := { m.ident with endpoint := eid } })

end Sys2Proof.Machine
end

