-- ==== Sys2Proof/Machine/Register.lean ====
section
/-!
DEFINITION. Machine/Register.lean: writes to BAR0 fields, requests posted by register writes, unknown commands, and the BAR2
window (spec/00_scope.md R7, R8; spec/14_tirix.md R492 to R501, R508, R534; spec/15_bringup.md R547; log entries 3, 8, 27).
-/

namespace Sys2Proof.Machine

open Sys2Proof

/-! ### Requests by code (Table 14.7) -/

/-- The command a request of a subcommand family names, by its selector. -/
def subCommand (code : Nat) (q : Req) : Option Cmd :=
  match code with
  | 0x0005 => some (if q.byte 0 = 1 then proveProofCmd else proveNonceCmd)
  | 0x0013 => some (match q.byte 0 with
    | 1 => linkEnableCmd
    | 2 => linkChallengeCmd
    | 3 => requireVerifiedCmd
    | 4 => trustAnchorCmd
    | _ => linkDisableCmd)
  | 0x0023 => some (pinCmd (q.byte 0x0C == 1))
  | 0x0032 => some (if q.byte 2 % 2 = 1 then gangReleaseCmd else gangPlaceCmd)
  | 0x0041 => some (if q.byte 0 = 1 then clampSetRingCmd else clampSetWordCmd)
  | 0x0051 => some (if 128 ≤ q.byte 8 then modeWithdrawCmd else modeCommitCmd)
  | 0x0064 => some (match q.byte 0 with
    | 2 => progressMarksCmd
    | 3 => syncIoCmd
    | 4 => bar2WindowCmd
    | _ => eventPolicyCmd)
  | _ => none

/-- The commands of Table 14.7 without a selector. -/
def plainCommands : List Cmd :=
  [helloCmd, openSessionCmd, closeSessionCmd, installOwnerCmd, pufHelperCmd, certCmd, getDescriptorCmd, getTopologyCmd,
    setPartitionCmd, stockAllocCmd, stockFreeCmd, stockMapHostCmd, stockFillCmd, wheelSetCmd, programLoadCmd, programUnloadCmd,
    gangStartCmd, gangStopCmd, gangPreemptCmd, gangResumeCmd, gangStatusCmd, clampReadCmd, countersReadCmd, traceConfigCmd,
    digestReadCmd, corePeekCmd, stepStageCmd, envelopeSetCmd, ceilingSetCmd, telemetryReadCmd, eventAckCmd, logReadCmd,
    fenceCoreCmd, safeHoldClearCmd]

/-- The command a request names (Table 14.7). -/
def commandFor (code : Nat) (q : Req) : Option Cmd :=
  if code = 0x0008 then some (attestCmd (spdmParse q.body))
  else match subCommand code q with
    | some c => some c
    | none => plainCommands.find? (fun c => c.code == code)

/-- The request in a mailbox's request area served when it waits; a length beyond the area fails the Length check (R500; log entry 70). -/
def servePosted (mb : Fin 32) (m : Mod) : Mod :=
  let b := m.mailbox mb.val
  if b.seq = b.ack ∨ !m.serving then m else
  let n := b.reqLength.toNat
  let q : Req := { mb := mb, flags := b.reqFlags, tag := b.reqTag, body := slice b.reqBody 0 (min n 2016) }
  match commandFor b.reqCommand.toNat q with
  | none => answerPosted mb.val eUnknown [] m
  | some c => serveCmd (if n ≤ 2016 then c else { c with lengthOk := fun _ _ => false }) q m

/-! ### Field writes -/

/-- The bytes of a field at offset `fo` after a write of `bytes` at offset `o` of its page. -/
def patch (old : List Byte) (fo o : Nat) (bytes : List Byte) : List Byte :=
  (List.range old.length).map (fun i =>
    if o ≤ fo + i ∧ fo + i < o + bytes.length then bytes.getD (fo + i - o) 0 else old.getD i 0)

/-- A field of whole bytes after a write. -/
def patchWord {n : Nat} (x : BitVec n) (fo o : Nat) (bytes : List Byte) : BitVec n :=
  wordOf n (patch (bytesOf x (n / 8)) fo o bytes)

/-- REQ_BODY after a write. -/
def patchBody (old : List Byte) (o : Nat) (bytes : List Byte) : List Byte :=
  if o < 0x800 ∧ 0x20 < o + bytes.length then
    patch (slice old 0 (max old.length (min 2016 (o + bytes.length - 0x20)))) 0x20 o bytes
  else old

/-- A bit at bit 0 of the byte at offset `fo` after a write. -/
def patchBit (x : Bool) (fo o : Nat) (bytes : List Byte) : Bool :=
  if o ≤ fo ∧ fo < o + bytes.length then (bytes.getD (fo - o) 0).toNat % 2 == 1 else x

/-- A command mailbox's RW fields after a write; its other fields ignore it (Table 14.4, R7, R8). -/
def Mailbox.write (b : Mailbox) (o : Nat) (bytes : List Byte) : Mailbox :=
  { b with seq := patchWord b.seq 0 o bytes, irq := patchBit b.irq 0x0C o bytes
           reqCommand := patchWord b.reqCommand 0x10 o bytes, reqFlags := patchWord b.reqFlags 0x12 o bytes
           reqLength := patchWord b.reqLength 0x14 o bytes, reqTag := patchWord b.reqTag 0x18 o bytes
           reqBody := patchBody b.reqBody o bytes }

/-- MSI-X as the host function has it: writing an IRQ bit as 1 enables it (R506, R541; log entry 27). -/
def enableMsix (on : Bool) (m : Mod) : Mod := if on then { m with host := { m.host with msixOn := true } } else m

/-- A write to a command mailbox; discarded on MB1 to MB30 in SAFE_HOLD (R508). -/
def writeMailbox (mb : Fin 32) (o : Nat) (bytes : List Byte) (m : Mod) : Mod :=
  if m.deaf mb.val then m else
  servePosted mb (enableMsix (patchBit false 0x0C o bytes) (m.onMailbox mb.val (fun b => b.write o bytes)))

/-- A write to MB31, of which EV_FLAGS.IRQ alone is writable (Table 14.16). -/
def writeEvents (o : Nat) (bytes : List Byte) (m : Mod) : Mod :=
  if m.aon.state = .off ∨ m.aon.state = .safeHold then m else
  enableMsix (patchBit false 0x0C o bytes) { m with events := { m.events with irq := patchBit m.events.irq 0x0C o bytes } }

/-- A write to the boot window: BOOT_LENGTH, FW_IMAGE and BOOT_GO, in BOOT only (Table 15.4, R547; log entry 69). -/
def writeBoot (o : Nat) (bytes : List Byte) (m : Mod) : Mod :=
  if m.aon.state ≠ .boot then m else
  let len := patchWord m.bringup.bootLength 8 o bytes
  let img := (bytes.zipIdx).foldl (fun (t : Mem 8) (x : Byte × Nat) =>
    if 0x1000 ≤ o + x.2 then t.set (o + x.2 - 0x1000) x.1 else t) m.bringup.bootImage
  bootGo (patchWord (0 : W32) 0x0C o bytes) { m with bringup := { m.bringup with bootLength := len, bootImage := img } }

/-- A write at an offset of BAR0 (Table 14.1): what is not writable discards it (R492). -/
def writeBar0 (off : Nat) (bytes : List Byte) (m : Mod) : Mod :=
  let page := off / 0x1000
  if h : page < 31 then writeMailbox ⟨page, by omega⟩ (off % 0x1000) bytes m
  else if page = 31 then writeEvents (off % 0x1000) bytes m
  else if 0x1000000 ≤ off ∧ off < 0x4000000 then writeBoot (off - 0x1000000) bytes m
  else m

/-! ### The BAR2 window (R493 to R495) -/

/-- The owner session's identifier, 0 without one. -/
def Mod.ownerSession (m : Mod) : Nat := m.sessId 0

/-- Whether the window is enabled (R495). -/
def Mod.bar2Enabled (m : Mod) : Bool :=
  m.settings.bar2On && [ModState.roughCut, .full, .standby].contains m.aon.state

/-- The stock address of a BAR2 offset (R493). -/
def Mod.bar2Sa (m : Mod) (off : Nat) : Nat := m.settings.bar2Base.toNat + off

/-- Whether an access reaches stock (R494). -/
def Mod.bar2Ok (m : Mod) (off : Nat) (write : Bool) : Bool :=
  m.bar2Enabled && decide (m.bar2Sa off < 2 ^ 48) && m.rangeOk m.ownerSession (m.bar2Sa off) 1 true write

/-- An access served: stock read or written, the translator's marks made; or zero read, the write discarded and the access
counted (R494, R495, R295). -/
def bar2Serve (off : Nat) (write : Bool) (bytes : List Byte) (m : Mod) : Mod :=
  if !m.bar2Ok off write then
    { m with power := { m.power with bar2Discards := m.power.bar2Discards + 1 }
             host := if write then m.host else { m.host with bar2Data := zeros bytes.length } }
  else
    let sess := m.ownerSession
    let sa := m.bar2Sa off
    let m := m.touchPage sess (sa / 2 ^ 21) write
    if write then m.stockWrite sess sa bytes
    else { m with host := { m.host with bar2Data := m.stockBytes sess sa bytes.length } }

/-- An access arrives: one that finds the window enabled in STANDBY wakes the module and waits for stock to leave
self-refresh, as does any that follows it meanwhile (R495). A read carries as many bytes as it asks for. -/
def bar2Access (off : Nat) (write : Bool) (bytes : List Byte) (m : Mod) : Mod :=
  if m.aon.state = .off ∨ !m.bringup.pcieReady then m
  else if (m.bar2Enabled ∧ m.aon.state = .standby) ∨ !m.host.bar2Wait.isEmpty then
    let m := if m.bar2Enabled then leaveStandby m else m
    { m with host := { m.host with bar2Wait := m.host.bar2Wait ++ [(off, write, bytes)] } }
  else bar2Serve off write bytes m

/-- BAR2_ACCESS_COMPLETE: the oldest waiting access served (R495). -/
def bar2Complete (m : Mod) : Mod :=
  match m.host.bar2Wait with
  | [] => m
  | x :: rest => bar2Serve x.1 x.2.1 x.2.2 { m with host := { m.host with bar2Wait := rest } }

/-! ### The commands -/

/-- A write to a BAR0 field. -/
def execRegisterWrite (offset : BitVec 26) (bytes : List Byte) (s : State) : Host.Outcome State Fault Refusal :=
  s.runIf (Instr.wf (.registerWrite offset bytes)) (writeBar0 offset.toNat bytes)

/-- A request whose code Table 14.7 does not hold. -/
def execMailboxUnknownCommand (code : W16) (q : Req) (s : State) : Host.Outcome State Fault Refusal :=
  s.runIf (Instr.wf (.mailboxUnknownCommand code q)) (unknownCmd code.toNat q)

/-- A BAR2 read. -/
def execBar2Read (offset : BitVec 36) (len : BitVec 12) (s : State) : Host.Outcome State Fault Refusal :=
  s.runIf (Instr.wf (.bar2Read offset len)) (bar2Access offset.toNat false (zeros len.toNat))

/-- A BAR2 write. -/
def execBar2Write (offset : BitVec 36) (bytes : List Byte) (s : State) : Host.Outcome State Fault Refusal :=
  s.runIf (Instr.wf (.bar2Write offset bytes)) (bar2Access offset.toNat true bytes)

/-- A waiting BAR2 access completes. -/
def execBar2AccessComplete (s : State) : Host.Outcome State Fault Refusal :=
  s.runIf (Instr.wf .bar2AccessComplete) bar2Complete

end Sys2Proof.Machine
end

