-- ==== Sys2Proof/Machine/Update.lean ====
section
/-!
DEFINITION. Machine/Update.lean: the parameter update unit: rows, lazy entries, narrow copies, replicas and
acknowledgement (spec/11_collectives_update.md R435 to R461).
-/

namespace Sys2Proof.Machine

open Sys2Proof

/-! ### Declared and sampled fields -/

/-- RULE, PBASE, AUX, WBASE and UCB of an update-unit entry (Table 11.1). -/
def uRule (t : TagDecl) : Nat := sel t.targ0 15 14
def uPbase (t : TagDecl) : Nat := sel t.targ0 13 0
def uAux (t : TagDecl) : W32 := BitVec.ofNat 32 (sel t.tparam 63 32)
def uWbase (t : TagDecl) : Nat := sel t.tparam 31 21
def uUcb (t : TagDecl) : Nat := sel t.tparam 20 10

/-- The fields of CONTROL (Table 11.2). -/
def kLazy (k : W64) : Bool := bit k 63
def kCopyLocal (k : W64) : Bool := bit k 62
def kReplicas (k : W64) : Nat := sel k 61 60
def kCfmt (k : W64) : Nat := sel k 59 56
def kCsr (k : W64) : Bool := bit k 55
def kEntryRows (k : W64) : Nat := sel k 54 48
def kStepBase (k : W64) : Nat := sel k 45 32
def kAckw (k : W64) : Nat := sel k 31 21
def kAcken (k : W64) : Bool := bit k 20
def kSofs (k : W64) : Nat := sel k 10 0

/-- What the unit samples as it begins a message or UPD (R438 to R440). -/
def updSample (t : TagDecl) (group : Nat) (c : Core) : UpdSample :=
  let w (a : Nat) : W64 := c.cc.words.get (a % 2048)
  let lo (a : Nat) : W32 := (w a).setWidth 32
  let b := uWbase t + 3 * group
  let u := uUcb t
  { eta := lo b, beta := lo (b + 1), lambda := lo (b + 2), clip := lo u, control := w (u + 1), copyHandle := lo (u + 2)
    tmpl0 := (w (u + 5)) ++ (w (u + 4)), tmpl1 := (w (u + 7)) ++ (w (u + 6)), step := lo 0x7FC, seed := w 0x7FD }

/-- What a job was begun with. -/
def UpdJob.smp (j : UpdJob) : UpdSample :=
  j.sample.getD { eta := 0, beta := 0, lambda := 0, clip := 0, control := 0, copyHandle := 0, tmpl0 := 0, tmpl1 := 0, step := 0, seed := 0 }

/-- Whether a job is lazy, copies locally, sends replicas; UPD does none of them (R446). -/
def UpdJob.isLazy (j : UpdJob) : Bool := !j.upd && kLazy j.smp.control
def UpdJob.copies (j : UpdJob) : Bool := !j.upd && kCopyLocal j.smp.control
def UpdJob.nrep (j : UpdJob) : Nat := if j.upd then 0 else kReplicas j.smp.control
def UpdJob.narrows (j : UpdJob) : Bool := j.copies || j.nrep != 0

/-- The copy block P (R449). -/
def UpdJob.block (j : UpdJob) : Nat := if kCfmt j.smp.control = 0xA then 2 else 4

/-- The first parameter row of a message (R437, R458). -/
def UpdJob.first (j : UpdJob) : Nat := if j.isLazy then j.arg * kEntryRows j.smp.control else j.arg

/-! ### Refusals (Table 11.6) -/

/-- The cause a message is refused for, 0 when it is not; the first of the table that holds. -/
def updRefusal (decl : PartDecl) (j : UpdJob) : Nat :=
  let k := j.smp.control
  let n := j.rows.length
  let f := kCfmt k
  let p := j.block
  let known := f = 1 ∨ f = 2 ∨ f = 3 ∨ f = 0xA
  let rangeBad : Bool := match handleDecl decl j.smp.copyHandle with
    | none => true
    | some d => decide (d.slotRows < (j.first + n) / p) || (f == 3 && decide (n ≠ 0 ∧ d.slotRows ≤ kSofs k + (j.first + n - 1) / 128))
  if j.upd then 0
  else if j.isLazy ∧ n ≠ kEntryRows k then 1
  else if j.narrows ∧ known ∧ (j.first % p ≠ 0 ∨ n % p ≠ 0) then 1
  else if j.copies ∧ known ∧ rangeBad then 2
  else if (j.narrows ∧ ¬known) ∨ kReplicas k = 3 ∨ (f = 3 ∧ kReplicas k ≠ 0) ∨ (j.isLazy ∧ kEntryRows k = 0) then 3
  else 0

/-! ### Arithmetic (R447, R459) -/

/-- An exact sum of terms rounded once. -/
def rsum (ts : List Fv) : W32 := encF32 .rne (sumExact ts)

def fv (w : W32) : Fv := decF32 w
def fmul (a b : W32) : Fv := (fv a).mul (fv b)

/-- A value times 2^−7, exactly. -/
def Fv.down7 : Fv → Fv
  | .fin s m e => .fin s m (e - 7)
  | v => v

/-- sgn (R447). -/
def sgnF (c : W32) : W32 := match fv c with
  | .nan => nan32
  | v => if v.isZero then 0 else if (Fv.fin false 0 0).lt v then one32 else one32 ||| 0x80000000#32

/-- Value `i` of a row of 128 (R435). -/
def v32 (r : Row) (i : Nat) : W32 := elem 32 r i

/-- The new master and average rows of one row under a rule (R447). -/
def updRule (rule : Nat) (aux : W32) (x : UpdSample) (p a g : Row) : Row × Row :=
  let gi (i : Nat) : W32 := mulF (v32 g i) x.clip
  let ob := subF one32 x.beta
  let mix (b o : W32) (i : Nat) : W32 := rsum [fmul b (v32 a i), fmul o (gi i)]
  let down (i : Nat) (u : W32) : W32 := rsum [fv (v32 p i), (fmul x.eta u).neg]
  let decay (i : Nat) (c : W32) : W32 := rsum [fv c, fmul x.lambda (v32 p i)]
  match rule with
  | 0 =>
    let a' := row32 (mix x.beta ob)
    (row32 (fun i => down i (decay i (v32 a' i))), a')
  | 1 => (row32 (fun i => down i (decay i (sgnF (mix x.beta ob i)))), row32 (mix aux (subF one32 aux)))
  | _ =>
    let a' := row32 (mix x.beta ob)
    let q := encF32 .rne (sumExact ((List.range 128).map (fun i => fmul (v32 a' i) (v32 a' i)))).down7
    let r := divF one32 (addF (sqrtF q) aux)
    (row32 (fun i => down i (mulF (v32 a' i) r)), a')

/-- powk (R459). -/
def powk (b : W32) (k : Nat) : W32 := if k = 0 then one32 else exp2F (mulF (f32OfNat k) (log2F b))

/-- The catch-up factors of a lazy message over `k` missed steps (R459). -/
def lazyFactors (rule : Nat) (aux : W32) (x : UpdSample) (k : Nat) : W32 × W32 :=
  (powk (if rule = 1 then aux else x.beta) k,
   if rule = 2 then one32 else powk (rsum [fv one32, (fmul x.eta x.lambda).neg]) k)

/-- The narrow bytes of one parameter row and its MX8 scales (R449, R450, R453). -/
def narrowRow (core : Nat) (x : UpdSample) (r : Nat) (p : Row) : List Byte × List Byte :=
  let k := x.control
  let seed : W64 := x.seed ^^^ x.step.setWidth 64
  let rnd (i : Nat) : Rnd := if kCsr k then .sr (srLo (srBits seed core r 0x8002 i)) else .rne
  let blk (b : Nat) : List W32 := (List.range 32).map (fun i => v32 p (32 * b + i))
  let scs := (List.range 4).map (fun b => mxScale 0 (blk b))
  let one (i : Nat) : List Byte := match kCfmt k with
    | 0xA => le 2 (toBF16 (rnd i) (v32 p i)).1
    | 1 => le 1 (toE4M3 false (rnd i) (v32 p i)).1
    | 2 => le 1 (toE5M2 false (rnd i) (v32 p i)).1
    | _ => le 1 (toMxElem 0 (rnd i) (scs.getD (i / 32) 0) (v32 p i)).1
  ((List.range 128).flatMap one, scs.map (BitVec.ofNat 8))

/-! ### Rows through the landing port (R437, R444, R281) -/

/-- A row read without guards: zero and counted where it is gated. -/
def updRead (ctx : Ctx) (row : Nat) (c : Core) : Eff × Row :=
  let c := countLand 1 c
  if rowGated ctx.decl row then (recGated c 15 ctx.view, 0) else ({ core := c }, c.sp.rows.get row)

/-- A row written without guards: discarded and counted where it is gated. -/
def updWrite (ctx : Ctx) (row : Nat) (v : Row) (c : Core) : Eff :=
  let c := countLand 1 c
  if rowGated ctx.decl row then recGated c 15 ctx.view
  else { core := { c with sp := { c.sp with rows := c.sp.rows.set row v } } }

/-- A row of a slot written through its handle and marked written (R261); one of a drained generation is discarded and
counted (R275). -/
def slotWrite (ctx : Ctx) (h : W32) (ofs : Nat) (v : Row) (c : Core) : Eff :=
  let (k, row) := checkHandle ctx.decl c h ofs
  if k ≠ 0 then { core := recHandle c k 15 ctx.view h }
  else
    let mark : RowMark := { drawer := hDrawer h, slot := hSlot h, gen := BitVec.ofNat 16 (hGen h), off := ofs }
    (updWrite ctx row v c).bind (fun c => { core := markRow c mark })

/-- A lazy entry's step word: its row and byte (R458). -/
def stepWordAt (j : UpdJob) : Nat × Nat := ((kStepBase j.smp.control + j.arg / 128) % 16384, 4 * (j.arg % 128))

/-! ### Jobs -/

/-- The jobs of a core with one replaced, found by its place. -/
def setJob (i : Nat) (j : UpdJob) (c : Core) : Core := { c with upd := { c.upd with jobs := c.upd.jobs.set i j } }

def dropJob (i : Nat) (c : Core) : Core := { c with upd := { c.upd with jobs := c.upd.jobs.eraseIdx i } }

/-- The first job of a core with a property, and its place. -/
def findJob (p : UpdJob → Bool) (c : Core) : Option (Nat × UpdJob) := (c.upd.jobs.zipIdx.find? (fun x => p x.1)).map (fun x => (x.2, x.1))

/-- Whether a message's local copy is whole (R445, R454). -/
def UpdJob.copied? (j : UpdJob) : Bool := !j.copies || decide (j.copied * j.block ≥ j.rows.length)

/-- Whether nothing of a job is left to do. -/
def UpdJob.over (j : UpdJob) : Bool :=
  j.fin && j.copied? && decide (j.replicas ≥ j.nrep) && (j.acked || !kAcken j.smp.control)

/-- Finished jobs leave the unit. -/
def sweepJobs (c : Core) : Core := { c with upd := { c.upd with jobs := c.upd.jobs.filter (fun j => !j.over) } }

/-- A job begun: its words sampled, and for a lazy entry its step word read and the catch-up found (R440, R459). -/
def beginJob (ctx : Ctx) (t : TagDecl) (j : UpdJob) (c : Core) : Eff × UpdJob :=
  let c := settleWords c c.pos
  let j := { j with sample := some (updSample t j.group c), begun := true }
  if j.isLazy && updRefusal ctx.decl j == 0 then
    let (row, b) := stepWordAt j
    let (e, v) := updRead ctx row c
    let gap := (j.smp.step - elem 32 v (b / 4)).toNat
    let (dm, dp) := lazyFactors (uRule t) (uAux t) j.smp (gap - 1)
    let c := e.core
    let k := c.upd.cnt
    let k := if gap = 0 then { k with lazyRepeats := bump32 k.lazyRepeats 1, sticky := sticky k.sticky 2 } else k
    ({ e with core := { c with upd := { c.upd with cnt := k } } }, { j with dm := dm, dp := dp })
  else ({ core := c }, j)

/-- The rows a job's next row updates: the master and average rows, through a slot for a UPD (R437, R446). -/
def updRows (decl : PartDecl) (t : TagDecl) (j : UpdJob) : Nat × Nat :=
  if j.upd then
    let b := slotBase decl j.handle
    (b, (b + 1) % 16384)
  else
    let r := j.first + j.next
    ((uPbase t + 2 * r) % 16384, (uPbase t + 2 * r + 1) % 16384)

/-- A narrow row extended by one parameter row's bytes (R449). -/
def addNarrow (core : Nat) (p : Row) (j : UpdJob) : UpdJob :=
  if !j.narrows then j else
  let r := j.first + j.next
  let (bs, sc) := narrowRow core j.smp r p
  let w := 512 / j.block
  let k := r % j.block
  let part : Row := BitVec.ofNat 4096 (leNat bs <<< (8 * w * k))
  let narrow := if k = 0 then j.narrow ++ [part] else j.narrow.dropLast ++ [j.narrow.getLastD 0 ||| part]
  { j with narrow := narrow, scales := j.scales ++ [sc] }

/-- What a job's last row leaves: its counts and a lazy entry's step word (R458, R459, Table 11.7). -/
def endRows (ctx : Ctx) (j : UpdJob) (c : Core) : Eff :=
  if !j.fin then { core := c } else
  let k := c.upd.cnt
  let c := { c with upd := { c.upd with cnt := { k with
    messagesApplied := bump48 k.messagesApplied 1
    lazyEntries := if j.isLazy then bump48 k.lazyEntries 1 else k.lazyEntries } } }
  if j.isLazy then
    let (row, b) := stepWordAt j
    updWrite ctx row (put (c.sp.rows.get row) (8 * b + 31) (8 * b) j.smp.step.toNat) c
  else { core := c }

/-- One row of a begun job read, updated and written back (R442, R447, R448, R459). -/
def applyRow (ctx : Ctx) (t : TagDecl) (i : Nat) (j : UpdJob) (c : Core) : Eff :=
  let (pr, ar) := updRows ctx.decl t j
  let (e1, p) := updRead ctx pr c
  let (e2, a) := updRead ctx ar e1.core
  let scale (d : W32) (r : Row) : Row := if j.isLazy then row32 (fun i => mulF (v32 r i) d) else r
  let (p', a') := updRule (uRule t) (uAux t) j.smp (scale j.dp p) (scale j.dm a) (j.rows.getD j.next 0)
  let bad := (List.range 128).any (fun i => !isFinF (v32 p' i) || !isFinF (v32 a' i))
  let e : Eff := { core := e2.core, ev := e1.ev ++ e2.ev }
  let e := e.bind (if j.upd then slotWrite ctx j.handle 0 p' else updWrite ctx pr p')
  let e := e.bind (if j.upd then slotWrite ctx j.handle 1 a' else updWrite ctx ar a')
  let j := addNarrow ctx.core p' j
  let j := { j with next := j.next + 1, fin := decide (j.rows.length ≤ j.next + 1) }
  let e := e.bind (fun c =>
    let k := c.upd.cnt
    { core := { c with upd := { c.upd with cnt := { k with
        rowsApplied := bump48 k.rowsApplied 1
        nonfiniteRows := if bad then bump32 k.nonfiniteRows 1 else k.nonfiniteRows
        sticky := if bad then sticky k.sticky 0 else k.sticky } } } })
  e.bind (fun c => (endRows ctx j (setJob i j c)).bind (fun c => { core := sweepJobs c }))

/-- UPDATE_ROW in a core: the oldest job with a row left begins, is refused, or has its next row applied; a UPD waits for its
slot's generation (R440, R442, R446, R460). -/
def updStep (ctx : Ctx) (err : SramErr) (c : Core) : Eff :=
  let c := handUpdates c
  match findJob (fun j => !j.fin) c with
  | none => { core := c }
  | some (i, j) =>
    match Tab.find ctx.decl.tags j.entry with
    | none => { core := c }
    | some t =>
      if j.upd && landWaits ctx.decl c j.handle 0 then { core := c } else
      let (e, j) := if j.begun then ({ core := c }, j) else beginJob ctx t j c
      let k := updRefusal ctx.decl j
      if k ≠ 0 then e.bind (fun c => recUpdErr (dropJob i c) ctx k 0 ctx.view)
      else if j.rows.isEmpty then
        let j := { j with fin := true }
        e.bind (fun c => (endRows ctx j (setJob i j c)).bind (fun c => { core := sweepJobs c }))
      else
        let e := e.bind (fun c => recSram (setJob i j c) ctx 0 (updRows ctx.decl t j).1 err)
        if e.sramStop then e else e.bind (applyRow ctx t i j)

/-- UPDATE_ROW. -/
def updateRow (s : Nat) (err : SramErr) (m : Mod) : Mod :=
  if (m.region (siteRegion s)).clocked then m.applyEff s (updStep (m.portCtx s) err (m.core s)) else m

/-! ### Copies, replicas and acknowledgement -/

/-- The scale bytes of a copy block's rows written into their scale rows (R453). -/
def writeScales (ctx : Ctx) (j : UpdJob) (c : Core) : Eff :=
  (List.range 4).foldl (fun (e : Eff) k =>
    let i := 4 * j.copied + k
    let r := j.first + i
    let ofs := kSofs j.smp.control + r / 128
    e.bind (fun c =>
      let row := (checkHandle ctx.decl c j.smp.copyHandle ofs).2
      let b := 32 * (r % 128)
      slotWrite ctx j.smp.copyHandle ofs (put (c.sp.rows.get row) (b + 31) b (leNat (j.scales.getD i []))) (countLand 1 c)))
    { core := c }

/-- One local narrow row written, once its slot is in its generation (R452, R453). -/
def copyStep (ctx : Ctx) (c : Core) : Eff :=
  match findJob (fun j => j.copies && j.begun && decide ((j.copied + 1) * j.block ≤ j.next)) c with
  | none => { core := c }
  | some (i, j) =>
    let h := j.smp.copyHandle
    let q := j.first / j.block + j.copied
    if landWaits ctx.decl c h q then { core := c } else
    let e := slotWrite ctx h q (j.narrow.getD j.copied 0) c
    let e := if kCfmt j.smp.control = 3 then e.bind (writeScales ctx j) else e
    e.bind (fun c =>
      let c := { c with upd := { c.upd with cnt := { c.upd.cnt with copyRows := bump48 c.upd.cnt.copyRows 1 } } }
      { core := sweepJobs (setJob i { j with copied := j.copied + 1 } c) })

/-- UPDATE_COPY_WRITE. -/
def updateCopyWrite (s : Nat) (m : Mod) : Mod :=
  if (m.region (siteRegion s)).clocked then m.applyEff s (copyStep (m.portCtx s) (m.core s)) else m

/-- The header of a replica message (R454). -/
def replicaHdr (ctx : Ctx) (j : UpdJob) : W128 :=
  let t := if j.replicas = 0 then j.smp.tmpl0 else j.smp.tmpl1
  let n := j.rows.length / j.block
  stampHdr ctx (put (put (put t 63 57 n) 56 46 ((hdrOfs t + j.first / j.block) % 2048)) 45 40 0)

/-- One replica message entered in the transmit list, or refused by the checks of Table 9.2 (R454). Its error record holds
the core's position (log entry 32). -/
def replicaStep (ctx : Ctx) (c : Core) : Eff :=
  match findJob (fun j => j.fin && j.copied? && decide (j.replicas < j.nrep)) c with
  | none => { core := c }
  | some (i, j) =>
    if c.ni.tx.length ≥ 16 then { core := c } else
    let h := replicaHdr ctx j
    let cause := (sendCheck ctx c false false (put h 63 57 (if hdrLen h = 0 then 0 else 1)) 0).1
    let c := setJob i { j with replicas := j.replicas + 1 } c
    if cause ≠ 0 then recMsgErr (sweepJobs c) ctx cause 0 c.pos
    else
      let m : TxMsg := { hdr := h, row := none, rows := j.narrow, handle := none, addr := 0 }
      let c := { c with upd := { c.upd with cnt := { c.upd.cnt with copyRows := bump48 c.upd.cnt.copyRows (hdrLen h) } } }
      { core := sweepJobs { c with ni := { c.ni with tx := c.ni.tx ++ [m] } } }

/-- UPDATE_REPLICA_SEND. -/
def updateReplicaSend (s : Nat) (m : Mod) : Mod :=
  if (m.region (siteRegion s)).clocked then m.applyEff s (replicaStep (m.portCtx s) (m.core s)) else m

/-- ACKW raised by a finished message's LEN, or by 1 for a UPD (R445). -/
def ackStep (ctx : Ctx) (c : Core) : Eff :=
  match findJob (fun j => j.fin && j.copied? && kAcken j.smp.control && !j.acked) c with
  | none => { core := c }
  | some (i, j) =>
    let e := clampAdd ctx (kAckw j.smp.control) (if j.upd then 1 else (j.rows.length : Nat)) 1 false ctx.decl.part ctx.core c
    e.bind (fun c => { core := sweepJobs (setJob i { j with acked := true } c) })

/-- UPDATE_ACK. -/
def updateAck (s : Nat) (m : Mod) : Mod :=
  if (m.region (siteRegion s)).clocked then m.applyEff s (ackStep (m.portCtx s) (m.core s)) else m

/-! ### The commands -/

/-- UPDATE_ROW. -/
def execUpdateRow (site : Fin 25600) (err : SramErr) (s : State) : Host.Outcome State Fault Refusal :=
  s.runIf (Instr.wf (.updateRow site err)) (updateRow site err)

/-- UPDATE_COPY_WRITE. -/
def execUpdateCopyWrite (site : Fin 25600) (s : State) : Host.Outcome State Fault Refusal :=
  s.runIf (Instr.wf (.updateCopyWrite site)) (updateCopyWrite site)

/-- UPDATE_REPLICA_SEND. -/
def execUpdateReplicaSend (site : Fin 25600) (s : State) : Host.Outcome State Fault Refusal :=
  s.runIf (Instr.wf (.updateReplicaSend site)) (updateReplicaSend site)

/-- UPDATE_ACK. -/
def execUpdateAck (site : Fin 25600) (s : State) : Host.Outcome State Fault Refusal :=
  s.runIf (Instr.wf (.updateAck site)) (updateAck site)

end Sys2Proof.Machine
end

