-- ==== Sys2Proof/Machine/Dispatch.lean ====
section
/-!
DEFINITION. Machine/Dispatch.lean: what each command does, one arm per constructor of Instr.
-/

namespace Sys2Proof.Machine

open Sys2Proof

def exec (i : Instr) (s : State) : Host.Outcome State Fault Refusal :=
  match i with
  | .hello q => Sys2Proof.Machine.execHello q s
  | .openSession q => Sys2Proof.Machine.execOpenSession q s
  | .closeSession q => Sys2Proof.Machine.execCloseSession q s
  | .installOwner q => Sys2Proof.Machine.execInstallOwner q s
  | .ownerProveNonce q => Sys2Proof.Machine.execOwnerProveNonce q s
  | .ownerProveProof q => Sys2Proof.Machine.execOwnerProveProof q s
  | .supplyPufHelper q => Sys2Proof.Machine.execSupplyPufHelper q s
  | .pufRegenerationDone mb digest => Sys2Proof.Machine.execPufRegenerationDone mb digest s
  | .supplyIdentityCert q => Sys2Proof.Machine.execSupplyIdentityCert q s
  | .getDescriptor q => Sys2Proof.Machine.execGetDescriptor q s
  | .getTopology q => Sys2Proof.Machine.execGetTopology q s
  | .setPartition q => Sys2Proof.Machine.execSetPartition q s
  | .linkDisable q => Sys2Proof.Machine.execLinkDisable q s
  | .linkEnable q => Sys2Proof.Machine.execLinkEnable q s
  | .linkChallenge q => Sys2Proof.Machine.execLinkChallenge q s
  | .linkChallengeDone mb => Sys2Proof.Machine.execLinkChallengeDone mb s
  | .requireVerified q => Sys2Proof.Machine.execRequireVerified q s
  | .trustAnchor q => Sys2Proof.Machine.execTrustAnchor q s
  | .stockAlloc q => Sys2Proof.Machine.execStockAlloc q s
  | .stockFree q => Sys2Proof.Machine.execStockFree q s
  | .stockMapHost q => Sys2Proof.Machine.execStockMapHost q s
  | .stockPin q => Sys2Proof.Machine.execStockPin q s
  | .stockUnpin q => Sys2Proof.Machine.execStockUnpin q s
  | .stockPinDone mb => Sys2Proof.Machine.execStockPinDone mb s
  | .stockFill q => Sys2Proof.Machine.execStockFill q s
  | .stockFillDone mb => Sys2Proof.Machine.execStockFillDone mb s
  | .wheelSet q => Sys2Proof.Machine.execWheelSet q s
  | .programLoad q => Sys2Proof.Machine.execProgramLoad q s
  | .programLoadDone mb => Sys2Proof.Machine.execProgramLoadDone mb s
  | .programUnload q => Sys2Proof.Machine.execProgramUnload q s
  | .gangPlace q => Sys2Proof.Machine.execGangPlace q s
  | .gangPlaceRelease q => Sys2Proof.Machine.execGangPlaceRelease q s
  | .gangStart q => Sys2Proof.Machine.execGangStart q s
  | .gangStop q => Sys2Proof.Machine.execGangStop q s
  | .gangPreempt q => Sys2Proof.Machine.execGangPreempt q s
  | .gangResume q => Sys2Proof.Machine.execGangResume q s
  | .gangResumeDone mb => Sys2Proof.Machine.execGangResumeDone mb s
  | .gangStatus q => Sys2Proof.Machine.execGangStatus q s
  | .clampRead q => Sys2Proof.Machine.execClampRead q s
  | .clampSetWord q => Sys2Proof.Machine.execClampSetWord q s
  | .clampSetRing q => Sys2Proof.Machine.execClampSetRing q s
  | .countersRead q => Sys2Proof.Machine.execCountersRead q s
  | .traceConfig q => Sys2Proof.Machine.execTraceConfig q s
  | .digestRead q => Sys2Proof.Machine.execDigestRead q s
  | .corePeek q => Sys2Proof.Machine.execCorePeek q s
  | .stepStage q => Sys2Proof.Machine.execStepStage q s
  | .modeCommit q => Sys2Proof.Machine.execModeCommit q s
  | .modeCommitWithdraw q => Sys2Proof.Machine.execModeCommitWithdraw q s
  | .envelopeSet q => Sys2Proof.Machine.execEnvelopeSet q s
  | .ceilingSet q => Sys2Proof.Machine.execCeilingSet q s
  | .telemetryRead q => Sys2Proof.Machine.execTelemetryRead q s
  | .eventAck q => Sys2Proof.Machine.execEventAck q s
  | .logRead q => Sys2Proof.Machine.execLogRead q s
  | .fenceCore q => Sys2Proof.Machine.execFenceCore q s
  | .safeHoldClear q => Sys2Proof.Machine.execSafeHoldClear q s
  | .eventPolicy q => Sys2Proof.Machine.execEventPolicy q s
  | .progressMarks q => Sys2Proof.Machine.execProgressMarks q s
  | .syncIo q => Sys2Proof.Machine.execSyncIo q s
  | .bar2Window q => Sys2Proof.Machine.execBar2Window q s
  | .getVersion via => Sys2Proof.Machine.execGetVersion via s
  | .getCapabilities via => Sys2Proof.Machine.execGetCapabilities via s
  | .negotiateAlgorithms via => Sys2Proof.Machine.execNegotiateAlgorithms via s
  | .getDigests via => Sys2Proof.Machine.execGetDigests via s
  | .getCertificate via offset len => Sys2Proof.Machine.execGetCertificate via offset len s
  | .challenge via nonce => Sys2Proof.Machine.execChallenge via nonce s
  | .getMeasurements via nonce signed index => Sys2Proof.Machine.execGetMeasurements via nonce signed index s
  | .spdmUnsupportedRequest via => Sys2Proof.Machine.execSpdmUnsupportedRequest via s
  | .setEndpointId eid => Sys2Proof.Machine.execSetEndpointId eid s
  | .registerWrite offset bytes => Sys2Proof.Machine.execRegisterWrite offset bytes s
  | .bootGo value => Sys2Proof.Machine.execBootGo value s
  | .bar2Read offset len => Sys2Proof.Machine.execBar2Read offset len s
  | .bar2Write offset bytes => Sys2Proof.Machine.execBar2Write offset bytes s
  | .bar2AccessComplete => Sys2Proof.Machine.execBar2AccessComplete s
  | .bundleIssue r err => Sys2Proof.Machine.execBundleIssue r err s
  | .checkStage r => Sys2Proof.Machine.execCheckStage r s
  | .gangHoldRelease r => Sys2Proof.Machine.execGangHoldRelease r s
  | .resultVisible site => Sys2Proof.Machine.execResultVisible site s
  | .loopSet r scond sarg target => Sys2Proof.Machine.execLoopSet r scond sarg target s
  | .loop r scond sarg target => Sys2Proof.Machine.execLoop r scond sarg target s
  | .br r scond sarg target => Sys2Proof.Machine.execBr r scond sarg target s
  | .kerf r scond sarg target => Sys2Proof.Machine.execKerf r scond sarg target s
  | .kerfRelease r energy => Sys2Proof.Machine.execKerfRelease r energy s
  | .preemptPoint r scond sarg target => Sys2Proof.Machine.execPreemptPoint r scond sarg target s
  | .preemptSave g0 => Sys2Proof.Machine.execPreemptSave g0 s
  | .launch r scond sarg target => Sys2Proof.Machine.execLaunch r scond sarg target s
  | .launchRelease r => Sys2Proof.Machine.execLaunchRelease r s
  | .gangFirstRelease r => Sys2Proof.Machine.execGangFirstRelease r s
  | .stock r scond sarg target => Sys2Proof.Machine.execStock r scond sarg target s
  | .curve r scond sarg target => Sys2Proof.Machine.execCurve r scond sarg target s
  | .step r scond sarg target => Sys2Proof.Machine.execStep r scond sarg target s
  | .endOp r scond sarg target => Sys2Proof.Machine.execEndOp r scond sarg target s
  | .gangEnd r => Sys2Proof.Machine.execGangEnd r s
  | .gangSettled r => Sys2Proof.Machine.execGangSettled r s
  | .rd op => Sys2Proof.Machine.execRd op s
  | .wload op => Sys2Proof.Machine.execWload op s
  | .wloadt op => Sys2Proof.Machine.execWloadt op s
  | .wloadS op => Sys2Proof.Machine.execWloadS op s
  | .shadowComplete site => Sys2Proof.Machine.execShadowComplete site s
  | .wswap op => Sys2Proof.Machine.execWswap op s
  | .mmul op => Sys2Proof.Machine.execMmul op s
  | .acc op => Sys2Proof.Machine.execAcc op s
  | .accz op => Sys2Proof.Machine.execAccz op s
  | .accDrain op => Sys2Proof.Machine.execAccDrain op s
  | .accDrainz op => Sys2Proof.Machine.execAccDrainz op s
  | .acczDrain op => Sys2Proof.Machine.execAcczDrain op s
  | .acczDrainz op => Sys2Proof.Machine.execAcczDrainz op s
  | .accRowWritten site => Sys2Proof.Machine.execAccRowWritten site s
  | .drain op => Sys2Proof.Machine.execDrain op s
  | .drainz op => Sys2Proof.Machine.execDrainz op s
  | .vadd op => Sys2Proof.Machine.execVadd op s
  | .vsub op => Sys2Proof.Machine.execVsub op s
  | .vmul op => Sys2Proof.Machine.execVmul op s
  | .vfma op => Sys2Proof.Machine.execVfma op s
  | .vmax op => Sys2Proof.Machine.execVmax op s
  | .vmin op => Sys2Proof.Machine.execVmin op s
  | .vcmp op => Sys2Proof.Machine.execVcmp op s
  | .vsel op => Sys2Proof.Machine.execVsel op s
  | .vcvt op => Sys2Proof.Machine.execVcvt op s
  | .vcvtMx op => Sys2Proof.Machine.execVcvtMx op s
  | .vexp2 op => Sys2Proof.Machine.execVexp2 op s
  | .vlog2 op => Sys2Proof.Machine.execVlog2 op s
  | .vrsq op => Sys2Proof.Machine.execVrsq op s
  | .vrcp op => Sys2Proof.Machine.execVrcp op s
  | .vtanh op => Sys2Proof.Machine.execVtanh op s
  | .vsig op => Sys2Proof.Machine.execVsig op s
  | .vscan op => Sys2Proof.Machine.execVscan op s
  | .vsegscan op => Sys2Proof.Machine.execVsegscan op s
  | .vargmax op => Sys2Proof.Machine.execVargmax op s
  | .vargmin op => Sys2Proof.Machine.execVargmin op s
  | .vmaxr op => Sys2Proof.Machine.execVmaxr op s
  | .vcompact op => Sys2Proof.Machine.execVcompact op s
  | .vpermRot op => Sys2Proof.Machine.execVpermRot op s
  | .vpermRev op => Sys2Proof.Machine.execVpermRev op s
  | .vpermXchg op => Sys2Proof.Machine.execVpermXchg op s
  | .vpermBcast op => Sys2Proof.Machine.execVpermBcast op s
  | .vpermZip op => Sys2Proof.Machine.execVpermZip op s
  | .vpermUnzip op => Sys2Proof.Machine.execVpermUnzip op s
  | .vpermFunnel op => Sys2Proof.Machine.execVpermFunnel op s
  | .vpermFunneld op => Sys2Proof.Machine.execVpermFunneld op s
  | .vsrGet op => Sys2Proof.Machine.execVsrGet op s
  | .vsrPut op => Sys2Proof.Machine.execVsrPut op s
  | .vsrSum op => Sys2Proof.Machine.execVsrSum op s
  | .vsrMax op => Sys2Proof.Machine.execVsrMax op s
  | .vsrMin op => Sys2Proof.Machine.execVsrMin op s
  | .wr op => Sys2Proof.Machine.execWr op s
  | .send op => Sys2Proof.Machine.execSend op s
  | .dowel op => Sys2Proof.Machine.execDowel op s
  | .recv op => Sys2Proof.Machine.execRecv op s
  | .wopen op => Sys2Proof.Machine.execWopen op s
  | .wclose op => Sys2Proof.Machine.execWclose op s
  | .upd op => Sys2Proof.Machine.execUpd op s
  | .csetCounter op => Sys2Proof.Machine.execCsetCounter op s
  | .csetComparator op => Sys2Proof.Machine.execCsetComparator op s
  | .cinc op => Sys2Proof.Machine.execCinc op s
  | .cloadCounterFromQueue op => Sys2Proof.Machine.execCloadCounterFromQueue op s
  | .cloadCounterFromWord op => Sys2Proof.Machine.execCloadCounterFromWord op s
  | .cloadPredicates op => Sys2Proof.Machine.execCloadPredicates op s
  | .cloadPushWord op => Sys2Proof.Machine.execCloadPushWord op s
  | .cloadPushHandle op => Sys2Proof.Machine.execCloadPushHandle op s
  | .cloadPushDescriptor op => Sys2Proof.Machine.execCloadPushDescriptor op s
  | .cloadWriteWord op => Sys2Proof.Machine.execCloadWriteWord op s
  | .cmpCounter op => Sys2Proof.Machine.execCmpCounter op s
  | .cmpPredicate op => Sys2Proof.Machine.execCmpPredicate op s
  | .waitwMonitor op => Sys2Proof.Machine.execWaitwMonitor op s
  | .waitwPoll op => Sys2Proof.Machine.execWaitwPoll op s
  | .incw op => Sys2Proof.Machine.execIncw op s
  | .decw op => Sys2Proof.Machine.execDecw op s
  | .waitl op => Sys2Proof.Machine.execWaitl op s
  | .descriptorTake r => Sys2Proof.Machine.execDescriptorTake r s
  | .transferIssue r => Sys2Proof.Machine.execTransferIssue r s
  | .wheelPeriod iface => Sys2Proof.Machine.execWheelPeriod iface s
  | .chunkAccess iface retries fail => Sys2Proof.Machine.execChunkAccess iface retries fail s
  | .pageService session page => Sys2Proof.Machine.execPageService session page s
  | .landingRow site parity => Sys2Proof.Machine.execLandingRow site parity s
  | .landingPortService site => Sys2Proof.Machine.execLandingPortService site s
  | .storeRowRead r err => Sys2Proof.Machine.execStoreRowRead r err s
  | .tokenPlaced r => Sys2Proof.Machine.execTokenPlaced r s
  | .messageTransmit site err => Sys2Proof.Machine.execMessageTransmit site err s
  | .flitHop site out parity => Sys2Proof.Machine.execFlitHop site out parity s
  | .splineCross site out => Sys2Proof.Machine.execSplineCross site out s
  | .messageArrival site => Sys2Proof.Machine.execMessageArrival site s
  | .ringPlace site => Sys2Proof.Machine.execRingPlace site s
  | .recvService site err => Sys2Proof.Machine.execRecvService site err s
  | .updateRow site err => Sys2Proof.Machine.execUpdateRow site err s
  | .updateCopyWrite site => Sys2Proof.Machine.execUpdateCopyWrite site s
  | .updateReplicaSend site => Sys2Proof.Machine.execUpdateReplicaSend site s
  | .updateAck site => Sys2Proof.Machine.execUpdateAck site s
  | .mark => Sys2Proof.Machine.execMark s
  | .syncIoEdge => Sys2Proof.Machine.execSyncIoEdge s
  | .changeAck r => Sys2Proof.Machine.execChangeAck r s
  | .modeApply r => Sys2Proof.Machine.execModeApply r s
  | .shim r gauge => Sys2Proof.Machine.execShim r gauge s
  | .emergencyStep r => Sys2Proof.Machine.execEmergencyStep r s
  | .progressStall r => Sys2Proof.Machine.execProgressStall r s
  | .heartbeatLost => Sys2Proof.Machine.execHeartbeatLost s
  | .telemetryRewrite x => Sys2Proof.Machine.execTelemetryRewrite x s
  | .sensorSample r temps amps => Sys2Proof.Machine.execSensorSample r temps amps s
  | .overCurrent r => Sys2Proof.Machine.execOverCurrent r s
  | .digestRecordWrite r => Sys2Proof.Machine.execDigestRecordWrite r s
  | .coreFault site cause => Sys2Proof.Machine.execCoreFault site cause s
  | .routerParityFailure site input => Sys2Proof.Machine.execRouterParityFailure site input s
  | .routerRemove site => Sys2Proof.Machine.execRouterRemove site s
  | .selfTestDone r cores routers => Sys2Proof.Machine.execSelfTestDone r cores routers s
  | .stockTrainingDone dev passed => Sys2Proof.Machine.execStockTrainingDone dev passed s
  | .portTrained p => Sys2Proof.Machine.execPortTrained p s
  | .portTrainingTimeout p => Sys2Proof.Machine.execPortTrainingTimeout p s
  | .helloSend p => Sys2Proof.Machine.execHelloSend p s
  | .helloReceived p hrec => Sys2Proof.Machine.execHelloReceived p hrec s
  | .portDown p cause => Sys2Proof.Machine.execPortDown p cause s
  | .flitReceive p flit fec => Sys2Proof.Machine.execFlitReceive p flit fec s
  | .retry p seq => Sys2Proof.Machine.execRetry p seq s
  | .markFlit p txStick echoTx echoRx arrival => Sys2Proof.Machine.execMarkFlit p txStick echoTx echoRx arrival s
  | .notice p n => Sys2Proof.Machine.execNotice p n s
  | .challengeReceived p nonce serial => Sys2Proof.Machine.execChallengeReceived p nonce serial s
  | .challengeRetry p => Sys2Proof.Machine.execChallengeRetry p s
  | .linkEgress p link => Sys2Proof.Machine.execLinkEgress p link s
  | .messageForward p => Sys2Proof.Machine.execMessageForward p s
  | .ingressInject p => Sys2Proof.Machine.execIngressInject p s
  | .plugInsert p watts => Sys2Proof.Machine.execPlugInsert p watts s
  | .regionSleep r => Sys2Proof.Machine.execRegionSleep r s
  | .regionOff r => Sys2Proof.Machine.execRegionOff r s
  | .regionWake r => Sys2Proof.Machine.execRegionWake r s
  | .pwrgdAuxAssert x8 smb => Sys2Proof.Machine.execPwrgdAuxAssert x8 smb s
  | .auxEntry external => Sys2Proof.Machine.execAuxEntry external s
  | .bootEntry => Sys2Proof.Machine.execBootEntry s
  | .verifyDone => Sys2Proof.Machine.execVerifyDone s
  | .tirixRunning => Sys2Proof.Machine.execTirixRunning s
  | .standbyEntry => Sys2Proof.Machine.execStandbyEntry s
  | .pwrgdMainAssert => Sys2Proof.Machine.execPwrgdMainAssert s
  | .pwrgdMainDeassert => Sys2Proof.Machine.execPwrgdMainDeassert s
  | .mainUndervoltage => Sys2Proof.Machine.execMainUndervoltage s
  | .precharge => Sys2Proof.Machine.execPrecharge s
  | .flowLoss => Sys2Proof.Machine.execFlowLoss s
  | .holdIn => Sys2Proof.Machine.execHoldIn s
  | .referenceLost => Sys2Proof.Machine.execReferenceLost s
  | .ctrlMemoryUncorrectable => Sys2Proof.Machine.execCtrlMemoryUncorrectable s
  | .safeHoldEntry cause => Sys2Proof.Machine.execSafeHoldEntry cause s
  | .auxPowerLoss => Sys2Proof.Machine.execAuxPowerLoss s
  | .perstN asserted clockA clockB => Sys2Proof.Machine.execPerstN asserted clockA clockB s
  | .narrowPageAreaSetUp east => Sys2Proof.Machine.execNarrowPageAreaSetUp east s
  | .mailboxUnknownCommand code q => Sys2Proof.Machine.execMailboxUnknownCommand code q s
  | .flowOkAssert => Sys2Proof.Machine.execFlowOkAssert s
  | .holdInRelease => Sys2Proof.Machine.execHoldInRelease s
  | .referenceRestored => Sys2Proof.Machine.execReferenceRestored s
  | .cycleEdge r gauge => Sys2Proof.Machine.execCycleEdge r gauge s
  | .referenceCycle sync => Sys2Proof.Machine.execReferenceCycle sync s

end Sys2Proof.Machine
end

