-- ==== Sys2Proof/Safety.lean ====
section
/-!
DEFINITION. Safety.lean: what a safe step is, and the conditions the statements name: when a slot executes, when a mailbox
request is accepted, and what an executed slot leaves beside its own effect.
-/

namespace Sys2Proof

open Sys2Proof.Machine

/-- A step that neither faults nor is refused. -/
def Safe (s : State) : Prop := ∃ t, step s = .next t

/-- Every waiting command spells its row of the table. -/
def QueueWf (s : State) : Bool := s.pending.all Instr.wf

/-- The slot operation a command carries, for the rows that are one slot of one bundle. -/
def slotRow : Instr → Option SlotOp
  | .rd op | .wload op | .wloadt op | .wloadS op | .wswap op | .mmul op | .acc op | .accz op | .accDrain op | .accDrainz op
  | .acczDrain op | .acczDrainz op | .drain op | .drainz op | .vadd op | .vsub op | .vmul op | .vfma op | .vmax op | .vmin op
  | .vcmp op | .vsel op | .vcvt op | .vcvtMx op | .vexp2 op | .vlog2 op | .vrsq op | .vrcp op | .vtanh op | .vsig op
  | .vscan op | .vsegscan op | .vargmax op | .vargmin op | .vmaxr op | .vcompact op | .vpermRot op | .vpermRev op
  | .vpermXchg op | .vpermBcast op | .vpermZip op | .vpermUnzip op | .vpermFunnel op | .vpermFunneld op | .vsrGet op
  | .vsrPut op | .vsrSum op | .vsrMax op | .vsrMin op | .wr op | .send op | .dowel op | .recv op | .wopen op | .wclose op
  | .upd op | .csetCounter op | .csetComparator op | .cinc op | .cloadCounterFromQueue op | .cloadCounterFromWord op
  | .cloadPredicates op | .cloadPushWord op | .cloadPushHandle op | .cloadPushDescriptor op | .cloadWriteWord op
  | .cmpCounter op | .cmpPredicate op | .waitwMonitor op | .waitwPoll op | .incw op | .decw op | .waitl op => some op
  | _ => none

/-- The contents of a slot's core as its bundle finds them: the words that CURVE and STEP have written by then in place. -/
def slotCore (m : Mod) (op : SlotOp) : Core := settleWords (m.core op.site) op.pos.toNat

/-- A core of a running gang stands at a slot's site and gives the slot its surroundings. -/
def SlotAround (m : Mod) (op : SlotOp) (ctx : Ctx) : Prop :=
  ∃ x, m.siteCtx op.site op.pos.toNat op.addr.toNat = some x ∧
    ctx = bundleCtx (m.region (siteRegion op.site)) (slotCore m op) op x

/-- A slot executes: a core of a running gang stands at its site, its predicate is true, no condition of Table 3.4a is unmet,
and no memory it reads has an uncorrectable error. -/
structure SlotRuns (m : Mod) (op : SlotOp) (ctx : Ctx) : Prop where
  around : SlotAround m op ctx
  enabled : slotEnabled (slotCore m op) op.unit.val ctx.pos op.word = true
  met : slotHolds ctx true op.unit.val op.rider op.word (slotCore m op) = []
  sound : op.err ≠ .uncorrectable

/-- A core whose bundle's position is passed, which every executed slot but RA, RB and WR leaves. -/
def passed (ctx : Ctx) (c : Core) : Core := { c with pos := max c.pos (ctx.pos + 1) }

/-- A core with the corrected words of a memory read counted (R283). -/
def corrected (err : SramErr) (c : Core) : Core :=
  match err with
  | .corrected n => { c with sp := { c.sp with cnt := { c.sp.cnt with correctedWords := bump48 c.sp.cnt.correctedWords n.toNat } } }
  | _ => c

/-- A command completes at a site: of the whole module only that site's core changes, and it becomes `c`. -/
def SlotLeaves (i : Instr) (s : State) (op : SlotOp) (c : Core) : Prop :=
  exec i s = .next { s with m := s.m.setCore op.site c }

/-- A CC command completes: of the whole module only its core changes, and of that core only what `others` changes, the register
values left by its position, which become `r`, and the position passed. -/
def CcCompletes (i : Instr) (s : State) (op : SlotOp) (ctx : Ctx) (others : Core → Core) (r : CcRegs) : Prop :=
  ∃ c', SlotLeaves i s op c' ∧ regsAt c'.cc.hist ctx.pos = r ∧
    c' = passed ctx (let x := others (slotCore s.m op); { x with cc := { x.cc with hist := c'.cc.hist } })

/-- The 256 lanes that input `k` (A, B, C) of a vector slot gives in its core. -/
def vecIn (s : State) (op : SlotOp) (ctx : Ctx) (k : Nat) : Vec :=
  let c := slotCore s.m op
  let x := vslot op.word
  ((vsrcs x).map (srcVec c op.unit.val (tileRow (slotRegs c op.unit.val ctx.pos) x))).getD k 0

/-- A vector command completes with a result: of the whole module only its core changes, and there what the result's delivery and
the passing of the position change. -/
def VecCompletes (i : Instr) (s : State) (op : SlotOp) (ctx : Ctx) (out : VOut) : Prop :=
  SlotLeaves i s op (passed ctx (vDeliver ctx op out (slotCore s.m op)))

/-- A vector command completes with one vector whose lane `j` is `f j`; each flag is set when some lane `j` sets it in `fl j`; no
chain register, pack buffer or conversion count changes. -/
def LaneResult (i : Instr) (s : State) (op : SlotOp) (ctx : Ctx) (f : Nat → W32) (fl : Nat → VFlags) : Prop :=
  ∃ v flags, VecCompletes i s op ctx { res := some v, flags := flags } ∧ (∀ j < 256, lane v j = f j) ∧
    (flags.nan = true ↔ ∃ j < 256, (fl j).nan = true) ∧ (flags.inf = true ↔ ∃ j < 256, (fl j).inf = true) ∧
    (flags.cvt = true ↔ ∃ j < 256, (fl j).cvt = true) ∧ (flags.wrap = true ↔ ∃ j < 256, (fl j).wrap = true) ∧
    (flags.sat = true ↔ ∃ j < 256, (fl j).sat = true)

/-- A core with one MESSAGE_ERROR counted and, when it is the first, recorded for a bundle at a position (Table 9.10). -/
def msgCounted (cause pos : Nat) (c : Core) : Core :=
  { c with ni := { c.ni with cnt := { c.ni.cnt with
      messageErrors := c.ni.cnt.messageErrors + 1
      firstMsgError := if bit c.ni.cnt.firstMsgError 31 then c.ni.cnt.firstMsgError
        else BitVec.ofNat 32 (2 ^ 31 + cause * 2 ^ 27 + pos % 2 ^ 24) } } }

/-- A command completes by a MESSAGE_ERROR: its core becomes `y` with the error counted and the position passed, and the event with
its cause is counted in the region's mark. -/
def MsgRefused (i : Instr) (s : State) (op : SlotOp) (ctx : Ctx) (y : Core) (cause : Nat) : Prop :=
  let e : Eff := { core := passed ctx (msgCounted cause ctx.pos y), ev := [{ code := 7, d0 := cause, d := ctx.core }] }
  exec i s = .next { s with m := s.m.applyEff op.site e }

/-- A command completes at a region: of the whole module only that region's own record changes, as `f` changes it. -/
def RegionLeaves (i : Instr) (s : State) (r : Fin 25) (f : Region → Region) : Prop :=
  exec i s = .next { s with m := s.m.onRegion r f }

/-- The sequencer of a region may issue a bundle in this cycle: a gang runs there, clocked and with a valid view, with no change of
step under way, not stopped, not held, and with room among the issued bundles; and it waits for nothing that this cycle cannot
meet. -/
def MayIssue (g : Region) : Prop :=
  g.run.running = true ∧ g.dom = .awake ∧ g.viewValid = true ∧ g.switching = 0 ∧ g.seq.stopping = none ∧ seqHeld g = false ∧
    (∀ b, g.seq.pipe.getLast? = some b → b.sched < g.cycle + 12) ∧
    (g.seq.wait = .none ∨ g.seq.wait = .ready ∨ g.seq.wait = .stock ∨ g.seq.wait = .digest)

/-- A command completes at a region and its cores: elsewhere nothing changes, and of the cores only what `keep` lets. -/
def RegionAndCores (s t : State) (r : Fin 25) (keep : Core → Core → Prop) : Prop :=
  t = { s with m := { s.m with regions := t.m.regions, cores := t.m.cores } } ∧
    (∀ k, k ≠ r.val → t.m.region k = s.m.region k) ∧ ∀ x, keep (s.m.core x) (t.m.core x)

/-- The rational number a finite exact value stands for; 0 for an infinity or NaN. -/
def fvRat : Fv → ℚ
  | .fin neg m e => (if neg then -1 else 1) * (m : ℚ) * (2 : ℚ) ^ e
  | _ => 0

/-! ### Requests on the command mailboxes -/

/-- A row of Table 14.7: the command's code, the mailboxes that may send it (kinds as HELLO.MBOX gives them: 0 no session, 1 owner,
2 ordinary, 3 debug, 4 pre-owner), the module states that permit it, its body size where that is fixed, the right of Table 14.6 that
it needs where the right alone decides, and whether every request is long-running. -/
structure CmdRow where
  code : Nat
  kinds : List Nat
  states : List ModState
  size : Option Nat := none
  right : Option Nat := none
  long : Bool := false
  deriving DecidableEq, Repr

/-- The row of Table 14.7 of a command that is a mailbox request, and the request. -/
def mailboxRow : Instr → Option (CmdRow × Req)
  | .hello q => some ({ code := 0x0001, kinds := [0, 1, 2, 3, 4], states := [.roughCut, .full, .standby, .safeHold], size := some 0x0 }, q)
  | .openSession q => some ({ code := 0x0002, kinds := [1], states := [.roughCut, .full, .standby], size := some 0x14 }, q)
  | .closeSession q => some ({ code := 0x0003, kinds := [1, 2, 3], states := [.roughCut, .full, .standby], size := some 0x1 }, q)
  | .installOwner q => some ({ code := 0x0004, kinds := [4], states := [.roughCut, .full, .standby], size := some 0x210 }, q)
  | .ownerProveNonce q => some ({ code := 0x0005, kinds := [4], states := [.roughCut, .full, .standby, .safeHold], size := some 0x1 }, q)
  | .ownerProveProof q => some ({ code := 0x0005, kinds := [4], states := [.roughCut, .full, .standby, .safeHold], size := some 0x208 }, q)
  | .supplyPufHelper q => some ({ code := 0x0006, kinds := [4, 1], states := [.roughCut, .full, .standby] }, q)
  | .supplyIdentityCert q => some ({ code := 0x0007, kinds := [4, 1], states := [.roughCut, .full, .standby] }, q)
  | .getDescriptor q => some ({ code := 0x0010, kinds := [4, 1, 2, 3], states := [.roughCut, .full, .standby, .safeHold], size := some 0x4 }, q)
  | .getTopology q => some ({ code := 0x0011, kinds := [4, 1, 2, 3], states := [.roughCut, .full, .standby], size := some 0x4 }, q)
  | .setPartition q => some ({ code := 0x0012, kinds := [1], states := [.roughCut, .full, .standby], size := some 0xC }, q)
  | .linkDisable q => some ({ code := 0x0013, kinds := [1], states := [.full, .standby], size := some 0x50 }, q)
  | .linkEnable q => some ({ code := 0x0013, kinds := [1], states := [.full, .standby], size := some 0x50 }, q)
  | .linkChallenge q => some ({ code := 0x0013, kinds := [1], states := [.full, .standby], size := some 0x50, long := true }, q)
  | .requireVerified q => some ({ code := 0x0013, kinds := [1], states := [.full, .standby], size := some 0x50 }, q)
  | .trustAnchor q => some ({ code := 0x0013, kinds := [1], states := [.full, .standby], size := some 0x50 }, q)
  | .stockAlloc q => some ({ code := 0x0020, kinds := [1, 2], states := [.roughCut, .full, .standby], size := some 0x14, right := some 1 }, q)
  | .stockFree q => some ({ code := 0x0021, kinds := [1, 2], states := [.roughCut, .full, .standby], size := some 0xC, right := some 1 }, q)
  | .stockMapHost q => some ({ code := 0x0022, kinds := [1, 2], states := [.full, .standby], right := some 1 }, q)
  | .stockPin q => some ({ code := 0x0023, kinds := [1, 2], states := [.full, .standby], size := some 0xD, right := some 1, long := true }, q)
  | .stockUnpin q => some ({ code := 0x0023, kinds := [1, 2], states := [.full, .standby], size := some 0xD, right := some 1, long := true }, q)
  | .stockFill q => some ({ code := 0x0024, kinds := [1, 2], states := [.roughCut, .full, .standby], size := some 0x20, right := some 1, long := true }, q)
  | .wheelSet q => some ({ code := 0x0025, kinds := [1], states := [.roughCut, .full, .standby] }, q)
  | .programLoad q => some ({ code := 0x0030, kinds := [1, 2], states := [.roughCut, .full, .standby], size := some 0xE, right := some 0, long := true }, q)
  | .programUnload q => some ({ code := 0x0031, kinds := [1, 2], states := [.roughCut, .full, .standby], size := some 0x2, right := some 0 }, q)
  | .gangPlace q => some ({ code := 0x0032, kinds := [1, 2], states := [.roughCut, .full, .standby], size := some 0x328, right := some 0 }, q)
  | .gangPlaceRelease q => some ({ code := 0x0032, kinds := [1, 2], states := [.roughCut, .full, .standby], size := some 0x328, right := some 0 }, q)
  | .gangStart q => some ({ code := 0x0033, kinds := [1, 2], states := [.roughCut, .full, .standby], size := some 0x34, right := some 0 }, q)
  | .gangStop q => some ({ code := 0x0034, kinds := [1, 2], states := [.roughCut, .full, .standby], size := some 0x2, right := some 0 }, q)
  | .gangPreempt q => some ({ code := 0x0035, kinds := [1, 2], states := [.roughCut, .full, .standby], size := some 0x2, right := some 0, long := true }, q)
  | .gangResume q => some ({ code := 0x0036, kinds := [1, 2], states := [.roughCut, .full, .standby], size := some 0x29, right := some 0, long := true }, q)
  | .gangStatus q => some ({ code := 0x0037, kinds := [1, 2, 3], states := [.roughCut, .full, .standby, .safeHold], size := some 0x4 }, q)
  | .clampRead q => some ({ code := 0x0040, kinds := [1, 2, 3], states := [.roughCut, .full, .standby, .safeHold], size := some 0x6 }, q)
  | .clampSetWord q => some ({ code := 0x0041, kinds := [3], states := [.roughCut, .full, .standby], size := some 0x10, right := some 4 }, q)
  | .clampSetRing q => some ({ code := 0x0041, kinds := [3], states := [.roughCut, .full, .standby], size := some 0x10, right := some 4 }, q)
  | .countersRead q => some ({ code := 0x0042, kinds := [1, 2, 3], states := [.roughCut, .full, .standby, .safeHold], size := some 0xA }, q)
  | .traceConfig q => some ({ code := 0x0043, kinds := [1, 2, 3], states := [.roughCut, .full, .standby], size := some 0x14, right := some 3 }, q)
  | .digestRead q => some ({ code := 0x0044, kinds := [1, 2, 3], states := [.roughCut, .full, .standby, .safeHold], size := some 0x2 }, q)
  | .corePeek q => some ({ code := 0x0045, kinds := [1, 2, 3], states := [.roughCut, .full, .standby, .safeHold], size := some 0xA }, q)
  | .stepStage q => some ({ code := 0x0050, kinds := [1], states := [.roughCut, .full, .standby], size := some 0x19 }, q)
  | .modeCommit q => some ({ code := 0x0051, kinds := [1], states := [.roughCut, .full, .standby], size := some 0xA }, q)
  | .modeCommitWithdraw q => some ({ code := 0x0051, kinds := [1], states := [.roughCut, .full, .standby], size := some 0xA }, q)
  | .envelopeSet q => some ({ code := 0x0052, kinds := [1], states := [.roughCut, .full, .standby], size := some 0x4 }, q)
  | .ceilingSet q => some ({ code := 0x0053, kinds := [1], states := [.roughCut, .full, .standby], size := some 0x1 }, q)
  | .telemetryRead q => some ({ code := 0x0054, kinds := [1, 2, 3], states := [.roughCut, .full, .standby, .safeHold], size := some 0x0 }, q)
  | .eventAck q => some ({ code := 0x0060, kinds := [1], states := [.roughCut, .full, .standby, .safeHold], size := some 0x4 }, q)
  | .logRead q => some ({ code := 0x0061, kinds := [1], states := [.roughCut, .full, .standby, .safeHold], size := some 0x6 }, q)
  | .fenceCore q => some ({ code := 0x0062, kinds := [1], states := [.roughCut, .full, .standby], size := some 0x3 }, q)
  | .safeHoldClear q => some ({ code := 0x0063, kinds := [1], states := [.safeHold], size := some 0x0 }, q)
  | .eventPolicy q => some ({ code := 0x0064, kinds := [1], states := [.roughCut, .full, .standby], size := some 0x10 }, q)
  | .progressMarks q => some ({ code := 0x0064, kinds := [1], states := [.roughCut, .full, .standby], size := some 0x10 }, q)
  | .syncIo q => some ({ code := 0x0064, kinds := [1], states := [.roughCut, .full, .standby], size := some 0x10 }, q)
  | .bar2Window q => some ({ code := 0x0064, kinds := [1], states := [.roughCut, .full, .standby], size := some 0x10 }, q)
  | .getVersion (.attest q) => some ({ code := 0x0008, kinds := [4, 1, 2, 3], states := [.roughCut, .full, .standby] }, q)
  | .getCapabilities (.attest q) => some ({ code := 0x0008, kinds := [4, 1, 2, 3], states := [.roughCut, .full, .standby] }, q)
  | .negotiateAlgorithms (.attest q) => some ({ code := 0x0008, kinds := [4, 1, 2, 3], states := [.roughCut, .full, .standby] }, q)
  | .getDigests (.attest q) => some ({ code := 0x0008, kinds := [4, 1, 2, 3], states := [.roughCut, .full, .standby] }, q)
  | .getCertificate (.attest q) _ _ => some ({ code := 0x0008, kinds := [4, 1, 2, 3], states := [.roughCut, .full, .standby] }, q)
  | .challenge (.attest q) _ => some ({ code := 0x0008, kinds := [4, 1, 2, 3], states := [.roughCut, .full, .standby] }, q)
  | .getMeasurements (.attest q) _ _ _ => some ({ code := 0x0008, kinds := [4, 1, 2, 3], states := [.roughCut, .full, .standby] }, q)
  | .spdmUnsupportedRequest (.attest q) => some ({ code := 0x0008, kinds := [4, 1, 2, 3], states := [.roughCut, .full, .standby] }, q)
  | _ => none

/-- A mailbox takes a request: the module is not OFF, the mailbox is one of MB0 to MB30, and in SAFE_HOLD it is MB0 (R508). -/
def Takes (m : Mod) (q : Req) : Prop := m.aon.state ≠ .off ∧ q.no ≤ 30 ∧ (m.aon.state = .safeHold → q.no = 0)

/-- Tirix serves requests: it runs, and safe-hold causes 0x07 and 0x08 have not stopped it. -/
def Serves (m : Mod) : Prop := m.aon.tirixRunning = true ∧ bit m.aon.heldCauses 7 = false ∧ bit m.aon.heldCauses 8 = false

/-- A request that passes the Session and State checks of Table 14.5. -/
structure Allowed (m : Mod) (i : Instr) (q : Req) : Prop where
  wf : Instr.wf i = true
  takes : Takes m q
  serves : Serves m
  row : ∃ x, mailboxRow i = some (x, q) ∧ m.kindOf q.no ∈ x.kinds ∧ m.aon.state ∈ x.states

/-- A mailbox once a request has been written to it: its header and body, and SEQ := ACK + 1 (R499). -/
def postedBox (code : Nat) (q : Req) (b : Mailbox) : Mailbox :=
  { b with seq := b.ack + 1, reqCommand := BitVec.ofNat 16 code, reqFlags := q.flags, reqLength := BitVec.ofNat 32 q.body.length
           reqTag := q.tag, reqBody := q.body ++ b.reqBody.drop q.body.length }

/-- A mailbox once that request has been answered: response header and body, STATUS, and ACK := SEQ (R500). -/
def answeredBox (code : Nat) (q : Req) (status : Nat) (body : List Byte) (b : Mailbox) : Mailbox :=
  { postedBox code q b with
    ack := b.ack + 1, status := BitVec.ofNat 32 status, rspCommand := BitVec.ofNat 16 code, rspStatus := BitVec.ofNat 16 status
    rspLength := BitVec.ofNat 32 body.length, rspTag := q.tag, rspBody := body }

/-- A module whose mailbox has the answer, and the MSI-X message sent that FLAGS.IRQ and QUIET ask for (R500, R507). -/
def answered (code : Nat) (q : Req) (status : Nat) (body : List Byte) (m : Mod) : Mod :=
  let x := m.onMailbox q.no (answeredBox code q status body)
  if (m.mailbox q.no).irq && !bit q.flags 0 then sendMsix q.no x else x

/-- A request is answered, and beside its mailbox and its MSI-X message the module becomes `m`. -/
def Served (i : Instr) (s : State) (q : Req) (code status : Nat) (body : List Byte) (m : Mod) : Prop :=
  exec i s = .next { s with m := answered code q status body m }

/-- A long-running request is answered ACCEPTED with LONG set for what it goes on doing, and beside that the module becomes `m` (R503). -/
def Begun (i : Instr) (s : State) (q : Req) (code : Nat) (kind : JobKind) (m : Mod) : Prop :=
  Served i s q code 1 [] { m with jobs := m.jobs ++ [
    { mb := q.no, session := s.m.sessId q.no, seq := (s.m.mailbox q.no).ack + 1, command := BitVec.ofNat 16 code, tag := q.tag
      quiet := bit q.flags 0, kind := kind }] }

/-- A step leaves a request answered with a status and a body in its mailbox. -/
def Answers (i : Instr) (s t : State) (q : Req) (code status : Nat) (body : List Byte) : Prop :=
  exec i s = .next t ∧ t.pending = s.pending ∧
    let b := t.m.mailbox q.no
    b.ack = (s.m.mailbox q.no).ack + 1 ∧ b.seq = b.ack ∧ b.status = BitVec.ofNat 32 status ∧ b.rspCommand = BitVec.ofNat 16 code ∧
    b.rspStatus = BitVec.ofNat 16 status ∧ b.rspLength = BitVec.ofNat 32 body.length ∧ b.rspTag = q.tag ∧ b.rspBody = body

/-- The first long-running command outstanding on a mailbox whose kind passes a test. -/
def Outstanding (m : Mod) (mb : Nat) (f : JobKind → Bool) (j : Job) : Prop :=
  m.jobs.find? (fun x => x.mb == mb && f x.kind) = some j

/-- A step ends a long-running command: it is no longer outstanding, and unless its session has closed its mailbox holds the completion
record (R503, R505). -/
def Ends (i : Instr) (s t : State) (j : Job) (status : Nat) (body : List Byte) : Prop :=
  exec i s = .next t ∧ t.pending = s.pending ∧
    t.m.jobs = s.m.jobs.filter (fun x => !(x.mb == j.mb && x.seq == j.seq && x.command == j.command)) ∧
    (j.orphan = true → t.m.mailboxes = s.m.mailboxes) ∧
    (j.orphan = false → t.m.mailbox j.mb = { s.m.mailbox j.mb with
      cSeq := j.seq, cCommand := j.command, cStatus := BitVec.ofNat 16 status, cLength := BitVec.ofNat 32 body.length, cTag := j.tag
      cBody := body })

end Sys2Proof
end

