-- ==== Sys2Proof/Certificates/Slice0/Obligations.lean ====
section
/-!
DEFINITION. Certificates/Slice0/Obligations.lean: the statements for the provers, by part of the block: what each command does
and leaves unchanged, and what every step keeps.
-/

open Sys2Proof Sys2Proof.Machine

/-! ### The CC -/

/-- CSET, CINC, CLOAD forms 0 to 2 and CMP (R91, R92, R95, Table 3.4, Table 6.13): each, when its slot executes, writes one counter, one
comparator, one predicate or all predicates at its position and changes nothing else of the module but a popped queue. An operation
reads registers as written by positions up to its own less one. CLOAD forms 3 to 6 (R265 to R267, R337, Table 6.13): a word is pushed,
visible in the next cycle, to a scalar queue, as a handle to a handle queue, or two words as a descriptor to a network queue; form 6
writes a scalar-queue entry into a word. A handle taken from a declared drawer's cursor word advances the cursor to the next slot, or
to slot 0 of the next generation; a cursor word written keeps bits [63:32] zero. -/
def Obligations.CcCommandsComplete : Prop :=
  (∀ (s : State) (op : SlotOp) (ctx : Ctx), SlotRuns s.m op ctx →
    let c := slotCore s.m op
    let w := op.word
    let now := regsAt c.cc.hist ctx.pos
    let old := regsAt c.cc.hist ((ctx.pos : Int) - 1)
    let a := (sel w 26 16 + cntVal old (sel w 15 12)) % 2048
    (Instr.wf (.csetCounter op) → CcCompletes (.csetCounter op) s op ctx id
      { now with ctr := now.ctr.setIfInBounds (sel w 32 30) (BitVec.ofNat 32 (sel w 29 0)) }) ∧
    (Instr.wf (.csetComparator op) → CcCompletes (.csetComparator op) s op ctx id
      { now with cmp := now.cmp.setIfInBounds (sel w 32 31)
                   { ref := BitVec.ofNat 32 (sel w 27 0), rel := Fin.ofNat 6 (sel w 30 28) } }) ∧
    (Instr.wf (.cinc op) → CcCompletes (.cinc op) s op ctx id
      { now with ctr := now.ctr.setIfInBounds (sel w 32 30)
                   (old.ctr[sel w 32 30]?.getD 0 + BitVec.ofInt 32 (sext 30 (sel w 29 0))) }) ∧
    (Instr.wf (.cloadCounterFromQueue op) →
      CcCompletes (.cloadCounterFromQueue op) s op ctx (fun c => c.pop (16 + sel w 11 9) (bit w 27))
        { now with ctr := now.ctr.setIfInBounds (sel w 30 28) ((c.head (16 + sel w 11 9)).setWidth 32) }) ∧
    (Instr.wf (.cloadCounterFromWord op) → CcCompletes (.cloadCounterFromWord op) s op ctx id
      { now with ctr := now.ctr.setIfInBounds (sel w 30 28) ((c.cc.words.get a).setWidth 32) }) ∧
    (Instr.wf (.cloadPredicates op) →
      CcCompletes (.cloadPredicates op) s op ctx (fun c => c.pop (16 + sel w 11 9) (bit w 27))
        { now with pred := (c.head (16 + sel w 11 9)).setWidth 8 }) ∧
    (Instr.wf (.cmpCounter op) → CcCompletes (.cmpCounter op) s op ctx id
      { now with pred := put now.pred (sel w 32 30) (sel w 32 30) (b2n
          (let k := old.cmp[sel w 26 25]?.getD {}
           let x := (old.ctr[sel w 29 27]?.getD 0).toNat
           if k.rel = 0 then x == k.ref.toNat else if k.rel = 1 then x != k.ref.toNat else if k.rel = 2 then decide (x < k.ref.toNat)
           else if k.rel = 3 then decide (x ≤ k.ref.toNat) else if k.rel = 4 then decide (k.ref.toNat < x)
           else decide (k.ref.toNat ≤ x))) }) ∧
    (Instr.wf (.cmpPredicate op) → CcCompletes (.cmpPredicate op) s op ctx id
      { now with pred := put now.pred (sel w 32 30) (sel w 32 30) (b2n
          (let x := bit old.pred (sel w 27 25)
           let y := bit old.pred (sel w 24 22)
           if sel w 29 28 = 0 then x && y else if sel w 29 28 = 1 then x || y else x && !y)) })) ∧
  (∀ (s : State) (op : SlotOp) (ctx : Ctx), SlotRuns s.m op ctx →
    let c := slotCore s.m op
    let w := op.word
    let a := (sel w 26 16 + cntVal (regsAt c.cc.hist ((ctx.pos : Int) - 1)) (sel w 15 12)) % 2048
    let cursor := if 0x780 ≤ a ∧ a < 0x7C0 then Tab.find ctx.decl.drawers (a - 0x780) else none
    let h : W32 := (c.cc.words.get a).setWidth 32
    let pushed (q : Nat) (v : Vec) : Core := c.push q ctx.cycle 9 (ctx.cycle + 1) v
    (Instr.wf (.cloadPushWord op) →
      SlotLeaves (.cloadPushWord op) s op (passed ctx (pushed (16 + sel w 30 28) ((c.cc.words.get a).setWidth 8192)))) ∧
    (Instr.wf (.cloadPushHandle op) → cursor = none →
      SlotLeaves (.cloadPushHandle op) s op (passed ctx (pushed (28 + sel w 29 28) (h.setWidth 8192)))) ∧
    (∀ d, Instr.wf (.cloadPushHandle op) → cursor = some d →
      SlotLeaves (.cloadPushHandle op) s op (passed ctx
        (let p := pushed (28 + sel w 29 28) (h.setWidth 8192)
         { p with cc := { p.cc with words := p.cc.words.set a (BitVec.setWidth 64
             (if hSlot h + 1 < d.slotCount then mkHandle (hDrawer h) (hSlot h + 1) (hGen h)
              else mkHandle (hDrawer h) 0 (hGen h + 1))) } }))) ∧
    (Instr.wf (.cloadPushDescriptor op) →
      SlotLeaves (.cloadPushDescriptor op) s op (passed ctx (pushed (24 + sel w 29 28)
        (BitVec.ofNat 8192 ((c.cc.words.get a).toNat + (c.cc.words.get ((a + 1) % 2048)).toNat * 2 ^ 64))))) ∧
    (Instr.wf (.cloadWriteWord op) →
      SlotLeaves (.cloadWriteWord op) s op (passed ctx (writeWord (c.pop (16 + sel w 11 9) (bit w 27)) ctx.pos a
        (if cursor.isSome then (c.head (16 + sel w 11 9)).setWidth 64 &&& 0xFFFFFFFF#64 else (c.head (16 + sel w 11 9)).setWidth 64)))))

/-- R95 and R96: what a CC register command writes at position n is read by CC operations from position n + 1 on and by every other slot's
predicate and address counters from position n + 7 on; up to position n + 6 those read what they read before. -/
def Obligations.CcWritesSeenNextByCcAndSevenLaterByOthers : Prop :=
  ∀ (s : State) (op : SlotOp) (ctx : Ctx) (i : Instr) (c' : Core), SlotRuns s.m op ctx → Instr.wf i →
    i ∈ [Instr.csetCounter op, .csetComparator op, .cinc op, .cloadCounterFromQueue op, .cloadCounterFromWord op,
         .cloadPredicates op, .cmpCounter op, .cmpPredicate op] →
    SlotLeaves i s op c' →
      slotRegs c' 9 (ctx.pos + 1) = regsAt c'.cc.hist ctx.pos ∧
      (∀ u, u ≠ 9 → slotRegs c' u (ctx.pos + 7) = regsAt c'.cc.hist ctx.pos) ∧
      (∀ u k, u ≠ 9 → k ≤ 6 → slotRegs c' u (ctx.pos + k) = slotRegs (slotCore s.m op) u (ctx.pos + k))

/-- WAITW, INCW and DECW on a word that is no cursor word (R364, R367, R368): INCW and DECW leave their change to the word's COUNT pending
for the next cycle. WAITW in poll form writes whether the comparison of COUNT holds. In monitor form, not waiting, it writes 0 where
the comparison holds and 1 otherwise; released from a wait, it clears ARMED and writes 1 when FAULT or ABANDONED released it. -/
def Obligations.ClampOperations : Prop :=
  ∀ (s : State) (op : SlotOp) (ctx : Ctx), SlotRuns s.m op ctx →
    let c := slotCore s.m op
    let w := op.word
    let old := regsAt c.cc.hist ((ctx.pos : Int) - 1)
    let now := regsAt c.cc.hist ctx.pos
    let a := (sel w 33 23 + cntVal old (sel w 22 19)) % 2048
    let b := (sel w 27 17 + cntVal old (sel w 16 13)) % 2048
    let v := if bit w 12 then (old.ctr[sel w 2 0]?.getD 0).toNat else sel w 11 0
    let n := (c.cc.words.get b).toNat % 2 ^ 48
    let holds := if sel w 33 32 = 0 then decide (v ≤ n) else if sel w 33 32 = 1 then n == v else n != v
    let writes (x : Bool) : CcRegs := { now with pred := put now.pred (sel w 30 28) (sel w 30 28) (b2n x) }
    (Instr.wf (.incw op) → isCursor ctx.decl a = false →
      SlotLeaves (.incw op) s op (passed ctx { c with ni := { c.ni with clampPend := c.ni.clampPend ++ [(a, (sel w 18 0 : Int))] } })) ∧
    (Instr.wf (.decw op) → isCursor ctx.decl a = false →
      SlotLeaves (.decw op) s op (passed ctx { c with ni := { c.ni with clampPend := c.ni.clampPend ++ [(a, -(sel w 18 0 : Int))] } })) ∧
    (Instr.wf (.waitwPoll op) → isCursor ctx.decl b = false → CcCompletes (.waitwPoll op) s op ctx id (writes holds)) ∧
    (Instr.wf (.waitwMonitor op) → isCursor ctx.decl b = false → c.ni.monitor = none →
      CcCompletes (.waitwMonitor op) s op ctx id (writes (!holds))) ∧
    (∀ mon, Instr.wf (.waitwMonitor op) → isCursor ctx.decl b = false → c.ni.monitor = some mon →
      CcCompletes (.waitwMonitor op) s op ctx
        (fun c => { c with cc := { c.cc with words := c.cc.words.set b (put (c.cc.words.get b) 60 60 0) }
                           ni := { c.ni with monitor := none } }) (writes (mon.released == some true)))

/-- R365: an update of a clamp word by a number z is applied when it leaves COUNT from 0 to 2^47 - 1, and changes only that word's COUNT
and shadow record; any other update is not applied, sets FAULT and leaves COUNT and every other bit of the word as they were, adds one
to CLAMP_FAULTS and is counted as CLAMP_FAULT (0x04) with the core and the word. -/
def Obligations.ClampCountStaysInRange : Prop :=
  ∀ (ctx : Ctx) (a : Nat) (z : Int) (kind : Nat) (remote : Bool) (part core : Nat) (c : Core),
    let e := clampAdd ctx a z kind remote part core c
    let old := c.cc.words.get a
    let new := e.core.cc.words.get a
    let n : Int := (clampCount old : Int) + z
    (0 ≤ n → n ≤ 2 ^ 47 - 1 →
      (clampCount new : Int) = n ∧ (∀ i, 48 ≤ i → bit new i = bit old i) ∧ e.ev = [] ∧ e.core.ni.cnt = c.ni.cnt) ∧
    (n < 0 ∨ 2 ^ 47 - 1 < n →
      clampCount new = clampCount old ∧ bit new 62 = true ∧ (∀ i, i ≠ 62 → bit new i = bit old i) ∧
      e.ev = [{ code := 4, d0 := ctx.core, d := a }] ∧ e.core.cc.shadow = c.cc.shadow ∧
      e.core.ni.cnt = { c.ni.cnt with clampFaults := c.ni.cnt.clampFaults + 1 }) ∧
    (∀ j, j ≠ a → e.core.cc.words.get j = c.cc.words.get j ∧ e.core.cc.shadow.get j = c.cc.shadow.get j) ∧
    e.core = { c with cc := { c.cc with words := e.core.cc.words, shadow := e.core.cc.shadow }
                      ni := { c.ni with cnt := e.core.ni.cnt, monitor := e.core.ni.monitor } }

/-- R268: on the cursor word of a declared drawer an INCW or DECW is not applied and a WAITW of either form does not wait and writes 1;
each adds one to CLAMP_FAULTS and is counted once more in the region's mark as CLAMP_FAULT (0x04) with the word's address. -/
def Obligations.CursorWordRefusesClampOperations : Prop :=
  ∀ (s : State) (op : SlotOp) (ctx : Ctx), SlotRuns s.m op ctx →
    let c := slotCore s.m op
    let w := op.word
    let old := regsAt c.cc.hist ((ctx.pos : Int) - 1)
    let now := regsAt c.cc.hist ctx.pos
    let a := (sel w 33 23 + cntVal old (sel w 22 19)) % 2048
    let b := (sel w 27 17 + cntVal old (sel w 16 13)) % 2048
    let refused : Core := { c with ni := { c.ni with cnt := { c.ni.cnt with clampFaults := c.ni.cnt.clampFaults + 1 } } }
    let after (word : Nat) (x : Core) : Mod := (s.m.setCore op.site x).onRegion (siteRegion op.site)
      (fun g => countEv g { code := 4, d0 := ctx.core, d := word })
    (∀ i ∈ [Instr.incw op, .decw op], Instr.wf i → isCursor ctx.decl a = true →
      exec i s = .next { s with m := after a (passed ctx refused) }) ∧
    (∀ i ∈ [Instr.waitwMonitor op, .waitwPoll op], Instr.wf i → isCursor ctx.decl b = true →
      (∀ x : Ctx, x.decl = ctx.decl → x.pos = ctx.pos → waitwHolds x w c = []) ∧
      ∃ x, exec i s = .next { s with m := after b x } ∧
        regsAt x.cc.hist ctx.pos = { now with pred := put now.pred (sel w 30 28) (sel w 30 28) 1 } ∧
        x = passed ctx { refused with cc := { c.cc with hist := x.cc.hist } })

/-- WAITL (R314 to R316, R269): the oldest token with the handle's key is consumed; the slot drains at the end of the cycle when its
drawer's DRAIN_READS is 0 and the handle's generation is the slot's; with EEN the predicate becomes whether the token's STATUS is non-
zero. -/
def Obligations.WaitlConsumesOldestToken : Prop :=
  ∀ (s : State) (op : SlotOp) (ctx : Ctx), SlotRuns s.m op ctx → Instr.wf (.waitl op) →
    let c := slotCore s.m op
    let w := op.word
    let q := 28 + sel w 33 32
    let h : W32 := (c.head q).setWidth 32
    let now := regsAt c.cc.hist ctx.pos
    ∃ before t rest, c.ni.tokens = before ++ t :: rest ∧ t.setWidth 32 = h ∧ (∀ x ∈ before, x.setWidth 32 ≠ h) ∧
      let taken : Core := { c.pop q (bit w 31) with ni := { c.ni with tokens := before ++ rest } }
      let drained : Core := match handleDecl ctx.decl h with
        | some d => if d.drainReads = 0 ∧ genDist c h = 0 then
            { taken with sp := { taken.sp with drains := taken.sp.drains ++
              [{ drawer := hDrawer h, slot := hSlot h, gen := (c.slot (hDrawer h) (hSlot h)).gen, off := 0 }] } }
          else taken
        | none => taken
      (bit w 30 = false → SlotLeaves (.waitl op) s op (passed ctx drained)) ∧
      (bit w 30 = true → CcCompletes (.waitl op) s op ctx (fun _ => drained)
        { now with pred := put now.pred (sel w 29 27) (sel w 29 27) (b2n (decide (sel t 111 108 ≠ 0))) })

/-! ### Scratchpad -/

/-- RD (R264, R271, R281, R283, Table 3.5, Table 6.5): an enabled RD whose row is readable pushes it, visible three cycles later, by
address or through a handle. Through a handle it counts one read of the slot, and the slot drains at the end of the cycle when that
read is the DRAIN_READSth. Where a check of R270 fails, or the row lies in a gated group, the entry pushed is zeros and the access is
counted. No row, no slot but the one read and no register changes. WR (R264, R270, R271, R273, R470, Table 6.7): an enabled WR pops or
peeks its entry and writes its one or two rows, readable two cycles later: by address, rows in order modulo 16,384; through a handle
that passes its checks for every row, the slot's rows, each marked written in the handle's generation. A row that qualifies is fed to
the core's digest. Through a handle that fails a check it writes nothing and counts the failure. Every other row, slot and register is
unchanged; the trace of a WR tap is all it may do beside. -/
def Obligations.ReadsAndWritesMoveRows : Prop :=
  (∀ (s : State) (op : SlotOp) (ctx : Ctx), SlotRuns s.m op ctx → Instr.wf (.rd op) →
    let c := slotCore s.m op
    let w := op.word
    let u := op.unit.val
    let k := cntVal (regsAt c.cc.hist ((ctx.pos : Int) - 7)) (sel w 15 12)
    let push (v : Row) (x : Core) : Core := x.push (sel w 33 31) ctx.cycle u (ctx.cycle + 3) (v.setWidth 8192)
    let served (bank : Nat) (x : Core) : Core := corrected op.err
      { x with sp := { x.sp with progBanks := bank :: x.sp.progBanks, early := x.sp.early ++ [(u, bank)] } }
    let row := (sel w 29 16 + k) % 16384
    let h : W32 := (c.head (28 + sel w 29 28)).setWidth 32
    let f := (sel w 26 16 + k) % 2048
    let p := c.pop (28 + sel w 29 28) (bit w 27)
    let slot := c.slot (hDrawer h) (hSlot h)
    let gatedAccess (x : Core) : Mod := (s.m.setCore op.site x).onRegion (siteRegion op.site) (fun g => countEv g { code := 5 })
    (bit w 30 = false → rowGated ctx.decl row = false →
      SlotLeaves (.rd op) s op (push (c.sp.rows.get row) (served (row / 512) c))) ∧
    (bit w 30 = false → rowGated ctx.decl row = true → ∃ x, exec (.rd op) s = .next { s with m := gatedAccess x } ∧
      x = { (push 0 c) with sp := { c.sp with cnt := x.sp.cnt, progBanks := x.sp.progBanks, early := x.sp.early } } ∧
      x.sp.cnt.gatedAccesses = c.sp.cnt.gatedAccesses + 1 ∧ bit x.sp.cnt.sticky 0 = true) ∧
    (∀ d r, bit w 30 = true → handleDecl ctx.decl h = some d → checkHandle ctx.decl c h f = (0, r) →
      let counted : Core := { p with sp := { p.sp with slots := Tab.set c.sp.slots (slotKey (hDrawer h) (hSlot h))
                                                          { slot with reads := slot.reads + 1 } } }
      let drained : Core := if d.drainReads ≠ 0 ∧ (slot.reads + 1).toNat = d.drainReads then
          { counted with sp := { counted.sp with drains := c.sp.drains ++
            [{ drawer := hDrawer h, slot := hSlot h, gen := slot.gen, off := 0 }] } } else counted
      r = (d.base + hSlot h * d.slotRows + f) % 16384 ∧
      SlotLeaves (.rd op) s op (push (c.sp.rows.get r) (served (r / 512) drained))) ∧
    (∀ n r, bit w 30 = true → checkHandle ctx.decl c h f = (n, r) → n ≠ 0 → ∃ x, SlotLeaves (.rd op) s op x ∧
      x = { (push 0 p) with sp := { c.sp with cnt := x.sp.cnt, early := x.sp.early } } ∧
      x.sp.cnt.handleErrors = c.sp.cnt.handleErrors + (if n = 2 then 0 else 1) ∧
      x.sp.cnt.offsetErrors = c.sp.cnt.offsetErrors + (if n = 2 then 1 else 0) ∧
      bit x.sp.cnt.sticky (if n = 2 then 2 else 1) = true)) ∧
  (∀ (s : State) (op : SlotOp) (ctx : Ctx), SlotRuns s.m op ctx → Instr.wf (.wr op) →
    let c := slotCore s.m op
    let w := op.word
    let k := cntVal (regsAt c.cc.hist ((ctx.pos : Int) - 7)) (sel w 13 10)
    let q := sel w 33 30
    let entry := c.head q
    let rows : List Row := if q < 8 then [entry.setWidth 4096] else [entry.extractLsb' 0 4096, entry.extractLsb' 4096 4096]
    let row := (sel w 27 14 + k) % 16384
    let h : W32 := (c.head (28 + sel w 27 26)).setWidth 32
    let f := (sel w 24 14 + k) % 2048
    let dflag := match Tab.find ctx.decl.drawers (hDrawer h) with
      | some d => d.digest
      | none => false
    let fed (x : Core) : Core := if ctx.digestOn && (bit w 9 || (bit w 28 && dflag)) then rows.foldl (fun x r => digestRow x ctx r) x else x
    let forwarded (x : Core) : Core := if bit w 8 then x.push (28 + sel w 7 6) ctx.cycle 7 (ctx.cycle + 2) (h.setWidth 8192) else x
    let leaves (x : Core) : Prop := exec (.wr op) s = .next { s with m := (traceWr op s.m).setCore op.site x }
    ((s.m.region (siteRegion op.site)).trace.on = false → traceWr op s.m = s.m) ∧
    (bit w 28 = false → (∀ i < rows.length, rowGated ctx.decl ((row + i) % 16384) = false) → ∃ x, leaves x ∧
      x = { (fed (c.pop q (bit w 29))) with sp := { c.sp with pend := x.sp.pend, progBanks := x.sp.progBanks, early := x.sp.early } } ∧
      x.sp.pend = c.sp.pend ++ rows.zipIdx.map (fun v =>
        { due := ctx.cycle + 2, row := (row + v.2) % 16384, val := some v.1, mark := none })) ∧
    (∀ r r', bit w 28 = true → checkHandle ctx.decl c h f = (0, r) → checkHandle ctx.decl c h (f + rows.length - 1) = (0, r') →
      ∃ x, leaves x ∧
      x = { (forwarded (fed ((c.pop q (bit w 29)).pop (28 + sel w 27 26) (bit w 25)))) with
            sp := { c.sp with pend := x.sp.pend, progBanks := x.sp.progBanks, early := x.sp.early } } ∧
      x.sp.pend = c.sp.pend ++ rows.zipIdx.map (fun v =>
        { due := ctx.cycle + 2, row := r + v.2, val := some v.1
          mark := some { drawer := hDrawer h, slot := hSlot h, gen := BitVec.ofNat 16 (hGen h), off := f + v.2 } })) ∧
    (bit w 28 = true → (checkHandle ctx.decl c h f).1 ≠ 0 ∨ (checkHandle ctx.decl c h (f + rows.length - 1)).1 ≠ 0 →
      ∃ x, leaves x ∧
      x = { (forwarded (fed ((c.pop q (bit w 29)).pop (28 + sel w 27 26) (bit w 25)))) with
            sp := { c.sp with cnt := x.sp.cnt, early := x.sp.early } } ∧
      x.sp.cnt.handleErrors + x.sp.cnt.offsetErrors = c.sp.cnt.handleErrors + c.sp.cnt.offsetErrors + 1))

/-- R281, for WR: a row written by address into a gated bank group is discarded, and the access is counted and recorded; no row becomes
readable by it. -/
def Obligations.GatedWriteDiscarded : Prop :=
  ∀ (s : State) (op : SlotOp) (ctx : Ctx), SlotRuns s.m op ctx → Instr.wf (.wr op) →
    let c := slotCore s.m op
    let w := op.word
    let row := (sel w 27 14 + cntVal (regsAt c.cc.hist ((ctx.pos : Int) - 7)) (sel w 13 10)) % 16384
    bit w 28 = false → sel w 33 30 < 8 → rowGated ctx.decl row = true →
      let gatedAccess (x : Core) : Mod :=
        ((traceWr op s.m).setCore op.site x).onRegion (siteRegion op.site) (fun g => countEv g { code := 5 })
      ∃ x, exec (.wr op) s = .next { s with m := gatedAccess x } ∧
        x.sp.pend = c.sp.pend ∧ x.sp.rows = c.sp.rows ∧ x.sp.slots = c.sp.slots ∧
        x.sp.cnt.gatedAccesses = c.sp.cnt.gatedAccesses + 1 ∧ bit x.sp.cnt.sticky 0 = true

/-- R89: a slot whose predicate is false performs nothing, for every slot operation: no condition holds it, and the core is left as its
bundle found it, the words that CURVE and STEP have written by then in place. -/
def Obligations.DisabledSlotPerformsNothing : Prop :=
  ∀ (s : State) (op : SlotOp) (ctx : Ctx) (i : Instr), slotRow i = some op → Instr.wf i → SlotAround s.m op ctx →
    slotEnabled (slotCore s.m op) op.unit.val ctx.pos op.word = false →
      SlotLeaves i s op (slotCore s.m op) ∧
      ∀ strict, slotHolds ctx strict op.unit.val op.rider op.word (slotCore s.m op) = []

/-- A slot with an unmet condition of Table 3.4a performs nothing (R98, R104): the record of the last hold is all that changes; a monitor
WAITW that must wait (R367) also sets ARMED in its clamp word, adds one to the word's WAITERS and leaves its wait under way. -/
def Obligations.HeldSlotPerformsNothing : Prop :=
  ∀ (s : State) (op : SlotOp) (ctx : Ctx) (i : Instr), slotRow i = some op → Instr.wf i → SlotAround s.m op ctx →
    slotEnabled (slotCore s.m op) op.unit.val ctx.pos op.word = true →
    slotHolds ctx true op.unit.val op.rider op.word (slotCore s.m op) ≠ [] →
      let c := slotCore s.m op
      ∃ x, SlotLeaves i s op x ∧
        (i ≠ .waitwMonitor op ∨ c.ni.monitor.isSome → x = { c with stall := { c.stall with holdLast := x.stall.holdLast } }) ∧
        (i = .waitwMonitor op → c.ni.monitor = none →
          let a := (sel op.word 27 17 + cntVal (regsAt c.cc.hist ((ctx.pos : Int) - 1)) (sel op.word 16 13)) % 2048
          x.cc.words = c.cc.words.set a (c.cc.words.get a ||| 0x1000000000000000#64) ∧
          sel (x.cc.shadow.get a) 111 96 = (sel (c.cc.shadow.get a) 111 96 + 1) % 65536 ∧
          (∃ m, x.ni = { c.ni with monitor := some m } ∧ m.word = a ∧ m.released = none) ∧
          x = { c with cc := { c.cc with words := x.cc.words, shadow := x.cc.shadow }
                       ni := { c.ni with monitor := x.ni.monitor }, stall := { c.stall with holdLast := x.stall.holdLast } })

/-! ### Vector engines -/

/-- The lane operations (R156, R167 to R171): lane i of the result of VADD, VSUB, VMUL, VFMA, VMAX, VMIN, VCMP and VSEL is made of lane i
of the inputs. I32 results are exact modulo 2^32 and flag a lane whose exact result does not fit; .SAT results are the exact result
clamped and flag a lane that was clamped; an F32 operation rounds once and flags a NaN from inputs without one and an infinity from
finite inputs. VCMP's lanes are 1 where the relation holds and 0 elsewhere; VSEL takes a where the mask lane is non-zero. VEXP2,
VLOG2, VRSQ, VRCP, VTANH and VSIG (R172): lane i of the result is the function of lane i of a, and the flags are those of an F32
operation of one input. -/
def Obligations.VectorLaneResults : Prop :=
  (∀ (s : State) (op : SlotOp) (ctx : Ctx), SlotRuns s.m op ctx →
    let ty := (vslot op.word).type
    let vop := (vslot op.word).vop
    let a (j : Nat) : W32 := lane (vecIn s op ctx 0) j
    let b (j : Nat) : W32 := lane (vecIn s op ctx 1) j
    let d (j : Nat) : W32 := lane (vecIn s op ctx 2) j
    let fits (z : Int) : Bool := decide (-2 ^ 31 ≤ z) && decide (z ≤ 2 ^ 31 - 1)
    let int (sat : Bool) (z : Nat → Int) (i : Instr) : Prop := LaneResult i s op ctx
      (fun j => if sat then BitVec.ofInt 32 (max (-2 ^ 31) (min (2 ^ 31 - 1) (z j))) else BitVec.ofInt 32 (z j))
      (fun j => if sat then { sat := !fits (z j) } else { wrap := !fits (z j) })
    let f2 (g : W32 → W32 → W32) (i : Instr) : Prop :=
      LaneResult i s op ctx (fun j => g (a j) (b j)) (fun j => laneFlags [a j, b j] (g (a j) (b j)))
    let less (x y : W32) : Bool := if ty = 3 then decide (x.toNat < y.toNat) else decide (x.toInt < y.toInt)
    (Instr.wf (.vadd op) → ty = 0 → f2 addF (.vadd op)) ∧
    (Instr.wf (.vsub op) → ty = 0 → f2 subF (.vsub op)) ∧
    (Instr.wf (.vmul op) → ty = 0 → f2 mulF (.vmul op)) ∧
    (Instr.wf (.vadd op) → ty ≠ 0 → int (ty = 2) (fun j => (a j).toInt + (b j).toInt) (.vadd op)) ∧
    (Instr.wf (.vsub op) → ty ≠ 0 → int (ty = 2) (fun j => (a j).toInt - (b j).toInt) (.vsub op)) ∧
    (Instr.wf (.vmul op) → ty ≠ 0 → int (ty = 2) (fun j => (a j).toInt * (b j).toInt) (.vmul op)) ∧
    (Instr.wf (.vfma op) → vop = 4 → LaneResult (.vfma op) s op ctx (fun j => fmaF (a j) (b j) (d j))
      (fun j => laneFlags [a j, b j, d j] (fmaF (a j) (b j) (d j)))) ∧
    (Instr.wf (.vfma op) → vop ≠ 4 → int (vop = 6) (fun j => (a j).toInt * (b j).toInt + (d j).toInt) (.vfma op)) ∧
    (Instr.wf (.vmax op) → ty = 0 → f2 maxF (.vmax op)) ∧
    (Instr.wf (.vmin op) → ty = 0 → f2 minF (.vmin op)) ∧
    (Instr.wf (.vmax op) → ty ≠ 0 →
      LaneResult (.vmax op) s op ctx (fun j => if less (a j) (b j) then b j else a j) (fun _ => {})) ∧
    (Instr.wf (.vmin op) → ty ≠ 0 →
      LaneResult (.vmin op) s op ctx (fun j => if less (a j) (b j) then a j else b j) (fun _ => {})) ∧
    (Instr.wf (.vcmp op) → LaneResult (.vcmp op) s op ctx
      (fun j => if cmpLane ty (vslot op.word).var (a j) (b j) then 1 else 0) (fun _ => {})) ∧
    (Instr.wf (.vsel op) → LaneResult (.vsel op) s op ctx (fun j => if a j ≠ 0 then b j else d j) (fun _ => {}))) ∧
  (∀ (s : State) (op : SlotOp) (ctx : Ctx), SlotRuns s.m op ctx →
    let a (j : Nat) : W32 := lane (vecIn s op ctx 0) j
    let f1 (g : W32 → W32) (i : Instr) : Prop := LaneResult i s op ctx (fun j => g (a j)) (fun j => laneFlags [a j] (g (a j)))
    (Instr.wf (.vexp2 op) → f1 exp2F (.vexp2 op)) ∧ (Instr.wf (.vlog2 op) → f1 log2F (.vlog2 op)) ∧
    (Instr.wf (.vrsq op) → f1 rsqF (.vrsq op)) ∧ (Instr.wf (.vrcp op) → f1 rcpF (.vrcp op)) ∧
    (Instr.wf (.vtanh op) → f1 tanhF (.vtanh op)) ∧ (Instr.wf (.vsig op) → f1 sigF (.vsig op)))

/-- VPERM (R189, Table 5.6): rotation takes lane i + k modulo 256; reversal lane 255 - i; the exchange lane i with bit j of i inverted;
the broadcast lane j; the zip interleaves the low or high halves of a and b; the unzip gathers the even or odd lanes of a, then of b;
the funnels shift in k lanes of b from below or from above. VCOMPACT and the VSR operations (R190 to R192): lane q of VCOMPACT's
result is the q-th lane of a whose mask is true, zeros follow, and the count is its scalar; VSR.SUM, VSR.MAX and VSR.MIN give the sum,
maximum or minimum of all 256 lanes; VSR.GET gives the chain register's 64 bits and VSR.PUT loads it from a scalar entry. -/
def Obligations.VectorPermutationsAndScalars : Prop :=
  (∀ (s : State) (op : SlotOp) (ctx : Ctx), SlotRuns s.m op ctx →
    let x := vslot op.word
    let a (j : Nat) : W32 := lane (vecIn s op ctx 0) j
    let b (j : Nat) : W32 := lane (vecIn s op ctx 1) j
    let hi := x.var % 2
    let k := x.vop % 8 * 32 + x.type * 8 + x.var
    let moves (f : Nat → W32) (i : Instr) : Prop := LaneResult i s op ctx f (fun _ => {})
    (Instr.wf (.vpermRot op) → moves (fun j => a ((j + x.b) % 256)) (.vpermRot op)) ∧
    (Instr.wf (.vpermRev op) → moves (fun j => a (255 - j)) (.vpermRev op)) ∧
    (Instr.wf (.vpermXchg op) → moves (fun j => a (j ^^^ 2 ^ (x.b % 8))) (.vpermXchg op)) ∧
    (Instr.wf (.vpermBcast op) → moves (fun _ => a (x.b % 256)) (.vpermBcast op)) ∧
    (Instr.wf (.vpermZip op) →
      moves (fun j => if j % 2 = 0 then a (128 * hi + j / 2) else b (128 * hi + j / 2)) (.vpermZip op)) ∧
    (Instr.wf (.vpermUnzip op) →
      moves (fun j => if j < 128 then a (2 * j + hi) else b (2 * (j - 128) + hi)) (.vpermUnzip op)) ∧
    (Instr.wf (.vpermFunnel op) → moves (fun j => if j < k then b (256 - k + j) else a (j - k)) (.vpermFunnel op)) ∧
    (Instr.wf (.vpermFunneld op) → moves (fun j => if j + k < 256 then a (j + k) else b (j + k - 256)) (.vpermFunneld op))) ∧
  (∀ (s : State) (op : SlotOp) (ctx : Ctx), SlotRuns s.m op ctx →
    let x := vslot op.word
    let ty := x.type
    let a (j : Nat) : W32 := lane (vecIn s op ctx 0) j
    let picked := (List.range 256).filter (fun j => lane (vecIn s op ctx 1) j ≠ 0)
    let scalar (i : Instr) (v : W64) : Prop := ∃ fl, VecCompletes i s op ctx { scal := some v, flags := fl }
    (Instr.wf (.vcompact op) → ∃ v, VecCompletes (.vcompact op) s op ctx
        { res := some v, scal := some (BitVec.ofNat 64 picked.length) } ∧
      ∀ q < 256, lane v q = match picked[q]? with
        | some j => a j
        | none => 0) ∧
    (Instr.wf (.vsrSum op) → ty = 0 → scalar (.vsrSum op) ((sumF ((List.range 256).map a)).setWidth 64)) ∧
    (Instr.wf (.vsrSum op) → ty = 1 → scalar (.vsrSum op)
      ((BitVec.ofInt 32 (((List.range 256).map a).foldl (fun z t => z + t.toInt) 0)).setWidth 64)) ∧
    (Instr.wf (.vsrMax op) → scalar (.vsrMax op) ((((List.range 255).map (fun j => a (j + 1))).foldl (maxMin true ty) (a 0)).setWidth 64)) ∧
    (Instr.wf (.vsrMin op) → scalar (.vsrMin op) ((((List.range 255).map (fun j => a (j + 1))).foldl (maxMin false ty) (a 0)).setWidth 64)) ∧
    (Instr.wf (.vsrGet op) → scalar (.vsrGet op) (((slotCore s.m op).eng op.unit.val).chain[x.tc]?.getD 0)) ∧
    (∀ q pop, Instr.wf (.vsrPut op) → decAB x.a = some (.scal q pop) →
      VecCompletes (.vsrPut op) s op ctx { chain := some (((slotCore s.m op).head q).setWidth 64) }))

/-- VCVT (R173, R174, R176 to R178, Table 5.4), its lanes and elements: F32 from I32 or from a narrow view, I32 under either rounding,
bytes of a then of b clamped, BF16 and the two FP8 formats under nearest-even or the conversion counter's stochastic bits, the block
scales of an MX format, and the four-bit halves through the pack buffer. Only .SR advances the conversion count. The MX element
conversions (R175, R176, R178): element j of a then b is divided by its block's scale and rounded to the element type; an MX4 low half
fills the pack buffer and pushes nothing, a high half pushes the pack buffer's elements followed by its own and empties the buffer.
Only .SR advances the conversion count. -/
def Obligations.VectorConversionResults : Prop :=
  (∀ (s : State) (op : SlotOp) (ctx : Ctx), SlotRuns s.m op ctx → Instr.wf (.vcvt op) →
    let x := vslot op.word
    let t := 8 * x.type + x.var
    let e := (slotCore s.m op).eng op.unit.val
    let va := vecIn s op ctx 0
    let vb := vecIn s op ctx 1
    let ab (j : Nat) : W32 := if j < 256 then lane va j else lane vb (j - 256)
    let h (j : Nat) : W64 := srBits (seedAt (slotCore s.m op) ctx.pos) ctx.core e.cvt.toNat (0x8000 + (op.unit.val - 5)) j
    let rnd (sr : Bool) (j : Nat) : Rnd := if sr then .sr (if j < 256 then srLo (h j) else srHi (h (j - 256))) else .rne
    let src := (vsrcs x).getD 0 (.const 0)
    let lanes (f : Nat → W32 × VFlags) : Prop := LaneResult (.vcvt op) s op ctx (fun j => (f j).1) (fun j => (f j).2)
    let row (w n : Nat) (inc : Bool) (f : Nat → Nat) : Prop := ∃ v fl,
      VecCompletes (.vcvt op) s op ctx { res := some v, flags := fl, cvtInc := inc } ∧ ∀ j < n, elem w v j = BitVec.ofNat w (f j)
    let i4 (j : Nat) : Nat := ((max (-8) (min 7 (ab j).toInt)).emod 16).toNat
    (t = 0 → lanes (fun j => (if srcNarrow src then lane va j else encF32 .rne (ofIntV (lane va j).toInt), {}))) ∧
    (t = 1 → lanes (fun j => if srcI8 src then (lane va j, {}) else toI32 .rne (lane va j))) ∧
    (t = 2 → lanes (fun j => toI32 .tz (lane va j))) ∧
    (t = 3 → row 8 512 false (fun j => ((max (-128) (min 127 (ab j).toInt)).emod 256).toNat)) ∧
    (t = 4 → row 8 512 false (fun j => min 255 (ab j).toNat)) ∧
    (t = 5 → ∃ p fl, VecCompletes (.vcvt op) s op ctx { pack := some p, flags := fl } ∧
      ∀ j < 512, elem 4 p j = BitVec.ofNat 4 (i4 j)) ∧
    (t = 6 → ∃ v fl, VecCompletes (.vcvt op) s op ctx { res := some v, pack := some 0, flags := fl } ∧
      ∀ j < 1024, elem 4 v j = if j < 512 then elem 4 e.pack j else BitVec.ofNat 4 (i4 (j - 512))) ∧
    (7 ≤ t → t ≤ 11 → lanes (fun j => (if j < 8 then BitVec.ofNat 32 (mxScale (t - 7) (block va j))
      else if j < 16 then BitVec.ofNat 32 (mxScale (t - 7) (block vb (j - 8))) else 0, {}))) ∧
    (t = 12 ∨ t = 13 → row 16 256 (t = 13) (fun j => (toBF16 (rnd (t = 13) j) (lane va j)).1)) ∧
    (14 ≤ t → t ≤ 17 → row 8 512 (t % 2 = 1) (fun j => (toE4M3 (decide (16 ≤ t)) (rnd (t % 2 = 1) j) (ab j)).1)) ∧
    (18 ≤ t → t ≤ 21 → row 8 512 (t % 2 = 1) (fun j => (toE5M2 (decide (20 ≤ t)) (rnd (t % 2 = 1) j) (ab j)).1))) ∧
  (∀ (s : State) (op : SlotOp) (ctx : Ctx), SlotRuns s.m op ctx → Instr.wf (.vcvtMx op) →
    let o := (vslot op.word).vop
    let sr := decide (0x39 ≤ o)
    let k := if sr then o - 0x39 else o - 0x33
    let e := (slotCore s.m op).eng op.unit.val
    let va := vecIn s op ctx 0
    let vb := vecIn s op ctx 1
    let ab (j : Nat) : W32 := if j < 256 then lane va j else lane vb (j - 256)
    let h (j : Nat) : W64 := srBits (seedAt (slotCore s.m op) ctx.pos) ctx.core e.cvt.toNat (0x8000 + (op.unit.val - 5)) j
    let rnd (j : Nat) : Rnd := if sr then .sr (if j < 256 then srLo (h j) else srHi (h (j - 256))) else .rne
    let el (j : Nat) : Nat := (toMxElem (min k 4) (rnd j) ((lane (vecIn s op ctx 2) (j / 32)).toNat % 256) (ab j)).1
    (k < 4 → ∃ v fl, VecCompletes (.vcvtMx op) s op ctx { res := some v, flags := fl, cvtInc := sr } ∧
      ∀ j < 512, elem 8 v j = BitVec.ofNat 8 (el j)) ∧
    (k = 4 → ∃ p fl, VecCompletes (.vcvtMx op) s op ctx { pack := some p, flags := fl, cvtInc := sr } ∧
      ∀ j < 512, elem 4 p j = BitVec.ofNat 4 (el j)) ∧
    (k = 5 → ∃ v fl, VecCompletes (.vcvtMx op) s op ctx { res := some v, pack := some 0, flags := fl, cvtInc := sr } ∧
      ∀ j < 1024, elem 4 v j = if j < 512 then elem 4 e.pack j else BitVec.ofNat 4 (el (j - 512))))

/-- VSCAN and VSEGSCAN (R181 to R183): lane i is the sum of the carry and lanes 0 to i (or i - 1) of a, or, from the highest lane b at or
below i that starts a segment, of lanes b to i (or i - 1); every sum is rounded once, wrapped or clamped by its type. The chain
register takes the inclusive sum through lane 255, and an operation with .ST starts from an exact zero. VARGMAX and VARGMIN (R184 to
R187): among the row's lanes with their indices C + i, and the chain register's winner unless .ST is given, the pair left in the chain
register and pushed is one of them, with its NaN made canonical, and none of them ranks before it, by value and then by the lower
index. VMAXR (R188): the running maximum, the row's exponentials against it and the sum formed exactly and rounded once, with the
rescale factor; a maximum of minus infinity gives zeros and keeps the sum, and one of plus infinity or NaN gives NaN throughout. -/
def Obligations.VectorScansAndReductions : Prop :=
  (∀ (s : State) (op : SlotOp) (ctx : Ctx), SlotRuns s.m op ctx →
    let x := vslot op.word
    let ty := x.type
    let a (j : Nat) : W32 := lane (vecIn s op ctx 0) j
    let starts (j : Nat) : Bool := lane (vecIn s op ctx 1) j ≠ 0
    let carry : W32 := if 4 ≤ x.var then 0 else (((slotCore s.m op).eng op.unit.val).chain[x.tc]?.getD 0).setWidth 32
    let total (ts : List W32) : W32 :=
      let z := ts.foldl (fun z t => z + t.toInt) 0
      if ty = 0 then sumF ts else if ty = 2 then BitVec.ofInt 32 (max (-2 ^ 31) (min (2 ^ 31 - 1) z)) else BitVec.ofInt 32 z
    let lanes (b n : Nat) : List W32 := ((List.range n).drop b).map a
    let last (j : Nat) : Nat := if x.var % 2 = 1 then j else j + 1
    (Instr.wf (.vscan op) → ∃ v fl, VecCompletes (.vscan op) s op ctx
        { res := some v, chain := some ((total (carry :: lanes 0 256)).setWidth 64), flags := fl } ∧
      ∀ j < 256, lane v j = total (carry :: lanes 0 (last j))) ∧
    (Instr.wf (.vsegscan op) → ∃ v fl ch, VecCompletes (.vsegscan op) s op ctx { res := some v, chain := some ch, flags := fl } ∧
      (∀ j < 256, ∀ b ≤ j, starts b = true → (∀ i, b < i → i ≤ j → starts i = false) → lane v j = total (lanes b (last j))) ∧
      (∀ j < 256, (∀ i ≤ j, starts i = false) → lane v j = total (carry :: lanes 0 (last j))) ∧
      (∀ b < 256, starts b = true → (∀ i, b < i → i < 256 → starts i = false) → ch = (total (lanes b 256)).setWidth 64) ∧
      ((∀ i < 256, starts i = false) → ch = (total (carry :: lanes 0 256)).setWidth 64))) ∧
  (∀ (s : State) (op : SlotOp) (ctx : Ctx) (mx : Bool), SlotRuns s.m op ctx →
    let i := if mx then Instr.vargmax op else .vargmin op
    let x := vslot op.word
    let old := ((slotCore s.m op).eng op.unit.val).chain[x.tc]?.getD 0
    let c := cntVal (slotRegs (slotCore s.m op) op.unit.val ctx.pos) (x.b % 16)
    let pairs : List (W32 × W32) := (List.range 256).map (fun j => (lane (vecIn s op ctx 0) j, BitVec.ofNat 32 (c + j))) ++
      (if 4 ≤ x.var then [] else [((old >>> 32).setWidth 32, old.setWidth 32)])
    Instr.wf i → ∃ w ∈ pairs, (∀ p ∈ pairs, argBeats mx x.type p.1 p.2 w.1 w.2 = false) ∧
      let v : W32 := if x.type = 0 ∧ isNanF w.1 then nan32 else w.1
      let r : W64 := BitVec.ofNat 64 (v.toNat * 2 ^ 32 + w.2.toNat)
      VecCompletes i s op ctx { scal := some r, chain := some r }) ∧
  (∀ (s : State) (op : SlotOp) (ctx : Ctx), SlotRuns s.m op ctx → Instr.wf (.vmaxr op) →
    let x := vslot op.word
    let old := ((slotCore s.m op).eng op.unit.val).chain[x.tc]?.getD 0
    let mOld : W32 := if 4 ≤ x.var then 0xFF800000#32 else old.setWidth 32
    let lOld : W32 := if 4 ≤ x.var then 0 else (old >>> 32).setWidth 32
    let a (j : Nat) : W32 := lane (vecIn s op ctx 0) j
    let m := ((List.range 256).map a).foldl maxF mOld
    let infinite := decide (m = 0x7F800000#32) || isNanF m
    let p (j : Nat) : W32 := if m = 0xFF800000#32 then 0 else if infinite then nan32 else exp2F (subF (a j) m)
    let r : W32 := if m = 0xFF800000#32 then one32 else if infinite then nan32 else exp2F (subF mOld m)
    let l : W32 := if m = 0xFF800000#32 then lOld else if infinite then nan32 else
      encF32 .rne (sumExact ((decF32 lOld).mul (decF32 r) :: (List.range 256).map (fun j => decF32 (p j))))
    ∃ v fl, VecCompletes (.vmaxr op) s op ctx
        { res := some v, scal := some (BitVec.ofNat 64 (m.toNat * 2 ^ 32 + r.toNat))
          chain := some (BitVec.ofNat 64 (l.toNat * 2 ^ 32 + m.toNat)), flags := fl } ∧
      ∀ j < 256, lane v j = p j)

/-- What a vector result's delivery does, whatever the operation (R155, R161 to R163, R178, R192, R193): nothing outside the queues, the
slot's own engine and the vector record changes; the engine's chain register, pack buffer and conversion count take what the result
gives them; a result for a tile row waits until its latency has passed and is all that is added to the engine's pending rows; the
record counts one operation of the engine, and each flag once. Where a vector result goes when the slot carries no handle rider and
sends no second scalar (R79, R84, R162): a result for a queue is reserved there with the slot's place in its cycle and becomes visible
when the operation's latency has passed; every queue that an input pops is marked popped, and no other queue changes. -/
def Obligations.VectorResultsDelivered : Prop :=
  (∀ (ctx : Ctx) (op : SlotOp) (out : VOut) (c : Core), op.unit.val = 5 ∨ op.unit.val = 6 →
    let x := vslot op.word
    let u := op.unit.val
    let c' := vDeliver ctx op out c
    let e := c.eng u
    let e' := c'.eng u
    let lat := ctx.due (vLat x.vop).1 (vLat x.vop).2
    let inc (b : Bool) (w : W64) : W64 := if b then bump48 w 1 else w
    c' = { c with queues := c'.queues, v0 := c'.v0, v1 := c'.v1, vrec := c'.vrec } ∧
    (u = 5 → c'.v1 = c.v1) ∧ (u = 6 → c'.v0 = c.v0) ∧
    e' = { tiles := e.tiles, pend := e'.pend, chain := e'.chain, pack := out.pack.getD e.pack
           cvt := if out.cvtInc then e.cvt + 1 else e.cvt } ∧
    (out.chain = none → e'.chain = e.chain) ∧ (∀ v, out.chain = some v → e'.chain = e.chain.setIfInBounds x.tc v) ∧
    (∀ v t, out.res = some v → vopScalarOut x.vop = false → vdst x = .tile t →
      e'.pend = e.pend ++ [{ due := lat, img := ctx.imgDue (vLat x.vop).1 (vLat x.vop).2, exec := ctx.cycle
                             key := 64 * t + tileRow (slotRegs c u ctx.pos) x, val := v }]) ∧
    ((∀ t, vdst x ≠ .tile t) → e'.pend = e.pend) ∧
    c'.vrec.v0Ops = inc (u = 5) c.vrec.v0Ops ∧ c'.vrec.v1Ops = inc (u = 6) c.vrec.v1Ops ∧
    c'.vrec.nanResults = inc out.flags.nan c.vrec.nanResults ∧ c'.vrec.infResults = inc out.flags.inf c.vrec.infResults ∧
    c'.vrec.cvtSaturations = inc out.flags.cvt c.vrec.cvtSaturations ∧ c'.vrec.intWraps = inc out.flags.wrap c.vrec.intWraps ∧
    c'.vrec.intSaturations = inc out.flags.sat c.vrec.intSaturations) ∧
  (∀ (ctx : Ctx) (op : SlotOp) (out : VOut) (c : Core) (v : Vec) (q : Nat), op.unit.val = 5 ∨ op.unit.val = 6 →
    let x := vslot op.word
    let popped := (vsrcs x).foldl srcPop c
    riderOf op.rider op.unit.val = none → vscalarDst x = none → vdst x = .queue q →
    (if vopScalarOut x.vop then out.scal.map (·.setWidth 8192) else out.res) = some v →
      let entry : QEntry := { data := v, res := 16 * ctx.cycle + op.unit.val, due := ctx.due (vLat x.vop).1 (vLat x.vop).2 }
      ∀ j, (vDeliver ctx op out c).queue j =
        if j = q then { popped.queue q with entries := insertRes entry (popped.queue q).entries } else popped.queue j)

/-! ### The array -/

/-- WLOAD, WLOADT and WLOAD.S write the shadow plane only (R112, R114, R115, Table 4.1): a row of 8-bit elements fills W[2p] and W[2p+1],
of 4-bit elements W[4p] to W[4p+3], of BF16 elements W[p], the index taken modulo the format's; WLOADT exchanges k and n; a row of
scales fills S_W[2q] and S_W[2q+1]. Elements and scales elsewhere keep their values in a load of one format and orientation; the entry
is popped or peeked; nothing but the shadow plane and the load's progress changes. The progress of a plane load (R116, R117): the
first load operation begins it; one naming another format, or a data load naming the other orientation, begins it again and adds one
to PLANE_RESTARTS; the shadow is complete 5 cycles after the operation by which every index of the format, and for an MX format all
four scale parts, are written. SHADOW_COMPLETE is that completion, and a WSWAP with an incomplete shadow waits (R118). -/
def Obligations.PlaneLoads : Prop :=
  (∀ (s : State) (op : SlotOp) (ctx : Ctx), SlotRuns s.m op ctx →
    let c := slotCore s.m op
    let w := op.word
    let fmt := sel w 29 26
    let p := (sel w 25 18 + cntVal (regsAt c.cc.hist ((ctx.pos : Int) - 7)) (sel w 17 14)) % 256
    let v : Row := (c.head (sel w 33 31)).setWidth 4096
    let shadow (a : ArrayState) : Plane := if a.active then a.plane0 else a.plane1
    let inUse (a : ArrayState) : Plane := if a.active then a.plane1 else a.plane0
    let leaves (i : Instr) (a : ArrayState) : Prop :=
      SlotLeaves i s op (passed ctx { c.pop (sel w 33 31) (bit w 30) with arr := a }) ∧ inUse a = inUse c.arr ∧
      (shadow a).fmt = fmt ∧
      a = { c.arr with plane0 := a.plane0, plane1 := a.plane1, load := a.load, complete := a.complete
                       completeDue := a.completeDue, cnt := { c.arr.cnt with planeRestarts := a.cnt.planeRestarts } }
    let data (i : Instr) (t : Bool) : Prop := ∃ a, leaves i a ∧ (shadow a).scales = (shadow c.arr).scales ∧
      let W (x : ArrayState) (k n : Nat) : Fv := if t then planeAt (shadow x) n k else planeAt (shadow x) k n
      (fmt = 8 ∨ fmt = 9 → ∀ j < 1024, W a (4 * (p % 64) + j / 256) (j % 256) = fmtDec fmt (elem 4 v j).toNat) ∧
      (fmt ≤ 7 → ∀ j < 512, W a (2 * (p % 128) + j / 256) (j % 256) = fmtDec fmt (elem 8 v j).toNat) ∧
      (fmt = 10 → ∀ j < 256, W a p j = decBF16 (elem 16 v j).toNat) ∧
      ((shadow c.arr).fmt = fmt → (shadow c.arr).trans = t → ∀ k n,
        (if fmt = 10 then k ≠ p else if fmt = 8 ∨ fmt = 9 then k / 4 ≠ p % 64 else k / 2 ≠ p % 128) → W a k n = W c.arr k n)
    (Instr.wf (.wload op) → data (.wload op) false) ∧
    (Instr.wf (.wloadt op) → data (.wloadt op) true) ∧
    (Instr.wf (.wloadS op) → ∃ a, leaves (.wloadS op) a ∧ (shadow a).rows = (shadow c.arr).rows ∧
      (∀ j < 512, planeScale (shadow a) (2 * (p % 4) + j / 256) (j % 256) = decE8M0 (elem 8 v j).toNat) ∧
      ((shadow c.arr).fmt = fmt → ∀ b n, b / 2 ≠ p % 4 → planeScale (shadow a) b n = planeScale (shadow c.arr) b n))) ∧
  ((∀ (s : State) (site : Fin 25600) (d : Nat), (s.m.core site).arr.completeDue = some d →
    d ≤ (s.m.region (siteRegion site)).cycle →
    exec (.shadowComplete site) s = .next { s with m := s.m.onCore site (fun y =>
      { y with arr := { y.arr with complete := true, completeDue := none } }) }) ∧
  ∀ (s : State) (op : SlotOp) (ctx : Ctx), SlotRuns s.m op ctx →
    let c := slotCore s.m op
    let w := op.word
    let a := c.arr
    let fmt := sel w 29 26
    let p := (sel w 25 18 + cntVal (regsAt c.cc.hist ((ctx.pos : Int) - 7)) (sel w 17 14)) % 256
    let count (f : Nat) : Nat := if f = 8 ∨ f = 9 then 64 else if f = 10 then 256 else 128
    let mx (f : Nat) : Prop := f = 3 ∨ f = 4 ∨ f = 5 ∨ f = 6 ∨ f = 8
    let whole (l : PlaneLoad) : Prop := (∀ i < count l.fmt, l.idx.getLsbD i = true) ∧ (mx l.fmt → ∀ i < 4, l.parts.getLsbD i = true)
    let progress (i : Instr) (t : Option Bool) : Prop := ∃ x l, SlotLeaves i s op x ∧ x.arr.load = some l ∧ l.fmt = fmt ∧
      let again : Prop := ∃ l0, a.load = some l0 ∧ (l0.fmt ≠ fmt ∨ ∃ o o', t = some o ∧ l0.trans = some o' ∧ o ≠ o')
      let old (f : PlaneLoad → Bool) : Prop := ¬ again ∧ ∃ l0, a.load = some l0 ∧ f l0 = true
      l.trans = (match t, a.load with
        | some o, _ => some o
        | none, some l0 => if l0.fmt = fmt then l0.trans else none
        | none, none => none) ∧
      (∀ k < 256, l.idx.getLsbD k = true ↔ (t ≠ none ∧ k = p % count fmt) ∨ old (fun l0 => l0.idx.getLsbD k)) ∧
      (∀ k < 4, l.parts.getLsbD k = true ↔ (t = none ∧ k = p % 4) ∨ old (fun l0 => l0.parts.getLsbD k)) ∧
      (again → x.arr.cnt.planeRestarts = bump48 a.cnt.planeRestarts 1) ∧
      (¬ again → x.arr.cnt.planeRestarts = a.cnt.planeRestarts) ∧
      ((∃ l0, ¬ again ∧ a.load = some l0 ∧ whole l0) → x.arr.complete = a.complete ∧ x.arr.completeDue = a.completeDue) ∧
      ((¬ ∃ l0, ¬ again ∧ a.load = some l0 ∧ whole l0) → x.arr.complete = false ∧
        (whole l → x.arr.completeDue = some (ctx.cycle + 5)) ∧ (¬ whole l → x.arr.completeDue = none))
    (Instr.wf (.wload op) → progress (.wload op) (some false)) ∧
    (Instr.wf (.wloadt op) → progress (.wloadt op) (some true)) ∧
    (Instr.wf (.wloadS op) → progress (.wloadS op) none))

/-- WSWAP (R118, R119, R120): the planes exchange roles, the new shadow keeps its contents and is complete with no load begun, and one
swap is counted; an MMUL of the same cycle still uses the plane that was active, one of a later cycle the other. Nothing else changes. -/
def Obligations.SwapExchangesPlanes : Prop :=
  ∀ (s : State) (op : SlotOp) (ctx : Ctx), SlotRuns s.m op ctx → Instr.wf (.wswap op) →
    let c := slotCore s.m op
    let a := c.arr
    let a' : ArrayState := { a with
      active := !a.active, swapCycle := some ctx.cycle, load := none, complete := true, completeDue := none
      cnt := { a.cnt with planeSwaps := bump48 a.cnt.planeSwaps 1 } }
    SlotLeaves (.wswap op) s op (passed ctx { c with arr := a' }) ∧ a.complete = true ∧
    (a.swapCycle ≠ some ctx.cycle → activeOf a' ctx.cycle = activeOf a ctx.cycle ∧
      ∀ cyc > ctx.cycle, activeOf a' cyc = (if a.active then a.plane0 else a.plane1))

/-- MMUL (R123 to R127, R129, R113, R134): the slice of each input vector, exact: column n is the sum of the 256 products of element,
plane element and block scales, NaN or infinite as R129 orders them, −0 only when every product is −0, +0 in every column against a
plane not loaded, and NaN in every column, counted, for formats that do not pair. The slices wait for the AC slot of the bundle; the
input row and, for an MX format, the scale row are popped or peeked. -/
def Obligations.MultiplyLeavesExactSlices : Prop :=
  ∀ (s : State) (op : SlotOp) (ctx : Ctx), SlotRuns s.m op ctx → Instr.wf (.mmul op) →
    let c := slotCore s.m op
    let w := op.word
    let fmt := sel w 33 30
    let mx (f : Nat) : Bool := [3, 4, 5, 6, 8].contains f
    let four : Bool := fmt = 8 ∨ fmt = 9
    let g := (sel w 20 15 + cntVal (regsAt c.cc.hist ((ctx.pos : Int) - 7)) (sel w 14 11)) % 64
    let r : Row := (c.head (sel w 29 27)).setWidth 4096
    let sc : Row := (c.head (sel w 24 22)).setWidth 4096
    let plane := if c.arr.active != (c.arr.swapCycle == some ctx.cycle) then c.arr.plane1 else c.arr.plane0
    let half := if bit w 25 then 1 else 0
    let x (v k : Nat) : Fv := fmtDec fmt (if four then (elem 4 r (512 * half + 256 * v + k)).toNat
      else if fmt = 10 then (elem 16 r k).toNat else (elem 8 r (256 * half + k)).toNat)
    let sx (v k : Nat) : Fv := if mx fmt then decE8M0 (elem 8 sc (8 * ((g + v) % 64) + k / 32)).toNat else .fin false 1 0
    let prod (v n k : Nat) : Fv := ((x v k).mul (planeAt plane k n)).mul ((sx v k).mul (planeScale plane (k / 32) n))
    let pairs : Prop := plane.fmt = 0 ∨ fmt = plane.fmt ∨ (1 ≤ fmt ∧ fmt ≤ 6 ∧ 1 ≤ plane.fmt ∧ plane.fmt ≤ 6)
    let popped := if mx fmt then (c.pop (sel w 29 27) (bit w 26)).pop (sel w 24 22) (bit w 21) else c.pop (sel w 29 27) (bit w 26)
    ∃ cols a, SlotLeaves (.mmul op) s op (passed ctx { popped with arr := a }) ∧
      a = { c.arr with latch := some { cols := cols, bf16 := decide (fmt = 10) }, cnt := a.cnt } ∧
      (pairs → a.cnt = c.arr.cnt) ∧
      (¬ pairs → a.cnt = { c.arr.cnt with formatMismatches := bump48 c.arr.cnt.formatMismatches 1
                                          sticky := c.arr.cnt.sticky ||| 16#32 } ∧ ∀ l ∈ cols, l = List.replicate 256 .nan) ∧
      cols.length = (if four then 2 else 1) ∧ (∀ l ∈ cols, l.length = 256) ∧
      ∀ v n, v < cols.length → n < 256 → pairs →
        let y := (cols.getD v []).getD n .nan
        (plane.fmt = 0 → y = .fin false 0 0) ∧
        (plane.fmt ≠ 0 →
          ((∃ k < 256, prod v n k = .nan) → y = .nan) ∧
          ((∃ k < 256, prod v n k = .inf false) → (∃ k < 256, prod v n k = .inf true) → y = .nan) ∧
          (∀ b, (∀ k < 256, prod v n k ≠ .nan ∧ prod v n k ≠ .inf (!b)) → (∃ k < 256, prod v n k = .inf b) → y = .inf b) ∧
          ((∀ k < 256, (prod v n k).isFin = true) →
            fvRat y = ((List.range 256).map (fun k => fvRat (x v k) * fvRat (planeAt plane k n) * fvRat (sx v k) *
              fvRat (planeScale plane (k / 32) n))).sum ∧
            (fvRat y = 0 → ((∃ e, y = .fin true 0 e) ↔ ∀ k < 256, (prod v n k).isNegZero = true))))

/-- What one slice accumulated into a row leaves in its core (R128, R133, R135, R137, R141 to R143, R150, R281), for ACC (`zero` off) and
ACCZ: the slice rounded once to FP32 by its mode, the write due 14 / 15 cycles later (17 / 18 for BF16), the row's slice counter one
above the index used, the row's in-flight count raised; a slice with a non-finite column counted. Into a gated half it writes nothing
and the access is counted. An accumulation written into its row (R130, R136, R137, R144, R150): the oldest write that is due replaces
the row (ACCZ) or adds to it (ACC), each column rounded once, to BF16 stochastically in half width; its in-flight count falls by one,
and no other row changes. FIRST_NONFINITE keeps the first row with a non-finite value. -/
def Obligations.AccumulationsBeginAndWrite : Prop :=
  (∀ (ctx : Ctx) (zero sr mx bf16 : Bool) (row : Nat) (cols : List Fv) (c : Core),
    let e := accOne ctx zero sr mx bf16 row cols c
    let a := c.arr
    let a' := e.core.arr
    let index : W32 := if zero then 0 else a.sliceCnt.get row
    let rnd (n : Nat) : Rnd := if sr && mx && !ctx.accNearest
      then .sr (srLo (srBits (seedAt c ctx.pos) ctx.core index.toNat row n)) else .rne
    let val (n : Nat) : W32 := encF32 (rnd n) (cols.getD n .nan)
    let lat := ctx.cycle + (if bf16 then max (if ctx.b0 then 18 else 17) (if ctx.imgB0 then 18 else 17)
      else max (if ctx.b0 then 15 else 14) (if ctx.imgB0 then 15 else 14))
    ((∃ n < 256, isFinF (val n) = false) → a'.cnt.nonfiniteSlices = bump48 a.cnt.nonfiniteSlices 1 ∧ bit a'.cnt.sticky 0 = true) ∧
    ((∀ n < 256, isFinF (val n) = true) → a'.cnt.nonfiniteSlices = a.cnt.nonfiniteSlices ∧ a'.cnt.sticky = a.cnt.sticky) ∧
    (accGated ctx.decl row = false → e.ev = [] ∧ e.core = { c with arr := { a with
        pend := a'.pend, sliceCnt := a'.sliceCnt, inflight := a'.inflight
        cnt := { a.cnt with nonfiniteSlices := a'.cnt.nonfiniteSlices, sticky := a'.cnt.sticky, slices := bump48 a.cnt.slices 1 } } } ∧
      (∃ v, a'.pend = a.pend ++ [{ due := lat, row := row, vals := v, replace := zero, sumSr := sr && !ctx.accNearest
                                   seed := seedAt c ctx.pos, slice := index }] ∧ ∀ n < 256, lane v n = val n) ∧
      a'.sliceCnt.get row = index + 1 ∧ (∀ r, r ≠ row → a'.sliceCnt.get r = a.sliceCnt.get r) ∧
      Tab.get a'.inflight row 0 = Tab.get a.inflight row 0 + 1) ∧
    (accGated ctx.decl row = true → a' = { a with cnt := a'.cnt } ∧
      e.core.sp = { c.sp with cnt := e.core.sp.cnt } ∧
      e.core.sp.cnt.gatedAccesses = c.sp.cnt.gatedAccesses + 1 ∧ e.ev = [{ code := 5 }])) ∧
  (∀ (s : State) (site : Fin 25600) (k : Nat) (p : PendAcc) (pre post : List PendAcc),
    let g := s.m.region (siteRegion site)
    let c := s.m.core site
    let half := g.decl.halfWidth
    g.coreOf site = some k → c.arr.pend = pre ++ p :: post → p.due ≤ g.cycle → (∀ q ∈ pre, g.cycle < q.due) →
      let h (n : Nat) : W64 := srBits p.seed k p.slice.toNat p.row n
      let old (n : Nat) : Fv := if half then decBF16 (elem 16 (c.arr.acc.get p.row) n).toNat else decF32 (lane (c.arr.acc.get p.row) n)
      let sum (n : Nat) : Fv := if p.replace then decF32 (lane p.vals n) else sumExact [old n, decF32 (lane p.vals n)]
      let plus (v : Fv) : Fv := if !p.replace && v.isZero then .fin false 0 0 else v
      ∃ x, exec (.accRowWritten site) s = .next { s with m := s.m.setCore site x } ∧
        x = { c with arr := { c.arr with acc := x.arr.acc, pend := pre ++ post, inflight := x.arr.inflight, cnt := x.arr.cnt } } ∧
        (half = false → p.replace = true → ∀ n < 256, lane (x.arr.acc.get p.row) n = lane p.vals n) ∧
        (half = false → p.replace = false → ∀ n < 256, lane (x.arr.acc.get p.row) n =
          encF32 (if p.sumSr then .sr (srHi (h n)) else .rne) (plus (sum n))) ∧
        (half = true → ∀ n < 256, elem 16 (x.arr.acc.get p.row) n = BitVec.ofNat 16 (encBF16 (.sr (srHi (h n))) (plus (sum n)))) ∧
        (∀ r, r ≠ p.row → x.arr.acc.get r = c.arr.acc.get r) ∧
        Tab.get x.arr.inflight p.row 0 = Tab.get c.arr.inflight p.row 0 - 1 ∧
        (bit c.arr.cnt.firstNonfinite 31 = true → x.arr.cnt.firstNonfinite = c.arr.cnt.firstNonfinite))

/-- ACC, ACCZ and the operations with a drain rider complete with the accumulation of their slices (R133 to R135, R138): from MX the
slice, or for a 4-bit MMUL the two slices into rows a and a + 1 modulo the row count; from a queue the entry's 256 FP32 values; with a
source of MX and no MMUL of the bundle nothing. A rider's drain comes first, so it takes the row without this operation's slice. DRAIN
and DRAINZ push the row's 256 FP32 values, visible 4 cycles later (R149), DRAINZ zeroing the row and its slice counter; a row of a
gated half drains zeros (R281). -/
def Obligations.AccumulateAndRider : Prop :=
  ∀ (s : State) (op : SlotOp) (ctx : Ctx), SlotRuns s.m op ctx →
    let c := slotCore s.m op
    let w := op.word
    let rows := if ctx.decl.halfWidth then 2048 else 1024
    let k := cntVal (regsAt c.cc.hist ((ctx.pos : Int) - 7)) (sel w 4 1)
    let arow := (sel w 28 18 + k) % rows
    let drow := (sel w 17 7 + k) % rows
    let one (zero mx bf16 : Bool) (i : Nat) (l : List Fv) (e : Eff) : Eff := e.bind (accOne ctx zero (bit w 29) mx bf16 ((arow + i) % rows) l)
    let accumulated (zero : Bool) (x : Core) : Eff :=
      if bit w 33 then
        one zero false false 0 ((List.range 256).map (fun n => decF32 (lane (x.head (8 + sel w 32 31)) n)))
          { core := x.pop (8 + sel w 32 31) (bit w 30) }
      else match x.arr.latch with
        | none => { core := x }
        | some l => match l.cols with
          | [v] => one zero true l.bf16 0 v { core := { x with arr := { x.arr with latch := none } } }
          | [v, v'] => one zero true l.bf16 1 v' (one zero true l.bf16 0 v { core := { x with arr := { x.arr with latch := none } } })
          | _ => { core := x }
    let wide (v : Vec) : Vec := if ctx.decl.halfWidth then vecOf (fun n => (elem 16 v n).setWidth 32 <<< 16) else v
    let drained (z : Bool) (x : Core) : Eff :=
      if accGated ctx.decl drow then (recGated x 4 ctx.pos).bind (fun y => { core := y.push (8 + sel w 6 5) ctx.cycle 4 (ctx.cycle + 4) 0 })
      else
        let y := (corrected op.err x).push (8 + sel w 6 5) ctx.cycle 4 (ctx.cycle + 4) (wide (x.arr.acc.get drow))
        { core := if z then { y with arr := { y.arr with
            acc := y.arr.acc.set drow 0, sliceCnt := y.arr.sliceCnt.set drow 0 } } else y }
    let leaves (i : Instr) (e : Eff) : Prop := exec i s = .next { s with m := s.m.applyEff op.site { e with core := passed ctx e.core } }
    (∀ l, c.arr.latch = some l → l.cols.length = 1 ∨ l.cols.length = 2) →
    (Instr.wf (.acc op) → leaves (.acc op) (accumulated false (corrected op.err c))) ∧
    (Instr.wf (.accz op) → leaves (.accz op) (accumulated true c)) ∧
    (Instr.wf (.accDrain op) → leaves (.accDrain op) ((drained false c).bind (accumulated false))) ∧
    (Instr.wf (.accDrainz op) → leaves (.accDrainz op) ((drained true c).bind (accumulated false))) ∧
    (Instr.wf (.acczDrain op) → leaves (.acczDrain op) ((drained false c).bind (accumulated true))) ∧
    (Instr.wf (.acczDrainz op) → leaves (.acczDrainz op) ((drained true c).bind (accumulated true))) ∧
    (Instr.wf (.drain op) → leaves (.drain op) (drained false c)) ∧
    (Instr.wf (.drainz op) → leaves (.drainz op) (drained true c))

/-! ### Messages sent and received -/

/-- SEND and DOWEL (R337 to R343, Table 9.2, Table 3.5): the descriptor and the payload, handle or value are popped or peeked; the checks
of Table 9.2 are made in order. A message that passes takes the youngest place of the transmit list, its header stamped with its part
and core; a DOWEL's header carries the value and may leave 4 cycles later. One that fails sends nothing, adds one to MESSAGE_ERRORS,
raises MESSAGE_ERROR with the check's cause, and with SK 1 places a token of the check's status. -/
def Obligations.SendsEnterTransmitList : Prop :=
  ∀ (s : State) (op : SlotOp) (ctx : Ctx), SlotRuns s.m op ctx →
    let c := slotCore s.m op
    let w := op.word
    let nq := 24 + sel w 33 32
    let sk := bit w 30
    let sq := if sk then 28 + sel w 28 27 else sel w 29 27
    let vq := 16 + sel w 30 28
    let h : W128 := (c.head nq).setWidth 128
    let handle : W32 := (c.head sq).setWidth 32
    let stamped : W128 := put (put h 78 74 ctx.decl.part) 73 64 ctx.core
    let remote := bit h 122
    let badForm (kind : Nat) : Prop := sel h 127 125 ≠ kind ∨ (remote = false ∧ sel h 121 110 ≠ 0) ∨ (kind = 1 ∧ sel h 45 40 ≠ 0)
    let badLen : Prop := sel h 63 57 = 0 ∨ 64 < sel h 63 57 ∨ (sk = false ∧ sel h 63 57 ≠ 1)
    let badDest : Prop := if remote then sel h 121 110 ∉ ctx.modules
      else ∀ n, Tab.find ctx.parts (sel h 109 105) = some n → n ≤ sel h 104 95
    let badSource : Prop := sk = true ∧ ∀ d, handleDecl ctx.decl handle = some d → d.slotRows < sel h 63 57
    let badGen : Prop := sk = true ∧ genDist c handle ≠ 0
    let refused (i : Instr) (y : Core) (cause : Nat) : Prop := MsgRefused i s op ctx y cause
    let popped := (c.pop nq (bit w 31)).pop sq (bit w 26)
    let failed (cause status : Nat) : Prop :=
      let token := mkToken 0 status 3 ctx.addr ctx.view handle
      (sk = false → refused (.send op) popped cause) ∧
      (sk = true → c.ni.tokens.length < 64 → c.ni.tokWait = [] →
        refused (.send op) { popped with ni := { c.ni with tokens := c.ni.tokens ++ [token] } } cause) ∧
      (sk = true → 64 ≤ c.ni.tokens.length ∨ c.ni.tokWait ≠ [] →
        refused (.send op) { popped with ni := { c.ni with tokWait := c.ni.tokWait ++ [token] } } cause)
    let poppedD := (c.pop nq (bit w 31)).pop vq (bit w 27)
    let sent (i : Instr) (y : Core) (t : TxMsg) : Prop := SlotLeaves i s op (passed ctx { y with ni := { c.ni with tx := c.ni.tx ++ [t] } })
    (Instr.wf (.send op) →
      (badForm 1 → failed 1 6) ∧
      (¬ badForm 1 → badLen → failed 2 1) ∧
      (¬ badForm 1 → ¬ badLen → badDest → failed 3 2) ∧
      (¬ badForm 1 → ¬ badLen → ¬ badDest → badSource → failed 4 2) ∧
      (¬ badForm 1 → ¬ badLen → ¬ badDest → ¬ badSource → badGen → failed 4 4) ∧
      (¬ badForm 1 → ¬ badLen → ¬ badDest → ¬ badSource → ¬ badGen → sent (.send op) popped
        { hdr := stamped, rows := [], addr := ctx.addr, handle := if sk then some handle else none
          row := if sk then none else some ((c.head sq).setWidth 4096) })) ∧
    (Instr.wf (.dowel op) →
      (badForm 2 → refused (.dowel op) poppedD 1) ∧
      (¬ badForm 2 → badDest → refused (.dowel op) poppedD 3) ∧
      (¬ badForm 2 → ¬ badDest → sent (.dowel op) poppedD
        { hdr := put stamped 63 0 (sel (c.head vq) 63 0), row := none, rows := [], handle := none, addr := ctx.addr
          due := ctx.cycle + 4 }))

/-- RECV, WOPEN, WCLOSE and UPD (R352 to R354, R358, R360, R446, R460): RECV on a ring entry places a request after those waiting; WOPEN
opens a window entry onto the handle's slot, also when it is open, and leaves it closed with cause 0xB when the handle names another
drawer, no declared slot or a later generation; WCLOSE closes it; on an entry of another kind each changes nothing and is a
MESSAGE_ERROR of cause 9. UPD hands the row and handle to the update unit, or is refused with cause 4 when the part has no update
entry or the handle no slot of two rows or more. -/
def Obligations.WindowsRequestsAndUpdates : Prop :=
  ∀ (s : State) (op : SlotOp) (ctx : Ctx), SlotRuns s.m op ctx →
    let c := slotCore s.m op
    let w := op.word
    let e := sel w 33 26
    let kind : Option Nat := (Tab.find ctx.decl.tags e).map (·.kind)
    let refused (i : Instr) (y : Core) (cause : Nat) : Prop := MsgRefused i s op ctx y cause
    let q := 28 + sel w 25 24
    let h : W32 := (c.head q).setWidth 32
    let y := c.pop q (bit w 23)
    let fits (d : Nat) : Prop := hDrawer h = d ∧ handleDecl ctx.decl h ≠ none ∧ genDist c h < 32768
    let uh : W32 := (c.head (28 + sel w 29 28)).setWidth 32
    let z := (c.pop (sel w 33 31) (bit w 30)).pop (28 + sel w 29 28) (bit w 27)
    let taken : Prop := (∃ p ∈ ctx.decl.tags, p.2.kind = 4) ∧ ∃ d, handleDecl ctx.decl uh = some d ∧ 2 ≤ d.slotRows
    let counted : Core := { z with upd := { c.upd with cnt := { c.upd.cnt with
      updRefused := c.upd.cnt.updRefused + 1
      sticky := c.upd.cnt.sticky ||| 2#32
      firstUpdError := if bit c.upd.cnt.firstUpdError 31 then c.upd.cnt.firstUpdError
        else BitVec.ofNat 32 (2 ^ 31 + 4 * 2 ^ 28 + 2 ^ 27 + ctx.pos % 2 ^ 24) } } }
    (Instr.wf (.recv op) → kind = some 2 → SlotLeaves (.recv op) s op (passed ctx { c with ni := { c.ni with
      recvs := c.ni.recvs ++ [{ entry := e, rq := sel w 25 23, hen := bit w 22, nq := sel w 21 20 }] } })) ∧
    (Instr.wf (.recv op) → kind ≠ some 2 → refused (.recv op) c 9) ∧
    (∀ t, Instr.wf (.wopen op) → Tab.find ctx.decl.tags e = some t → t.kind = 1 → fits (sel t.targ0 5 0) →
      SlotLeaves (.wopen op) s op (passed ctx { y with ni := { c.ni with windows := Tab.set c.ni.windows e h } })) ∧
    (∀ t, Instr.wf (.wopen op) → Tab.find ctx.decl.tags e = some t → t.kind = 1 → ¬ fits (sel t.targ0 5 0) →
      refused (.wopen op) { y with ni := { c.ni with windows := Tab.erase c.ni.windows e } } 0xB) ∧
    (Instr.wf (.wopen op) → kind ≠ some 1 → refused (.wopen op) y 9) ∧
    (Instr.wf (.wclose op) → kind = some 1 → SlotLeaves (.wclose op) s op
      (passed ctx { c with ni := { c.ni with windows := Tab.erase c.ni.windows e } })) ∧
    (Instr.wf (.wclose op) → kind ≠ some 1 → refused (.wclose op) c 9) ∧
    (Instr.wf (.upd op) → taken → ∃ j, SlotLeaves (.upd op) s op (passed ctx { z with upd := { c.upd with jobs := c.upd.jobs ++ [j] } }) ∧
      j = { upd := true, entry := j.entry, handle := uh, group := sel w 26 19, arg := 0, pos := ctx.pos
            rows := [(c.head (sel w 33 31)).setWidth 4096] } ∧
      (∃ t, (j.entry, t) ∈ ctx.decl.tags ∧ t.kind = 4)) ∧
    (Instr.wf (.upd op) → ¬ taken →
      let e : Eff := { core := passed ctx counted, ev := [{ code := 7, d0 := 4, d := ctx.core }] }
      exec (.upd op) s = .next { s with m := s.m.applyEff op.site e })

/-! ### The sequencer -/

/-- LOOP and BR (R214, R215): LOOP with SET sets its loop register and goes on; without SET it lowers it by one modulo 2^32 and goes to
TARGET unless it is then 0; BR goes to TARGET when its predicate, as written by positions up to n − 32, is set in any core, in every
core, or in none, as its condition asks, or always. A branch taken is counted. Nothing but the sequencer's own state changes. CURVE
and STEP (R223 to R226): STEP adds 1, or SARG when ADD is 1, to G, and word 0x7FC of every core holds the new G for operations from
the next position on; CURVE enters, for each of its groups, three words for every core, read from position n + 16 + 4k on: the group's
curves of eta, beta and lambda at G, 0.0 where the group has no knots. Both go on to the following address. -/
def Obligations.SequencerControl : Prop :=
  (∀ (s : State) (r : Fin 25) (scond : BitVec 4) (sarg : W32) (target : BitVec 15),
    let g := s.m.region r
    let n := scond.toNat % 8
    let v := g.seq.loops[n]?.getD 0 - 1
    let following := (g.seq.addr + 1) % 32768
    let goes (addr : Nat) (taken : Bool) (loops : Vector W32 8) (x : Region) : Region := { x with seq := { x.seq with
      addr := addr, wait := .none, loops := loops
      cnt := { x.seq.cnt with branches := if taken then x.seq.cnt.branches + 1 else x.seq.cnt.branches } } }
    let pred (site : Nat) : Prop := bit (regsAt (s.m.core site).cc.hist ((g.seq.pos : Int) - 32)).pred (sarg.toNat % 8) = true
    let taken : Prop := scond.toNat / 4 = 0 ∨ (scond.toNat / 4 = 1 ∧ ∃ x ∈ g.site, pred x) ∨
      (scond.toNat / 4 = 2 ∧ ∀ x ∈ g.site, pred x) ∨ (scond.toNat / 4 = 3 ∧ ∀ x ∈ g.site, ¬ pred x)
    MayIssue g →
      (Instr.wf (.loopSet r scond sarg target) →
        RegionLeaves (.loopSet r scond sarg target) s r (goes following false (g.seq.loops.setIfInBounds n sarg))) ∧
      (Instr.wf (.loop r scond sarg target) → v = 0 →
        RegionLeaves (.loop r scond sarg target) s r (goes following false (g.seq.loops.setIfInBounds n v))) ∧
      (Instr.wf (.loop r scond sarg target) → v ≠ 0 →
        RegionLeaves (.loop r scond sarg target) s r (goes target.toNat true (g.seq.loops.setIfInBounds n v))) ∧
      (Instr.wf (.br r scond sarg target) → taken →
        RegionLeaves (.br r scond sarg target) s r (goes target.toNat true g.seq.loops)) ∧
      (Instr.wf (.br r scond sarg target) → ¬ taken →
        RegionLeaves (.br r scond sarg target) s r (goes following false g.seq.loops))) ∧
  (∀ (s : State) (r : Fin 25) (scond : BitVec 4) (sarg : W32) (target : BitVec 15),
    let g := s.m.region r
    let following := (g.seq.addr + 1) % 32768
    let g' := g.seq.g + BitVec.ofNat 64 (if scond.toNat % 2 = 1 then sarg.toNat else 1)
    let first := sarg.toNat / 2 ^ 24
    let count := sarg.toNat / 2 ^ 16 % 256 + 1
    let base := sarg.toNat / 2 ^ 5 % 2048
    let words (c c' : Core) : Prop := c' = { c with cc := { c.cc with future := c'.cc.future } }
    MayIssue g →
      (Instr.wf (.step r scond sarg target) → ∃ t, exec (.step r scond sarg target) s = .next t ∧ RegionAndCores s t r words ∧
        t.m.region r = { g with seq := { g.seq with g := g', addr := following, wait := .none } } ∧
        (∀ x ∈ g.site, ∀ f, f ∈ (t.m.core x).cc.future ↔ f ∈ (s.m.core x).cc.future ∨ f = ⟨0x7FC, g.seq.pos + 1, g'⟩) ∧
        (∀ x ∉ g.site, t.m.core x = s.m.core x)) ∧
      (Instr.wf (.curve r scond sarg target) → ∃ t, exec (.curve r scond sarg target) s = .next t ∧ RegionAndCores s t r words ∧
        t.m.region r = { g with seq := { g.seq with addr := following, wait := .none } } ∧
        (∀ x ∈ g.site, ∀ f, f ∈ (t.m.core x).cc.future ↔ f ∈ (s.m.core x).cc.future ∨ ∃ k < count, ∃ j < 3,
          f = ⟨(base + 3 * k + j) % 2048, g.seq.pos + 16 + 4 * k,
               (evalCurve g.seq.g.toNat (knotsOf g.decl (first + k) (j + 1))).setWidth 64⟩) ∧
        (∀ x ∉ g.site, t.m.core x = s.m.core x)))

/-- The arrival at a kerf (R50, R55, R216, R220, R241): a KERF or PREEMPT_POINT that ends a pending interval holds its bundle and counts a
kerf; when the view has passed the target, an overrun is counted, the largest kept, and TICK_VOID set. A PREEMPT_POINT with a pre-
emption pending waits for it before anything else. A kerf interval begins (R71, R216, R217, R220, R244, R474): with no interval
pending, or at a PREEMPT_POINT where a resumed gang issues again, a KERF or PREEMPT_POINT issues without waiting; it takes a digest
boundary and, unless SARG is 0, begins an interval whose target is the kerf base plus SARG in ticks, or plus SARG · 12 / N in the step
applied now. A length or form that its energy entry does not declare is counted. -/
def Obligations.KerfHoldsAndBegins : Prop :=
  (∀ (s : State) (r : Fin 25) (scond : BitVec 4) (sarg : W32) (target : BitVec 15) (iv : Interval),
    let g := s.m.region r
    let late := g.ticks - iv.target
    let arrived (x : Region) : Prop :=
      let y : Region := { g with seq := { g.seq with wait := .kerf }, time := x.time, ev := x.ev
                                 run := { g.run with tickVoid := x.run.tickVoid } }
      x = y ∧
      x.time = { g.time with kerfCount := bump48 g.time.kerfCount 1
                             kerfOverruns := if 0 < late then bump48 g.time.kerfOverruns 1 else g.time.kerfOverruns
                             kerfOverrunMax := if 0 < late then max32 g.time.kerfOverrunMax late else g.time.kerfOverrunMax } ∧
      (0 < late → x.run.tickVoid = true) ∧ (late = 0 → x.ev = g.ev) ∧
      (late = 0 → (s.m.changeDue r && !g.ack) = false → x.run.tickVoid = g.run.tickVoid)
    let arrives (i : Instr) : Prop := ∃ x, exec i s = .next { s with m := s.m.setRegion r x } ∧ arrived x
    MayIssue g →
      (Instr.wf (.kerf r scond sarg target) → g.seq.interval = some iv → arrives (.kerf r scond sarg target)) ∧
      (Instr.wf (.preemptPoint r scond sarg target) → g.seq.interval = some iv → g.seq.resumeIssue = false →
        g.run.preempting = false → arrives (.preemptPoint r scond sarg target)) ∧
      (Instr.wf (.preemptPoint r scond sarg target) → g.run.preempting = true → g.seq.resumeIssue = false →
        RegionLeaves (.preemptPoint r scond sarg target) s r (fun x => { x with seq := { x.seq with wait := .preempt } }))) ∧
  (∀ (s : State) (r : Fin 25) (scond : BitVec 4) (sarg : W32) (target : BitVec 15),
    let g := s.m.region r
    let ticks : Bool := decide (scond.toNat % 2 = 1)
    let e := target.toNat / 128
    let length := if ticks then sarg.toNat else sarg.toNat * 12 / stepN g.step
    let declared : Prop := ∃ x, g.decl.energy[e]? = some x ∧ x.interval = sarg.toNat ∧ x.ticks = ticks
    let begins (i : Instr) : Prop := ∃ t, exec i s = .next t ∧
      RegionAndCores s t r (fun c c' => c' = { c with dig := c'.dig }) ∧
      let x := t.m.region r
      x.seq = { g.seq with
        addr := (g.seq.addr + 1) % 32768, wait := .none, resumeIssue := false
        interval := if sarg = 0 then none else some { ticks := ticks, len := sarg.toNat, eclass := e, target := g.seq.kerfBase + length } } ∧
      x.dig.boundaries = g.dig.boundaries + 1 ∧
      (sarg ≠ 0 → ¬ declared → x.declMismatches = g.declMismatches + 1) ∧
      (sarg = 0 ∨ declared → x.declMismatches = g.declMismatches) ∧
      x.run = g.run ∧ x.eng = g.eng ∧ x.time = g.time ∧ x.view = g.view ∧ x.step = g.step ∧ x.decl = g.decl ∧ x.ev = g.ev
    MayIssue g → g.dig.pending.length < 4 →
      (Instr.wf (.kerf r scond sarg target) → g.seq.interval = none → begins (.kerf r scond sarg target)) ∧
      (Instr.wf (.preemptPoint r scond sarg target) → g.seq.resumeIssue = true ∨ (g.run.preempting = false ∧ g.seq.interval = none) →
        begins (.preemptPoint r scond sarg target)))

/-- The release of a kerf, and of a gang's first bundle and a launch (R49 to R51, R53, R583, R590): at or after its target, and with no
committed change due and unapplied, the gang is released and its kerf base is the target, never the tick of release; measured energy
more than 3% above the declared is counted. In throughput mode, with no staged change and no ceiling, the governor then moves the
step: down one at 95 °C or above or when gauge warnings exceed one cycle in 1,024, up one below 90 °C with none, within floor and
admitted step. A gang's first bundle is released at the run base, a launch at its target. LAUNCH and STOCK (R53, R55, R221, R222,
R465): a LAUNCH whose target, the kerf base plus SARG, lies ahead holds its bundle; in its tick, or once released, it goes on; late,
it goes on, counted, with TICK_VOID set. STOCK hands the engine its descriptors in order, each with the loop register's value when LEN
is 1, or waits for room, which sets CYCLE_VOID. -/
def Obligations.ReleasesAndLaunches : Prop :=
  (∀ (s : State) (r : Fin 25),
    let g := s.m.region r
    let runs : Prop := g.run.running = true ∧ g.dom = .awake ∧ g.viewValid = true ∧ g.switching = 0 ∧ g.seq.stopping = none
    let hot : Prop := 9500 ≤ g.tmaxInterval ∨ g.cyclesInterval < g.warnInterval * 1024
    let cool : Prop := g.tmaxInterval < 9000 ∧ g.warnInterval = 0
    (∀ (energy : W32) (iv : Interval), runs → g.seq.wait = .kerf → g.seq.interval = some iv → iv.target ≤ g.ticks →
      s.m.changeDue r = false → ∃ t, exec (.kerfRelease r energy) s = .next t ∧
        let x := t.m.region r
        let e := match g.decl.energy[iv.eclass]? with
          | some d => d.energy.getD (g.step - 1) 0
          | none => 0
        t = { s with m := { s.m with regions := t.m.regions, power := t.m.power } } ∧ (∀ k, k ≠ r.val → t.m.region k = s.m.region k) ∧
        x = { g with step := x.step, switching := x.switching, declOverruns := x.declOverruns
                     seq := { g.seq with kerfBase := iv.target, interval := none, wait := .none } } ∧
        x.declOverruns = (if 103 * e < 100 * energy.toNat then g.declOverruns + 1 else g.declOverruns) ∧
        (g.step ≠ x.step → x.switching = 2) ∧
        (g.pendingChange = true ∨ (s.m.emerg r).ceiling ≠ 15 → x.step = g.step) ∧
        (g.pendingChange = false → (s.m.emerg r).ceiling = 15 → g.reprMode = false → r.val ∉ s.m.power.governorDown → g.step ≠ 0 →
          (hot → x.step = if max 1 g.decl.floor < g.step then g.step - 1 else g.step) ∧
          (cool → x.step = if g.step < g.run.admitted then g.step + 1 else g.step) ∧
          (¬ hot → ¬ cool → x.step = g.step))) ∧
    (runs → g.seq.wait = .first → g.seq.kerfBase ≤ g.ticks →
      RegionLeaves (.gangFirstRelease r) s r (fun x => { x with seq := { x.seq with wait := .none } })) ∧
    (∀ b, runs → g.seq.wait = .launch b → b ≤ g.ticks →
      RegionLeaves (.launchRelease r) s r (fun x => { x with seq := { x.seq with wait := .ready } })) ∧
    (runs → g.seq.wait = .first → g.ticks < g.seq.kerfBase → exec (.gangFirstRelease r) s = .next s)) ∧
  (∀ (s : State) (r : Fin 25) (scond : BitVec 4) (sarg : W32) (target : BitVec 15),
    let g := s.m.region r
    let at_ := g.seq.kerfBase + sarg.toNat
    let following := (g.seq.addr + 1) % 32768
    let first := sarg.toNat / 2 ^ 17
    let count := sarg.toNat / 2 ^ 9 % 256 + 1
    let v : W32 := if scond.toNat % 2 = 1 then g.seq.loops[sarg.toNat / 2 ^ 6 % 8]?.getD 0 else 0
    let on (x : Region) : Region := { x with seq := { x.seq with addr := following, wait := .none } }
    MayIssue g →
      (Instr.wf (.launch r scond sarg target) → g.seq.wait ≠ .ready → g.ticks < at_ →
        RegionLeaves (.launch r scond sarg target) s r (fun x => { x with seq := { x.seq with wait := .launch at_ } })) ∧
      (Instr.wf (.launch r scond sarg target) → g.seq.wait = .ready ∨ at_ = g.ticks →
        RegionLeaves (.launch r scond sarg target) s r on) ∧
      (Instr.wf (.launch r scond sarg target) → g.seq.wait ≠ .ready → at_ < g.ticks →
        RegionLeaves (.launch r scond sarg target) s r (fun x => on { x with
          time := { x.time with launchLate := bump48 x.time.launchLate 1 }, run := { x.run with tickVoid := true } })) ∧
      (Instr.wf (.stock r scond sarg target) → g.eng.queue.length + count ≤ 2048 → ∃ ds : List DescIn,
        RegionLeaves (.stock r scond sarg target) s r (fun x => on { x with eng := { x.eng with queue := x.eng.queue ++ ds } }) ∧
        ds.length = count ∧ ∀ k < count, ds[k]? = some { addr := first + k, desc := g.decl.bundles.get (first + k), v := v, exec := g.seq.pos }) ∧
      (Instr.wf (.stock r scond sarg target) → 2048 < g.eng.queue.length + count →
        RegionLeaves (.stock r scond sarg target) s r (fun x => { x with
          seq := { x.seq with wait := .stock }, run := { x.run with cycleVoid := true } })))

/-- BUNDLE_ISSUE (R197, R198, R200, R228, R229): a bundle with no header operation and no encoding fault is issued: it takes the position,
which rises by one, and is due to execute 12 cycles later; a repeat keeps its address, the last goes on to the following one. A bundle
that Table 6.16 or R126 faults is not issued, and the gang stops with ENCODING_FAULT; one with an uncorrectable error in the bundle
store stops it with status 4, the event SRAM_UNCORRECTABLE raised with the bundle's address (Table 17.6). The check stage and the gang
hold (R98, R100 to R102, R106, R465): six cycles or less before its execution the oldest unchecked bundle is checked in every core of
the gang, and its ready cycle is the latest of the ready cycles of the unmet conditions, unknown while one of them is; an external
condition sets CYCLE_VOID. GANG_HOLD_RELEASE gives a bundle held with an unknown ready cycle one, six cycles ahead or later, once
every condition's is known. Nothing else changes. -/
def Obligations.BundlesIssueAndCheck : Prop :=
  (∀ (s : State) (r : Fin 25) (err : SramErr),
    let g := s.m.region r
    let b := g.decl.bundles.get g.seq.addr
    let more := g.seq.repDone < bRep b
    let bad : Prop := bundleBad g.decl g.seq.addr b = true ∨
      ∃ p, g.seq.lastMmulBf16 = some p ∧ g.seq.pos ≤ p + 3 ∧ (bundleMmul b = true ∨ bundleAcc b = true)
    MayIssue g →
      (err ≠ .uncorrectable → ¬ bad → bSop b = 0 → g.run.stalled = false → g.trace.on = false →
        RegionLeaves (.bundleIssue r err) s r (fun x => { x with
          run := { x.run with issuedThisMark := true, heldMarks := 0, stalled := false }
          seq := { x.seq with
            pipe := x.seq.pipe ++ [{ addr := x.seq.addr, pos := x.seq.pos, bundle := b, sched := x.cycle + 12 }]
            pos := x.seq.pos + 1, wait := .none
            addr := if more then x.seq.addr else (x.seq.addr + 1) % 32768
            repDone := if more then x.seq.repDone + 1 else 0
            lastMmulBf16 := if bundleMmulBf16 b then some x.seq.pos else x.seq.lastMmulBf16
            cnt := { x.seq.cnt with issued := bump48 x.seq.cnt.issued 1 } } })) ∧
      (err ≠ .uncorrectable → bad →
        RegionLeaves (.bundleIssue r err) s r (fun x => { x with seq := { x.seq with stopping := some 2 } })) ∧
      (err = .uncorrectable →
        let m' := s.m.onRegion r (fun x => { x with seq := { x.seq with stopping := some 4 } })
        exec (.bundleIssue r err) s = .next { s with m := raiseEvent 8 r 1 g.run.gang 0xFFFF (2 ^ 63 + g.seq.addr) 0 m' })) ∧
  (∀ (s : State) (r : Fin 25) (b : Issued) (rest : List Issued),
    let g := s.m.region r
    let latest (target : Nat) (hs : List Hold) (t : Option Nat) : Prop :=
      (t = none ↔ ∃ h ∈ hs, h.ready = none) ∧
      ∀ k, t = some k → target ≤ k ∧ (∀ h ∈ hs, ∀ j, h.ready = some j → j ≤ k) ∧ (k = target ∨ ∃ h ∈ hs, h.ready = some k)
    let marked (t : Option Nat) (x : Region) : Region := { x with seq := { x.seq with
      pipe := x.seq.pipe.map (fun y => if y.pos = b.pos then { y with ready := some t } else y) } }
    g.run.running = true → g.seq.pipe = b :: rest →
      (b.ready = none → max b.sched g.cycle ≤ g.cycle + 6 →
        let hs := s.m.checkAll r (max b.sched g.cycle) [] b
        ∃ t, latest (max b.sched g.cycle) hs t ∧
          ((∀ h ∈ hs, Hold.external h = false) → RegionLeaves (.checkStage r) s r (marked t)) ∧
          ((∃ h ∈ hs, Hold.external h = true) → RegionLeaves (.checkStage r) s r (fun x =>
            { marked t x with run := { x.run with cycleVoid := true } }))) ∧
      (b.ready = some none →
        let target := max b.sched (g.cycle + 6)
        let hs := s.m.checkAll r target [] b
        ((∀ h ∈ hs, h.ready ≠ none) → ∃ k, latest target hs (some k) ∧ RegionLeaves (.gangHoldRelease r) s r (marked (some k))) ∧
        ((∃ h ∈ hs, h.ready = none) → exec (.gangHoldRelease r) s = .next s)))

/-- END and the end of a gang (R227, R246 to R248, R90, R317, R474): END issues with a digest boundary, and nothing issues after it. Once
issue has stopped, every issued bundle has executed and every operation has completed, GANG_END ends the gang with its status: its
cores' queue entries are discarded and counted, its tokens, requests and waits discarded, and its result kept. When its work is
settled GANG_SETTLED raises GANG_DONE with the status and the position of the last bundle issued. A pre-emption and a resume complete
together for every part (R241 to R244, R371, R372, R503, R524): once every part waits at its PREEMPT_POINT, quiescent, PREEMPT_SAVE
saves them all, each core and the sequencer, ends each with PREEMPTED, marks the placement and completes GANG_PREEMPT with status 0.
GANG_RESUME_DONE completes GANG_RESUME with the run base once every part runs and has issued its PREEMPT_POINT, and with E_STATE when
one no longer runs. -/
def Obligations.GangsEndAndPreempt : Prop :=
  (∀ (s : State) (r : Fin 25),
    let g := s.m.region r
    (∀ (scond : BitVec 4) (sarg : W32) (target : BitVec 15), MayIssue g → Instr.wf (.endOp r scond sarg target) →
      g.dig.pending.length < 4 → ∃ t, exec (.endOp r scond sarg target) s = .next t ∧
        RegionAndCores s t r (fun c c' => c' = { c with dig := c'.dig }) ∧
        (t.m.region r).seq = { g.seq with stopping := some 0, addr := (g.seq.addr + 1) % 32768, wait := .none } ∧
        (t.m.region r).dig.boundaries = g.dig.boundaries + 1 ∧ (t.m.region r).run = g.run) ∧
    (∀ st, g.run.running = true → g.seq.stopping = some st → g.seq.pipe = [] → (∀ x ∈ g.site, coreIdle (s.m.core x) = true) →
      ∃ t, exec (.gangEnd r) s = .next t ∧
        (t.m.region r).run = { g.run with running := false, ended := true, settled := false, status := st, preempting := false
                                          heldMarks := 0, stalled := false } ∧
        (t.m.region r).eng.queue = [] ∧ (t.m.region r).seq.pipe = [] ∧ (t.m.region r).seq.stopping = none ∧
        (∀ x ∈ g.site, let c := s.m.core x
          let c' := t.m.core x
          c'.queues = [] ∧ c'.stall.leftover = c.stall.leftover + BitVec.ofNat 32 ((c.queues.map (fun q => q.2.entries.length)).sum) ∧
          c'.ni.tokens = [] ∧ c'.ni.tokWait = [] ∧ c'.ni.recvs = [] ∧ c'.ni.monitor = none ∧ c'.sp.rows = c.sp.rows ∧ c'.arr = c.arr) ∧
        (∀ k, k ≠ r.val → (t.m.region k).run = { (s.m.region k).run with preempting := (t.m.region k).run.preempting })) ∧
    (g.run.gang ≠ 0 → g.run.running = false → g.run.settled = false → workSettled r s.m = true →
      let m' := s.m.onRegion r (fun x => { x with run := { x.run with settled := true } })
      let flags := if g.run.interlocked.isSome then 1 else 0
      let last := (BitVec.ofNat 64 (g.seq.pos - 1)).toNat
      exec (.gangSettled r) s = .next { s with m := raiseEvent 0x0F r 1 g.run.gang g.run.status last flags m' })) ∧
  (∀ (s : State),
    (∀ (g0 : W16) (p : Placement) (j : Job), s.m.placement g0.toNat = some p → j ∈ s.m.jobs → j.kind = .preempt g0.toNat →
      (p.gangs.all (partQuiescent s.m)) = true → (p.gangs.map (·.region)).Nodup → ((p.gangs.map (·.id)).Nodup) →
      (∀ p' ∈ s.m.placements, p'.g0 = p.g0 ∨ ∀ x ∈ p'.gangs, ∀ y ∈ p.gangs, x.id ≠ y.id) →
      (∀ x ∈ p.gangs, ∀ y ∈ p.gangs, x.id ≠ y.id → ∀ z ∈ (s.m.region x.region).site, z ∉ (s.m.region y.region).site) →
      ∃ t, exec (.preemptSave g0) s = .next t ∧ t.m.jobs.length < s.m.jobs.length ∧
        ∀ x ∈ p.gangs, let g := s.m.region x.region
          let g' := t.m.region x.region
          g'.run = { g.run with running := false, ended := true, status := 7, preempting := false, heldMarks := 0, stalled := false } ∧
          g'.seq.cnt.preemptions = g.seq.cnt.preemptions + 1 ∧
          (∃ p' ∈ t.m.placements, p'.g0 = g0.toNat ∧ p'.preempted = true ∧ ∃ y ∈ p'.gangs, y.id = x.id ∧ y.status = 7 ∧ y.running = false ∧
            y.saved = some { seq := g.seq, dig := g.dig, cores := g.site.map s.m.core }) ∧
          (∀ z ∈ g.site, (t.m.core z).queues = [] ∧ (t.m.core z).ni.tokens = [] ∧ (t.m.core z).ni.recvs = [])) ∧
    (∀ (mb : Fin 31) (j : Job) (g0 : Nat) (base : W64),
      s.m.jobs.find? (fun x => x.mb == mb.val && (match x.kind with
        | .resume .. => true
        | _ => false)) = some j → j.kind = .resume g0 base →
      (∀ p, s.m.placement g0 = some p → (∀ x ∈ p.gangs, x.running = true ∧ (s.m.region x.region).seq.resumeIssue = false) →
        exec (.gangResumeDone mb) s = .next { s with m := completeJob j 0 (bytesOf base 8) s.m }) ∧
      (∀ p, s.m.placement g0 = some p → (∃ x ∈ p.gangs, x.running = false) →
        exec (.gangResumeDone mb) s = .next { s with m := completeJob j 0x010A [] s.m }) ∧
      (∀ p, s.m.placement g0 = some p → (∀ x ∈ p.gangs, x.running = true) →
        (∃ x ∈ p.gangs, (s.m.region x.region).seq.resumeIssue = true) → exec (.gangResumeDone mb) s = .next s)))

/-! ### Stock -/

/-- DESCRIPTOR_TAKE (R299 to R304, Table 8.3, Table 8.4): the oldest descriptor leaves the queue and is counted. One that passes the
checks, made in the table's order, begins a job with LEN rows for each core and is divided into transfers of at most 128 rows, one for
all cores of a multicast LOAD and else one per core, at SA + k · CSTRIDE ± v · LSTRIDE modulo 2^48. One that fails a check moves no
data: each core of its range that the part declares is owed a token with the check's status, and the rejection is counted, recorded
and raised. TRANSFER_ISSUE and WHEEL_PERIOD (R306, R310, R318, R320): the oldest transfer without a tag takes one while fewer than 512
are held and no earlier transfer of the engine shares a chunk with it, one of the two being a STORE; a LOAD's chunks join the requests
at their interfaces. In a period with no host traffic the interface starts the oldest request of the region its wheel entry names, or
of the next named region with one waiting, and goes on to the next entry. -/
def Obligations.StockTransfersBegin : Prop :=
  (∀ (s : State) (r : Fin 25) (x : DescIn) (q : List DescIn),
    let g := s.m.region r
    let e := g.eng
    let d := x.desc
    let f (o k : Nat) : Nat := sel d (8 * (o + k) - 1) (8 * o)
    let dop := f 0 1
    let slots := bit d 8
    let len := f 2 2
    let first := f 4 2
    let count := f 6 2
    let stride := f 0x10 4
    let target := f 0x20 4
    let v := if bit d 9 then x.v.toNat else 0
    let signed (a b : Nat) : Int := if bit d 10 then (a : Int) - b else (a : Int) + b
    let address (k : Nat) : Nat := ((signed (f 8 6 + k * stride) (v * f 0x18 6)).emod (2 ^ 48)).toNat
    let index : Nat := ((signed (f 0x24 4) v).emod (2 ^ 32)).toNat
    let drawer := Tab.find g.decl.drawers (target / 2 ^ 26)
    let slotCount := match drawer with
      | some z => max 1 z.slotCount
      | none => 1
    let key : W32 := if slots then mkHandle (target / 2 ^ 26) (index % slotCount) (index / slotCount) else BitVec.ofNat 32 (f 0x24 4)
    let badForm : Prop := dop = 0 ∨ 2 < dop ∨ sel d 15 11 ≠ 0 ∨ f 0x0E 2 ≠ 0 ∨ f 0x14 4 ≠ 0 ∨ f 0x1E 2 ≠ 0 ∨ f 0x28 24 ≠ 0 ∨
      (if slots then target / 2 ^ 11 % 2 ^ 15 else target / 2 ^ 14) ≠ 0 ∨ (dop = 2 ∧ stride = 0 ∧ 1 < count)
    let badCores : Prop := count = 0 ∨ g.decl.cores < first + count
    let badTarget : Prop := if slots then ∀ z, drawer = some z → z.slotRows < target % 2 ^ 11 + len else 16384 < target % 2 ^ 14 + len
    let badPage : Prop := ∃ k < (if stride = 0 then 1 else count), s.m.rangeOk g.run.session (address k) (512 * len) false (dop = 2) = false
    let badAddress : Prop := f 8 6 % 512 ≠ 0 ∨ stride % 512 ≠ 0 ∨ f 0x18 6 % 512 ≠ 0 ∨ badPage
    let multicast := dop = 1 ∧ stride = 0
    let transfer (k core n j : Nat) : Xfer :=
      { id := 0, store := dop = 2, sa := (address k + 65536 * j) % 2 ^ 48, cstride := stride, left := min 128 (len - 128 * j) * n
        pieces := [{ desc := e.nextId, core := core, count := n, row := 128 * j, rows := min 128 (len - 128 * j) }] }
    let cores := (List.range count).filterMap (fun k => if first + k < g.decl.cores then some (first + k) else none)
    let job (kind : Nat) (left status : Tab Nat) : DescJob :=
      { id := e.nextId, addr := x.addr, store := dop = 2, tmode := slots, handle := key, key := key, exec := x.exec, kind := kind
        row0 := if slots then target % 2 ^ 11 else target % 2 ^ 14, left := left, status := status, pending := cores }
    let only (t : State) : Prop := t = { s with m := { s.m with regions := t.m.regions } } ∧ ∀ k, k ≠ r.val → t.m.region k = s.m.region k
    let rejected (st : Nat) : Prop := ∃ t, exec (.descriptorTake r) s = .next t ∧ only t ∧
      let e' := (t.m.region r).eng
      e' = { e with
        queue := q, nextId := e.nextId + 1
        jobs := if cores = [] then e.jobs else e.jobs ++ [job (if dop = 1 ∨ dop = 2 then dop else 0) [] (cores.map (fun c => (c, st)))]
        cnt := { e.cnt with
          descriptors := bump48 e.cnt.descriptors 1, descErrors := e.cnt.descErrors + 1
          firstDescError := if bit e.cnt.firstDescError 31 then e.cnt.firstDescError
            else BitVec.ofNat 32 (2 ^ 31 + st * 2 ^ 27 + x.addr) } }
    e.queue = x :: q → s.m.aon.state ≠ .safeHold →
      (badForm → rejected 6) ∧
      (¬ badForm → len = 0 → rejected 1) ∧
      (¬ badForm → len ≠ 0 → badCores ∨ badTarget → rejected 2) ∧
      (¬ badForm → len ≠ 0 → ¬ badCores → ¬ badTarget → badAddress → rejected 3) ∧
      (¬ badForm → len ≠ 0 → ¬ badCores → ¬ badTarget → ¬ badAddress → ∃ t, exec (.descriptorTake r) s = .next t ∧ only t ∧
        let e' := (t.m.region r).eng
        e'.queue = q ∧ e'.landing = e.landing ∧ e'.stores = e.stores ∧ e'.cnt.descriptors = bump48 e.cnt.descriptors 1 ∧
        e'.jobs = e.jobs ++ [job dop (cores.map (fun c => (c, len))) []] ∧
        (e.xfers = [] → e'.xfers.map (fun y => { y with id := 0 }) =
          (if multicast then [(0, first, count)] else (List.range count).map (fun k => (k, first + k, 1))).flatMap
            (fun p => (List.range ((len + 127) / 128)).map (transfer p.1 p.2.1 p.2.2))))) ∧
  (∀ (s : State),
    (∀ (r : Fin 25) (x : Xfer), let g := s.m.region r
      let y : Xfer → Xfer := fun z => if z.id = x.id then { z with tagged := true, tick0 := g.ticks } else z
      g.eng.xfers.find? (fun z => !z.tagged) = some x → (g.eng.xfers.filter (·.tagged)).length < 512 →
      (∀ z ∈ g.eng.xfers, z.id < x.id → x.store = true ∨ z.store = true → ∀ k ∈ z.chunks, k ∉ x.chunks) →
      ∃ t, exec (.transferIssue r) s = .next t ∧
        t = { s with m := { s.m with regions := t.m.regions, stock := { s.m.stock with ifaces := t.m.stock.ifaces } } } ∧
        (∀ k, k ≠ r.val → t.m.region k = s.m.region k) ∧
        (t.m.region r).eng = { g.eng with
          xfers := g.eng.xfers.map y
          cnt := { g.eng.cnt with transfers := bump48 g.eng.cnt.transfers 1
                                  tagsMax := max32 g.eng.cnt.tagsMax ((g.eng.xfers.map y).filter (·.tagged)).length } } ∧
        ∀ i, let own := x.chunks.filter (fun k => !x.store && s.m.chunkAt g.run.session k == i)
          let asked : List ChunkReq := own.map (fun k => { region := r, xfer := x.id, chunk := k, store := false })
          t.m.iface i = { s.m.iface i with waiting := (s.m.iface i).waiting ++ asked }) ∧
    (∀ (i : Fin 256) (q : ChunkReq) (n : Nat), let x := s.m.iface i
      let w := s.m.stock.wheel
      s.m.stock.selfRefresh = false → w ≠ [] → hostWaiting s.m i = none → n < w.length →
      x.waiting.find? (fun z => z.region == w.getD ((x.pos % w.length + n) % w.length) 0) = some q →
      (∀ k < n, ∀ z ∈ x.waiting, z.region ≠ w.getD ((x.pos % w.length + k) % w.length) 0) →
      ∃ t, exec (.wheelPeriod i) s = .next t ∧
        t = { s with m := { s.m with stock := { s.m.stock with ifaces := t.m.stock.ifaces } } } ∧
        (∀ k, k ≠ i.val → t.m.iface k = s.m.iface k) ∧
        let y := t.m.iface i
        y.pos = (x.pos + 1) % w.length ∧ y.waiting = x.waiting.erase q ∧ y.started = x.started ++ [q] ∧ y.held = x.held))

/-- CHUNK_ACCESS and PAGE_SERVICE (R291, R302, R307, R311, R325, R326): the oldest started request is carried out whole. A LOAD's rows in
the chunk go on their way to every core served, as read, or as zeros when the chunk is uncorrectable; a STORE's rows are written in
order and no other chunk changes; on a page that is not resident the request is held. PAGE_SERVICE reads the page's 2 MiB from its
host backing into a free physical page, makes it resident, and releases what waits for it. -/
def Obligations.ChunksAndPagesMove : Prop :=
  ∀ (s : State),
    (∀ (i : Fin 256) (retries : Fin 3) (fail : Bool) (q : ChunkReq) (rest : List ChunkReq) (x : Xfer),
      let g := s.m.region q.region
      let k := saChunk (s.m.reqPte q) (q.chunk * 1024)
      (s.m.iface i).started = q :: rest → s.m.stock.selfRefresh = false → g.eng.xfer q.xfer = some x →
      ∃ t, exec (.chunkAccess i retries fail) s = .next t ∧ (t.m.iface i).started = rest ∧
        let e := (t.m.region q.region).eng
        (pteResident (s.m.reqPte q) = false →
          (t.m.iface i).held = (s.m.iface i).held ++ [q] ∧ t.m.stock.mem = s.m.stock.mem ∧ e.landing = g.eng.landing) ∧
        (pteResident (s.m.reqPte q) = true → q.store = false → t.m.stock.mem = s.m.stock.mem ∧
          ∃ rows, e.landing = g.eng.landing ++ rows ∧ ∀ l, l ∈ rows ↔ ∃ n < x.len, ∃ p idx c,
            (x.sa + 512 * n) % 2 ^ 48 / 1024 = q.chunk ∧ pieceAt x.pieces n = some (p, idx) ∧ c < p.count ∧
            l = { desc := p.desc, xfer := x.id, core := p.core + c, idx := idx
                  val := if fail then 0 else elem 4096 (s.m.stock.mem.get k) ((x.sa + 512 * n) % 2 ^ 48 % 1024 / 512) }) ∧
        (pteResident (s.m.reqPte q) = true → q.store = true → (∀ j, j ≠ k → t.m.stock.mem.get j = s.m.stock.mem.get j) ∧
          (fail = false → t.m.stock.mem.get k =
            (s.m.storeRows q).foldl (fun v y => setChunkRow v y.sa y.val) (s.m.stock.mem.get k)))) ∧
    (∀ (session : W16) (page : BitVec 27) (p a : Nat), let e := s.m.pte session.toNat page.toNat
      pteValid e = true → pteResident e = false → ptePageable e = true → pageFor s.m e = some p →
      s.m.backing session.toNat e = some a →
      ∃ t, exec (.pageService session page) s = .next t ∧
        let e' := t.m.pte session.toNat page.toNat
        pteResident e' = true ∧ pteValid e' = true ∧ pteDirty e' = false ∧ ptePage e' = p ∧
        (∀ j < 2048, t.m.stock.mem.get (pageChunk p j) = chunkOf (s.m.host.mem.bytes (a + 1024 * j) 1024)) ∧
        ∀ i q, q ∈ (s.m.iface i).held → (s.m.region q.region).run.session = session.toNat → q.chunk / 2048 = page.toNat →
          q ∈ (t.m.iface i).waiting ∧ q ∉ (t.m.iface i).held)

/-- Rows land and STOREs read (R253 to R256, R261, R275, R307 to R309, R312): LANDING_ROW moves a core's oldest row of a transfer into its
landing buffer while that holds fewer than 32, a row for loose memory at its row, a row for a slot at the slot's row with its mark;
LANDING_PORT_SERVICE writes the oldest request to a free bank at once and counts it; STORE_ROW_READ reads a STORE's next row;
TOKEN_PLACED places a finished descriptor's token, with its rows, status and key, in the core's buffer. -/
def Obligations.LandingAndTokens : Prop :=
  ∀ (s : State),
    (∀ (site : Fin 25600) (k : Nat) (l : LandRow) (j : DescJob), let r := siteRegion site
      let g := s.m.region r
      let c := s.m.core site
      let o := j.row0 + l.idx
      g.coreOf site = some k → c.sp.landing.length < 32 → nextLand g k c = some (l, j) →
      (j.tmode = true → (checkHandle g.decl c j.handle o).1 = 0 ∧ genDist c j.handle = 0) →
      ∃ t, exec (.landingRow site false) s = .next t ∧ (t.m.region r).eng.landing = g.eng.landing.erase l ∧
        t.m.core site = { c with sp := { c.sp with landing := c.sp.landing ++ [
          if j.tmode then { row := (checkHandle g.decl c j.handle o).2, val := l.val, src := some (l.desc, l.xfer)
                            mark := some { drawer := hDrawer j.handle, slot := hSlot j.handle, gen := BitVec.ofNat 16 (hGen j.handle), off := o } }
          else { row := o % 16384, val := l.val, src := some (l.desc, l.xfer), mark := none }] } }) ∧
    (∀ (site : Fin 25600) (k : Nat) (q : LandReq) (rest : List LandReq), let g := s.m.region (siteRegion site)
      let c := s.m.core site
      g.coreOf site = some k → c.sp.landing = q :: rest → c.sp.landUsed < 3 → bankOf q.row ∉ c.sp.progBanks →
      bankOf q.row ∉ c.sp.landBanks → rowGated g.decl q.row = false →
      ∃ t, exec (.landingPortService site) s = .next t ∧ (t.m.core site).sp.rows.get q.row = q.val ∧
        (t.m.core site).sp.landing.length < c.sp.landing.length ∧ (t.m.core site).sp.landUsed ≤ 3) ∧
    (∀ (r : Fin 25) (x : Xfer) (p : XferPiece) (idx : Nat) (j : DescJob), let g := s.m.region r
      let site := g.siteOf p.core
      let c := s.m.core site
      let row := if j.tmode then (checkHandle g.decl c j.handle (j.row0 + idx)).2 else (j.row0 + idx) % 16384
      nextStoreRow g = some (x, p, idx, j) → (j.tmode = true → genDist c j.handle = 0) →
      c.sp.landUsed < 3 → bankOf row ∉ c.sp.progBanks → bankOf row ∉ c.sp.landBanks → rowGated g.decl row = false →
      ∃ t, exec (.storeRowRead r .ok) s = .next t ∧
        (t.m.region r).eng.stores = g.eng.stores ++ [{ xfer := x.id, sa := (x.sa + 512 * x.read) % 2 ^ 48, val := c.sp.rows.get row }] ∧
        (t.m.core site).sp.cnt.landingRows = bump48 c.sp.cnt.landingRows 1 ∧ (t.m.core site).sp.rows = c.sp.rows) ∧
    (∀ (r : Fin 25) (j : DescJob) (c : Nat), let g := s.m.region r
      nextToken s.m r = some (j, c) → g.run.running = true →
      ∃ t, exec (.tokenPlaced r) s = .next t ∧ (t.m.core (g.siteOf c)).ni.tokens = (s.m.core (g.siteOf c)).ni.tokens ++
        [mkToken (Tab.get j.rows c 0) (Tab.get j.status c 0) j.kind j.addr g.ticks j.key])

/-! ### The mesh and the landing port -/

/-- MESSAGE_TRANSMIT (R338, R341 to R343, R381): the oldest message of a transmit list, once it may leave and when its destination is
known, enters its router's local input as a header flit and eight flits a row; a slot's rows are read as they lie, with a token of
KIND 3 placed for the sender; it is counted as sent and keeps its place in the list until its last flit has left. -/
def Obligations.MessageEntersMesh : Prop :=
  ∀ (s : State) (site : Fin 25600) (t : TxMsg) (rest : List TxMsg) (dst : Nat) (egress : Option (Nat × Nat)) (dgang : Nat),
    let g := s.m.region (siteRegion site)
    let c := s.m.core site
    let ch := sel t.hdr 124 123
    let n := s.m.mesh
    let rows : List Row := match t.row, t.handle with
      | some v, _ => [v]
      | none, none => t.rows
      | none, some h => match handleDecl g.decl h with
        | none => []
        | some d => (List.range (sel t.hdr 63 57)).map (fun i => c.sp.rows.get ((d.base + hSlot h * d.slotRows + i) % 16384))
    let flits := (List.range (1 + 8 * rows.length)).map (fun i => ({ msg := n.nextId, idx := i, last := i == 8 * rows.length } : Flit))
    c.ni.tx = t :: rest → t.leaving = false → g.dom = .awake → t.due ≤ g.cycle → s.m.target g.run.gang t.hdr = some (dst, egress, dgang) →
      ∃ u, exec (.messageTransmit site .ok) s = .next u ∧ u.m.regions = s.m.regions ∧
        Tab.find u.m.mesh.msgs n.nextId = some
          { hdr := t.hdr, rows := rows, dst := dst, egress := egress, gang := g.run.gang, dgang := dgang } ∧
        u.m.mesh.nextId = n.nextId + 1 ∧ u.m.mesh.buf site 4 ch = n.buf site 4 ch ++ flits ∧
        (u.m.core site).ni.tx = { t with leaving := true } :: rest ∧
        ((u.m.core site).ni.cnt.sent[ch]?.getD 0) = (c.ni.cnt.sent[ch]?.getD 0) + 1 ∧
        (∀ h, t.handle = some h → c.ni.tokens.length < 64 → c.ni.tokWait = [] →
          (u.m.core site).ni.tokens = c.ni.tokens ++ [mkToken rows.length 0 3 t.addr g.ticks h])

/-- FLIT_HOP and SPLINE_CROSS (R60 to R62, R332 to R335, R614): a clocked router's output link takes the first of its ready flits in the
order of R334 to the next router's input, or between regions into the spline, and each flit that loses is counted. A header goes along
the rail to its destination's column, then along the stile, then out. A spline delivers its oldest flit when the receiving router is
clocked and has a buffer for the channel. A flit of bad parity is counted at the input it reaches. -/
def Obligations.FlitsMove : Prop :=
  ∀ (s : State) (x y : Fin 25600) (o : Fin 4),
    let n := s.m.mesh
    let o' := opposite o
    neighbour x o = some y.val →
      (∀ (parity : Bool) (i c : Nat) (f : Flit) (lost : List (Nat × Nat × Flit)), (s.m.region (siteRegion x)).dom = .awake → x.val ∉ n.removed →
        (∀ i' c' f' l', n.buf x i' c' = f' :: l' → f'.idx = 0 → s.m.wants x f' ≠ none) → s.m.readyFlits x o = (i, c, f) :: lost →
        ∃ t, exec (.flitHop x o.castSucc parity) s = .next t ∧
          let f' : Flit := { f with bad := f.bad || parity }
          let n' := t.m.mesh
          n'.buf x i c = (n.buf x i c).drop 1 ∧
          (siteRegion x = siteRegion y → n'.buf y o' c = n.buf y o' c ++ [f'] ∧
            (f'.bad = true → Tab.get n'.parity (y.val * 4 + o') 0 = (Tab.get n.parity (y.val * 4 + o') 0 + 1) % 2 ^ 32)) ∧
          (siteRegion x ≠ siteRegion y → n'.spline x o = n.spline x o ++ [(c, f')] ∧ n'.buf y o' c = n.buf y o' c)) ∧
      (∀ c f rest, n.spline x o = (c, f) :: rest → (s.m.region (siteRegion y)).dom = .awake → (n.buf y o' c).length < 4 →
        ∃ t, exec (.splineCross x o.castSucc) s = .next t ∧ t.m.mesh.spline x o = rest ∧ t.m.mesh.buf y o' c = n.buf y o' c ++ [f]) ∧
      (∀ z : MeshMsg, z.ring = [] → n.removed = [] → n.removing = [] → z.dst < 25600 →
        (headerOut n x z).map (·.1) = some (if x.val % 160 < z.dst % 160 then 1 else if z.dst % 160 < x.val % 160 then 0
          else if x.val < z.dst then 3 else if z.dst < x.val then 2 else lastOut z))

/-- The decision on an arrival (R348, R351, Table 9.4): MESSAGE_ARRIVAL gives the oldest undecided header its outcome, by the gang, the
entry with its tag and the kind of that entry, from the table's top row down; while payload is still to come nothing else changes, and
a message wholly there is settled at once. -/
def Obligations.ArrivalDecidedByHeader : Prop :=
  ∀ (s : State) (site : Fin 25600) (x : RxMsg) (pre post : List RxMsg),
    let g := s.m.region (siteRegion site)
    let c := s.m.core site
    let dowel : Prop := sel x.hdr 127 125 = 2
    let n := x.rows.length
    let entry : Option (Nat × TagDecl) := g.decl.tags.find? (fun t => t.2.tag.toNat == sel x.hdr 94 79)
    let decided (d : RxDest) : Prop :=
      let y := { x with dest := d }
      let c' := { c with ni := { c.ni with rx := pre ++ y :: post } }
      let m' := if x.complete then s.m.applyEff site (settleRx (s.m.portCtx site) y c') else s.m.setCore site c'
      exec (.messageArrival site) s = .next { s with m := m' }
    c.ni.rx = pre ++ x :: post → x.dest = .undecided → (∀ y ∈ pre, y.dest ≠ .undecided) → (∀ y ∈ pre ++ post, y.msg ≠ x.msg) →
      (x.gang = 0 → decided (.error 0xA)) ∧
      (x.gang ≠ 0 → g.run.running = false ∨ g.run.gang ≠ x.gang → decided (.stray 3)) ∧
      (x.gang ≠ 0 → g.run.running = true → g.run.gang = x.gang →
        (entry = none → decided (.stray 2)) ∧
        ∀ e t, entry = some (e, t) →
          (t.kind = 1 → ¬ dowel → Tab.find c.ni.windows e = none → decided (.stray 1)) ∧
          (∀ w, t.kind = 1 → ¬ dowel → Tab.find c.ni.windows e = some w →
            let rows := (Tab.get g.decl.drawers (sel t.targ0 5 0) {}).slotRows
            (rows < sel x.hdr 56 46 + n → decided (.error 5)) ∧ (sel x.hdr 56 46 + n ≤ rows → decided (.window w))) ∧
          (t.kind = 2 → ¬ dowel → t.targ1.toNat < 1 + n → decided (.error 7)) ∧
          (t.kind = 2 → dowel ∨ 1 + n ≤ t.targ1.toNat → decided (.ring e)) ∧
          (t.kind = 3 → dowel → sel x.hdr 63 47 = 0 → decided (.clamp (sel t.targ0 10 0))) ∧
          (t.kind = 3 → ¬ dowel ∨ sel x.hdr 63 47 ≠ 0 → decided (.error 6)) ∧
          (t.kind = 4 → ¬ dowel → decided (.update e)) ∧
          (t.kind = 1 ∨ t.kind = 4 → dowel → decided (.error 6)))

/-- Inbox rings (R356 to R360, Table 9.5): RING_PLACE puts the oldest complete message of a ring, its record row and payload rows, at W
when they fit there, else, when the ring is not wrapped and they fit below R, at row 0 after a wrap marker; W goes past it, to 0 at
the ring's end, and M rises. RECV_SERVICE makes the oldest request's next push, the header first when HEN is 1, and with the last one
moves R past the message, lowers M and frees the request. -/
def Obligations.RingsKeepMessages : Prop :=
  ∀ (s : State) (site : Fin 25600) (e : Nat) (t : TagDecl),
    let g := s.m.region (siteRegion site)
    let c := s.m.core site
    let base := sel t.targ0 13 0
    let len := sel t.targ1 12 0
    let q := Tab.get c.ni.rings e {}
    Tab.find g.decl.tags e = some t →
      (∀ (x : RxMsg), c.ni.rx.findSome? (fun y => match y.dest with
          | .ring k => if y.complete then some (y, k) else none
          | _ => none) = some (x, e) →
        let n := 1 + x.rows.length
        let placed (p : Nat) : Prop := ∃ u, exec (.ringPlace site) s = .next u ∧
          let c' := u.m.core site
          Tab.get c'.ni.rings e {} = { w := if p + n = len then 0 else p + n, r := q.r, m := q.m + 1 } ∧
          (n ≤ 16384 → ((c'.sp.rows.get ((base + p) % 16384)).setWidth 128 : W128) = x.hdr ∧
            ∀ i < x.rows.length, c'.sp.rows.get ((base + p + 1 + i) % 16384) = x.rows.getD i 0) ∧
          (∀ y ∈ c'.ni.rx, y.msg ≠ x.msg)
        let apart : Prop := q.r < q.w ∨ q.m = 0
        ((apart → q.w + n ≤ len) → (¬ apart → q.w + n ≤ q.r) → placed q.w) ∧
        (apart → len < q.w + n → n ≤ q.r → placed 0) ∧
        (apart → len < q.w + n → q.r < n → exec (.ringPlace site) s = .next s) ∧
        (¬ apart → q.r < q.w + n → exec (.ringPlace site) s = .next s)) ∧
      (∀ (req : RecvReq) (rest : List RecvReq), c.ni.recvs = req :: rest → req.entry = e → g.run.running = true → q.m ≠ 0 →
        let kind (z : W128) : Nat := sel z 127 125
        let z := if kind ((c.sp.rows.get ((base + q.r) % 16384)).setWidth 128) = 7 then 0 else q.r
        let h : W128 := (c.sp.rows.get ((base + z) % 16384)).setWidth 128
        let n := if kind h = 2 then 0 else sel h 63 57
        let head := req.hen = true ∧ req.begun = false
        let row := if head then 0 else 1 + req.sent
        let dst := if head then 24 + req.nq else req.rq
        let sent := if head then req.sent else req.sent + 1
        let freed (c' : Core) : Prop := c'.ni.recvs = rest ∧ Tab.get c'.ni.rings e {} =
          (if q.m = 1 then { w := 0, r := 0, m := 0 } else { w := q.w, r := (z + 1 + n) % len, m := q.m - 1 })
        (¬ head → n = 0 → ∃ u, exec (.recvService site .ok) s = .next u ∧ freed (u.m.core site) ∧
          (u.m.core site).queues = c.queues) ∧
        (head ∨ n ≠ 0 → hasSpace c dst [] = false → exec (.recvService site .ok) s = .next s) ∧
        (head ∨ n ≠ 0 → hasSpace c dst [] = true → ∃ u, exec (.recvService site .ok) s = .next u ∧
          let c' := u.m.core site
          let pushed : QEntry := { data := ((c.sp.rows.get ((base + z + row) % 16384)).setWidth (if head then 128 else 4096)).setWidth 8192
                                   res := 16 * g.cycle + 15, due := g.cycle, vis := true }
          (c'.queue dst).entries = insertRes pushed (c.queue dst).entries ∧
          (n ≤ sent → freed c') ∧
          (sent < n → c'.ni.recvs = { req with begun := true, sent := sent } :: rest ∧
            Tab.get c'.ni.rings e {} = { q with r := z })))

/-! ### Updates -/

/-- The update unit (R437, R442, R445, R447, R452, R454, R459, R460): UPDATE_ROW applies the rule of the entry, by the arithmetic of R447,
to the next row of the oldest unfinished message, a lazy message's row first decayed and caught up; a lazy message's factors are found
as it begins, and a message that Table 11.6 refuses leaves the unit with nothing written. UPDATE_COPY_WRITE writes the next narrow row
of a local copy into its slot, UPDATE_REPLICA_SEND sends the narrow rows to the next replica, UPDATE_ACK adds LEN, or 1 for a UPD, to
ACKW. -/
def Obligations.UpdatesApplied : Prop :=
  ∀ (s : State) (site : Fin 25600) (pre post : List UpdJob) (j : UpdJob),
    let g := s.m.region (siteRegion site)
    let c := s.m.core site
    let k := j.smp.control
    let leaves (i : Instr) (p : Core → Prop) : Prop := ∃ c', exec i s = .next { s with m := s.m.setCore site c' } ∧ p c'
    g.dom = .awake → c.upd.jobs = pre ++ j :: post →
      -- a row
      (∀ t : TagDecl, c.ni.rx = [] → (∀ y ∈ pre, y.fin = true) → j.fin = false → Tab.find g.decl.tags j.entry = some t → j.upd = false →
        (let r := (if kLazy k then j.arg * kEntryRows k else j.arg) + j.next
          let pr := (sel t.targ0 13 0 + 2 * r) % 16384
          let ar := (sel t.targ0 13 0 + 2 * r + 1) % 16384
          let x := j.smp
          let aux : W32 := BitVec.ofNat 32 (sel t.tparam 63 32)
          let rule := sel t.targ0 15 14
          let fl (l : List Fv) : W32 := encF32 .rne (sumExact l)
          let mul (a b : W32) : Fv := (decF32 a).mul (decF32 b)
          let p (i : Nat) : W32 := if kLazy k then mulF (elem 32 (c.sp.rows.get pr) i) j.dp else elem 32 (c.sp.rows.get pr) i
          let a (i : Nat) : W32 := if kLazy k then mulF (elem 32 (c.sp.rows.get ar) i) j.dm else elem 32 (c.sp.rows.get ar) i
          let g' (i : Nat) : W32 := mulF (elem 32 (j.rows.getD j.next 0) i) x.clip
          let mix (b : W32) (i : Nat) : W32 := fl [mul b (a i), mul (subF one32 b) (g' i)]
          let minus (i : Nat) (u : W32) : W32 := fl [decF32 (p i), (mul x.eta u).neg]
          let sgn (z : W32) : W32 := match decF32 z with
            | .nan => nan32
            | .inf neg => if neg then 0xBF800000#32 else one32
            | .fin neg n _ => if n = 0 then 0 else if neg then 0xBF800000#32 else one32
          let q := encF32 .rne (match sumExact ((List.range 128).map (fun i => mul (mix x.beta i) (mix x.beta i))) with
            | .fin neg n e => .fin neg n (e - 7)
            | v => v)
          let ratio := divF one32 (addF (sqrtF q) aux)
          let p' (i : Nat) : W32 := match rule with
            | 0 => minus i (fl [decF32 (mix x.beta i), mul x.lambda (p i)])
            | 1 => minus i (fl [decF32 (sgn (mix x.beta i)), mul x.lambda (p i)])
            | _ => minus i (mulF (mix x.beta i) ratio)
          let a' (i : Nat) : W32 := if rule = 1 then mix aux i else mix x.beta i
          j.begun = true → updRefusal g.decl j = 0 → j.next < j.rows.length → (kLazy k = true → j.next + 1 < j.rows.length) →
          rowGated g.decl pr = false → rowGated g.decl ar = false →
          leaves (.updateRow site .ok) (fun c' =>
            (∀ i < 128, elem 32 (c'.sp.rows.get pr) i = p' i ∧ elem 32 (c'.sp.rows.get ar) i = a' i) ∧
            (∀ row, row ≠ pr → row ≠ ar → c'.sp.rows.get row = c.sp.rows.get row) ∧
            c'.upd.cnt.rowsApplied = bump48 c.upd.cnt.rowsApplied 1 ∧ c'.cc = c.cc ∧ c'.ni = c.ni ∧ c'.queues = c.queues ∧ c'.sp.slots = c.sp.slots)) ∧
        (let x := updSample t j.group (settleWords c c.pos)
          let j' := { j with sample := some x, begun := true }
          let row := (kStepBase x.control + j.arg / 128) % 16384
          let gap := (x.step - elem 32 (c.sp.rows.get row) (j.arg % 128)).toNat
          let pow (b : W32) : W32 := if gap ≤ 1 then one32 else exp2F (mulF (f32OfNat (gap - 1)) (log2F b))
          let rule := sel t.targ0 15 14
          j.begun = false →
          (kLazy x.control = true → updRefusal g.decl j' = 0 → rowGated g.decl row = false → j.next + 1 < j.rows.length →
            leaves (.updateRow site .ok) (fun c' => ∃ y ∈ c'.upd.jobs, y.rows = j.rows ∧ y.next = j.next + 1 ∧ y.sample = some x ∧
              y.dm = pow (if rule = 1 then BitVec.ofNat 32 (sel t.tparam 63 32) else x.beta) ∧
              y.dp = if rule = 2 then one32 else pow (encF32 .rne (sumExact [decF32 one32, ((decF32 x.eta).mul (decF32 x.lambda)).neg])))) ∧
          (updRefusal g.decl j' ≠ 0 → ∃ m', exec (.updateRow site .ok) s = .next { s with m := m' } ∧
            let c' := m'.core site
            c'.upd.jobs = pre ++ post ∧ c'.sp = c.sp ∧ c'.ni = c.ni ∧ c'.upd.cnt.updRefused = c.upd.cnt.updRefused + 1 ∧
            c'.upd.cnt.rowsApplied = c.upd.cnt.rowsApplied))) ∧
      -- a row of the local copy
      (let copyDue (y : UpdJob) : Prop := y.upd = false ∧ kCopyLocal y.smp.control = true ∧ y.begun = true ∧ (y.copied + 1) * y.block ≤ y.next
        let h := j.smp.copyHandle
        let q := j.first / j.block + j.copied
        let row := (checkHandle g.decl c h q).2
        let v := j.narrow.getD j.copied 0
        (∀ y ∈ pre, ¬ copyDue y) → copyDue j → kCfmt k ≠ 3 → (checkHandle g.decl c h q).1 = 0 → genDist c h = 0 → rowGated g.decl row = false →
        leaves (.updateCopyWrite site) (fun c' => c'.sp.rows = c.sp.rows.set row v ∧
          c'.sp.slots = (markRow c { drawer := hDrawer h, slot := hSlot h, gen := BitVec.ofNat 16 (hGen h), off := q }).sp.slots ∧
          c'.upd.cnt.copyRows = bump48 c.upd.cnt.copyRows 1 ∧ c'.cc = c.cc ∧ c'.ni = c.ni)) ∧
      -- a replica
      (let sendDue (y : UpdJob) : Prop := y.fin = true ∧ y.copied? = true ∧ y.replicas < y.nrep
        let n := j.rows.length / j.block
        let t := if j.replicas = 0 then j.smp.tmpl0 else j.smp.tmpl1
        let hdr := stampHdr (s.m.portCtx site) (put (put (put t 63 57 n) 56 46 ((sel t 56 46 + j.first / j.block) % 2048)) 45 40 0)
        (∀ y ∈ pre, ¬ sendDue y) → sendDue j → c.ni.tx.length < 16 → 0 < n → n < 128 →
        (sendCheck (s.m.portCtx site) c false false (put hdr 63 57 1) 0).1 = 0 →
        leaves (.updateReplicaSend site) (fun c' => (c'.ni.tx = c.ni.tx ++ [{ hdr := hdr, row := none, rows := j.narrow, handle := none, addr := 0 }]) ∧
          c'.sp = c.sp ∧ c'.cc = c.cc ∧ c'.upd.cnt.copyRows = bump48 c.upd.cnt.copyRows n)) ∧
      -- the acknowledgement
      (let ackDue (y : UpdJob) : Prop := y.fin = true ∧ y.copied? = true ∧ kAcken y.smp.control = true ∧ y.acked = false
        let a := sel k 31 21
        let w := c.cc.words.get a
        let n := clampCount w + if j.upd then 1 else j.rows.length
        (∀ y ∈ pre, ¬ ackDue y) → ackDue j → n < 2 ^ 47 →
        leaves (.updateAck site) (fun c' => c'.cc.words = c.cc.words.set a (put w 47 0 n) ∧ c'.sp = c.sp ∧ c'.ni = { c.ni with monitor := c'.ni.monitor } ∧
          c'.queues = c.queues))

/-! ### Time -/

/-- Reference cycles and marks (R33 to R40, R42, R419, R420): REFERENCE_CYCLE advances the story stick by 45 and the view of a region
whose clock is stopped for a step change likewise; MARK, 1,024 cycles after the last, gives the stick the last mark's value plus 45
for each cycle elapsed, the trim and, with no gang running, the jump; it counts, sets the trim and span that follow and the view of
every clocked region. SYNC_IO_EDGE clears the sampled edge: in MARK_IN it is a mark 1,024 cycles after the last or when acquired, else
ignored and counted; as a trigger it starts the traces that wait for it. -/
def Obligations.StickAndMarks : Prop :=
  ∀ (s : State),
    let a := s.m.aon
    let trimmed : Int := a.stickAtMark.toNat + 45 * a.refCycles + a.trim
    let twice := s.m.thetas
    let near := twice.filter (fun t => decide (-92160 ≤ t) && decide (t ≤ 92160))
    let marked (t : State) : Prop :=
      let b := t.m.aon
      (a.stick.toNat ≤ trimmed → trimmed + 2 ^ 40 < 2 ^ 64 → s.m.anyRunning = true → b.stick.toNat = trimmed) ∧
      (a.stick.toNat ≤ trimmed → trimmed + 2 ^ 40 < 2 ^ 64 → s.m.anyRunning = false → (∀ x ∈ twice, x ≤ 2 ^ 40) →
        ∃ j : Nat, b.stick.toNat = trimmed + j ∧ (∀ x ∈ twice, 92160 < x → x / 2 ≤ j) ∧ (j = 0 ∨ ∃ x ∈ twice, 92160 < x ∧ (j : Int) = x / 2)) ∧
      b.stickAtMark = b.stick ∧ b.markNumber = a.markNumber + 1 ∧ b.refCycles = 0 ∧ (b.span : Int) = 46080 + b.trim ∧
      (near = [] → b.trim = 0) ∧
      (near ≠ [] → ∃ k : Int, b.trim = max (-32) (min 32 k) ∧ |near.sum - 2 * near.length * k| ≤ near.length ∧
        (|near.sum - 2 * near.length * k| = near.length → k % 2 = 0)) ∧
      (b.state ≠ .safeHold → ∀ r < 25, (s.m.region r).dom = .awake →
        let g := t.m.region r
        g.view = max (s.m.region r).view (b.stick.toNat * 65536) ∧ g.viewValid = true ∧ g.viewCap = (b.stick.toNat + b.span - 1) * 65536)
    (∀ sync : Bool, a.state ≠ .off → a.refCycles < 1024 → a.stick.toNat = a.stickAtMark.toNat + 45 * a.refCycles → a.stick.toNat + 45 < 2 ^ 64 →
      ∃ t, exec (.referenceCycle sync) s = .next t ∧
        let b := t.m.aon
        t = { s with m := { s.m with regions := t.m.regions, aon := { a with stick := b.stick, refCycles := a.refCycles + 1, pins := b.pins } } } ∧
        (markFalls sync s.m = false ∨ 0 ≤ a.trim → b.stick = a.stick + 45) ∧
        b.pins = { a.pins with syncHigh := sync, syncEdge := sync && !a.pins.syncHigh, syncOut := false } ∧
        ∀ r < 25, let g := s.m.region r
          let view := if g.switching = 0 ∨ g.viewValid = false then g.view else max g.view (min (g.view + 45 * 65536) g.viewCap)
          t.m.region r = { g with view := view, switching := g.switching - 1, time := (t.m.region r).time }) ∧
    (a.state ≠ .off → 1024 ≤ a.refCycles → ∃ t, exec .mark s = .next t ∧ marked t) ∧
    (a.state ≠ .off → a.pins.syncEdge = true →
      let m' := s.m.onPins (fun p => { p with syncEdge := false })
      (a.syncIo = .off ∨ a.syncIo = .markOut → exec .syncIoEdge s = .next { s with m := m' }) ∧
      (a.syncIo = .trigger → ∃ t, exec .syncIoEdge s = .next t ∧ t = { s with m := { m' with regions := t.m.regions } } ∧
        ∀ r < 25, let g := s.m.region r
          t.m.region r = { g with trace := if g.trace.trigger = 1 then { g.trace with armed := false } else g.trace }) ∧
      (a.syncIo = .markIn → a.refCycles = 1024 ∨ (a.acquiring = true ∧ s.m.anyRunning = false ∧ 16 ≤ a.refCycles) →
        ∃ t, exec .syncIoEdge s = .next t ∧ marked t) ∧
      (a.syncIo = .markIn → a.refCycles ≠ 1024 → a.acquiring = false ∨ s.m.anyRunning = true →
        exec .syncIoEdge s = .next { s with m := { m' with aon := { m'.aon with markInMiss := a.markInMiss + 1, edgeIgnored := true } } }))

/-- Region cycles (R41, R43, R57, R58, R86, R102): at CYCLE_EDGE the cycle counts, a valid view advances by the view ratio of Table 2.1 up
to its cap, popped heads leave their queues, and the oldest bundle retires when it executed, every later one coming a cycle later when
it is held; a gauge code above GAUGE_STRETCH and at most GAUGE_WARN counts a warning. SHIM counts one shim and adds no cycle.
RESULT_VISIBLE (R84, R108, R159, R261): in a core, every queue entry whose cycle has come is visible, the others as before, and none
moves; every scratchpad or tile row whose cycle has come holds its value, and the rest hold what they held. -/
def Obligations.CyclesAndVisibility : Prop :=
  (∀ (s : State) (r : Fin 25) (gauge : BitVec 6),
    let g := s.m.region r
    let ratio := [0, 0x40000, 0x30000, 0x20000, 0x18000, 0x15555, 0x13333, 0x11745, 0x10000].getD g.step 0
    g.dom = .awake → g.switching = 0 → s.m.aon.state ≠ .safeHold →
      (1 ≤ g.step → g.step ≤ 8 → ∃ t, exec (.cycleEdge r gauge) s = .next t ∧
        t = { s with m := { s.m with regions := t.m.regions, cores := t.m.cores, power := { s.m.power with warns := t.m.power.warns } } } ∧
        (∀ k, k ≠ r.val → t.m.region k = s.m.region k) ∧
        let g' := t.m.region r
        g'.cycle = g.cycle + 1 ∧ g'.view = (if g.viewValid then max g.view (min (g.view + ratio) g.viewCap) else g.view) ∧
        (g.seq.pipe = [] → g'.seq.pipe = []) ∧
        (∀ b rest, g.seq.pipe = b :: rest →
          (b.sched ≤ g.cycle → seqHeld g = false → g'.seq.pipe = rest) ∧
          (seqHeld g = true → g'.seq.pipe = b :: rest.map (fun x => { x with sched := x.sched + 1 }) ∧
            g'.seq.cnt.held = bump48 g.seq.cnt.held 1) ∧
          (g.cycle < b.sched → g'.seq.pipe = b :: rest)) ∧
        (g'.time.gaugeWarnCount = if g.gaugeStretch < gauge.toNat ∧ gauge.toNat ≤ g.gaugeWarn then bump48 g.time.gaugeWarnCount 1
          else g.time.gaugeWarnCount) ∧
        ∀ x ∈ g.site, s.m.gated x = false → ∀ q, ((t.m.core x).queue q).popped = false ∧
          ((t.m.core x).queue q).entries = if ((s.m.core x).queue q).popped then ((s.m.core x).queue q).entries.drop 1
            else ((s.m.core x).queue q).entries) ∧
      (gauge.toNat ≤ g.gaugeStretch → ∃ t, exec (.shim r gauge) s = .next t ∧ t = { s with m := { s.m with regions := t.m.regions } } ∧
        (∀ k, k ≠ r.val → t.m.region k = s.m.region k) ∧
        t.m.region r = { g with gaugeMin := min g.gaugeMin gauge.toNat, shimsThisMark := g.shimsThisMark + 1, time := { g.time with
          shimHalf := if g.shimHalfLen then bump48 g.time.shimHalf 1 else g.time.shimHalf
          shimFull := if g.shimHalfLen then g.time.shimFull else bump48 g.time.shimFull 1 } })) ∧
  (∀ (s : State) (site : Fin 25600),
    let n := (s.m.region (siteRegion site)).cycle
    let c := s.m.core site
    ∃ c', exec (.resultVisible site) s = .next { s with m := s.m.setCore site c' } ∧
      (∀ q, (c'.queue q).popped = (c.queue q).popped ∧
        (c'.queue q).entries = (c.queue q).entries.map (fun e => { e with vis := e.vis || decide (e.due ≤ n) })) ∧
      (∀ row, (∀ p ∈ c.sp.pend, p.due ≤ n → p.row ≠ row ∨ p.val = none) → c'.sp.rows.get row = c.sp.rows.get row) ∧
      (∀ pre p post v, c.sp.pend = pre ++ p :: post → p.due ≤ n → p.val = some v → (∀ x ∈ post, x.due ≤ n → x.row ≠ p.row) →
        c'.sp.rows.get p.row = v) ∧
      (∀ e e', (e = c.v0 ∧ e' = c'.v0) ∨ (e = c.v1 ∧ e' = c'.v1) → e' = { e with tiles := e'.tiles, pend := e.pend.filter (fun p => decide (n < p.due)) } ∧
        ∀ key, ((∀ p ∈ e.pend, p.due ≤ n → p.key ≠ key) → e'.tiles.get key = e.tiles.get key) ∧
          ∀ p ∈ e.pend, p.due ≤ n → p.key = key → (∀ x ∈ e.pend, x.due ≤ n → x.key = key → x = p) → e'.tiles.get key = p.val) ∧
      c'.cc = c.cc ∧ c'.ni = c.ni ∧ c'.arr = c.arr)

/-- No step takes the cycles since the last mark beyond the 1,024 of a mark interval, or the trim of the next mark out of −32 to +32 ticks
(R34, R35). -/
def Obligations.IntervalAndTrimStayBounded : Prop :=
  ∀ (s t : State), step s = .next t → s.m.aon.refCycles ≤ 1024 → |s.m.aon.trim| ≤ 32 → t.m.aon.refCycles ≤ 1024 ∧ |t.m.aon.trim| ≤ 32

/-- No step lowers the story stick (R36), within the bounds of IntervalAndTrimStayBounded and while the stick, its value at the last mark
and the peers' offsets are below 2 ^ 62, 65 years of ticks. Only AUX_ENTRY and AUX_POWER_LOSS, at which a new power-on begins, give it
a value below. -/
def Obligations.StickNeverDecreases : Prop :=
  ∀ (s t : State), step s = .next t → s.pending.head? ≠ some .auxPowerLoss → (∀ x, s.pending.head? ≠ some (.auxEntry x)) →
    s.m.aon.refCycles ≤ 1024 → s.m.aon.stick.toNat < 2 ^ 62 → s.m.aon.stickAtMark.toNat < 2 ^ 62 → |s.m.aon.trim| ≤ 32 →
    (∀ x ∈ s.m.thetas, x < 2 ^ 62) → s.m.aon.stick.toNat ≤ t.m.aon.stick.toNat

/-! ### Modes and monitors -/

/-- Staged changes (R69 to R72): CHANGE_ACK latches what is staged for a powered region. MODE_APPLY applies a committed change that is due
and acknowledged, at a kerf end of a running gang or after a mark without one: the modes named change, a staged step becomes the
admitted step and, under the emergency ceiling, the applied one, and the region's bit of the applied mask is set; with the last bit
STEP_APPLIED is raised. Sensors, emergency steps, telemetry and the progress monitor (R373, R591, R592, R594 to R596, Table 16.6,
Table 16.7): SENSOR_SAMPLE keeps 16 readings, counts a warning from 95 °C, re-armed below 92 °C, detects JUNCTION from 105 °C and
enters safe hold with cause 0x02 from 115 °C; OVER_CURRENT is detected once while it lasts; EMERGENCY_STEP sets the ceiling of its
causes, lowers the step to it and raises its event; TELEMETRY_REWRITE rewrites the record; PROGRESS_STALL raises STALL once. -/
def Obligations.ChangesAndMonitors : Prop :=
  (∀ (s : State) (r : Fin 25),
    let g := s.m.region r
    let a := s.m.aon
    g.dom = .awake → a.state ≠ .safeHold →
      (g.pendingChange = true ∨ Tab.find s.m.settings.stagedSteps r ≠ none →
        RegionLeaves (.changeAck r) s r (fun x => { x with ack := true })) ∧
      (g.pendingChange = true → a.inFlight = true → a.commitMark ≤ a.markNumber → g.ack = true →
        (g.run.running = true → g.seq.wait = .kerf) → (g.run.running = false → g.run.ended = false) → s.m.level 0x0C = 1 →
        ∃ t, exec (.modeApply r) s = .next t ∧
          let g' := t.m.region r
          let mode (i : Nat) (old : Bool) : Bool := if bit g.pendChange i then bit g.pendValue i else old
          let step := match g.stagedStep with
            | some v => if g.step = 0 ∨ min v (s.m.emerg r).ceiling = 0 then g.step else min v (s.m.emerg r).ceiling
            | none => g.step
          let mask := sticky a.appliedMask r
          g'.pendingChange = false ∧ g'.ack = false ∧ g'.reprMode = mode 0 g.reprMode ∧ g'.digestOn = mode 1 g.digestOn ∧
          g'.accNearest = mode 2 g.accNearest ∧ g'.step = step ∧ (g'.step ≠ g.step → g'.switching = 2) ∧
          g'.run.admitted = (match g.stagedStep with
            | some v => if g.run.running then v else g.run.admitted
            | none => g.run.admitted) ∧
          t.m.aon.appliedMask = mask ∧ (mask ≠ 0x1FFFFFF → t.m.aon.inFlight = true ∧ t.m.events = s.m.events) ∧
          (mask = 0x1FFFFFF → t.m.aon.inFlight = false ∧ t.m.events =
            (recordEvent { code := 0x0C, flags := 0, source := 0xFFFF, stick := a.stick, count := 1, gang := 0, d0 := 0, d := a.commitMark } s.m).events) ∧
          t.m.cores = s.m.cores ∧ t.m.stock = s.m.stock ∧ ∀ k, k ≠ r.val → t.m.region k = s.m.region k)) ∧
  (∀ (s : State) (r : Fin 25),
    let g := s.m.region r
    let a := s.m.aon
    let e := s.m.emerg r
    (∀ (temps : List W16) (amps : W32), let hot := (temps.map BitVec.toNat).foldl max 0
      temps.length = 16 → a.state ≠ .off → ∃ t, exec (.sensorSample r temps amps) s = .next t ∧
        let e' := t.m.emerg r
        (∀ k < 400, Tab.get t.m.power.sensors k 0 = if k / 16 = r.val then (temps.getD (k % 16) 0).toNat else Tab.get s.m.power.sensors k 0) ∧
        Tab.get t.m.power.tjMax r 0 = max hot (Tab.get s.m.power.tjMax r 0) ∧
        (e'.junction = if hot < 10500 then none else if e.junction = none then some a.markNumber.toNat else e.junction) ∧
        (e'.causes = if 10500 ≤ hot ∧ e.junction = none then sticky e.causes 0 else e.causes) ∧
        (e'.warnArmed = if 9500 ≤ hot then false else if hot < 9200 then true else e.warnArmed) ∧
        (hot < 11500 → ((t.m.region r).ev = if 9500 ≤ hot ∧ e.warnArmed then (countEv g { code := 0x12, d0 := hottestAt temps, d := hot }).ev
          else g.ev) ∧ t.m.aon = { a with pins := t.m.aon.pins }) ∧
        (11500 ≤ hot → t.m.aon.state = .safeHold ∧ (a.state ≠ .safeHold → t.m.aon.safeCause = 2))) ∧
    (a.state ≠ .off → e.overCurrent = none → ∃ t, exec (.overCurrent r) s = .next t ∧
      t = { s with m := { s.m with power := { s.m.power with emerg := t.m.power.emerg } } } ∧ ∀ k,
        t.m.emerg k = if k = r.val then { e with overCurrent := some a.markNumber.toNat, causes := sticky e.causes 1 } else s.m.emerg k) ∧
    (e.due ≠ 0 → s.m.level 0x0D ≤ 1 → ∃ t, exec (.emergencyStep r) s = .next t ∧
      let c := if bit e.due 0 then min e.ceiling (max 1 (g.step - 2)) else e.ceiling
      let ceiling := if bit e.due 1 || bit e.due 2 then min c (max 1 (g.step - 1)) else c
      let low := if bit e.due 3 then e.lowered.getD g.step else g.step
      let step := min g.step (min ceiling low)
      let g' := t.m.region r
      t.m.emerg r = { e with due := 0, lowered := none, ceiling := ceiling, absent := 0, restore := false } ∧
      g'.step = (if step = 0 then g.step else step) ∧ (g'.step ≠ g.step → g'.switching = 2) ∧ (g.run.running = true → g'.run.tickVoid = true) ∧
      (g.run.running = true → g'.run.admitted = e.lowered.getD g.run.admitted) ∧
      t.m.power.emergencySteps = s.m.power.emergencySteps + 1 ∧ (s.m.level 0x0D = 1 → t.m.events = (recordEvent
        { code := 0x0D, flags := 0, source := r.val, stick := a.stick, count := 1, gang := if g.run.running then g.run.gang else 0
          d0 := ceiling, d := e.due.setWidth 64 } s.m).events)) ∧
    (∀ x : TelemIn, let n := a.markNumber.toNat
      a.tirixRunning = true → a.beatStopped = false → n % 16 = 0 → n ≠ s.m.power.lastRewrite →
      ∃ t, exec (.telemetryRewrite x) s = .next t ∧ t = { s with m := { s.m with power := t.m.power } } ∧
        let y := t.m.power.telem
        t.m.power.lastRewrite = n ∧ y.gen = s.m.power.telem.gen + 1 ∧ y.stick = a.stick ∧ y.inputMv = x.inputMv.toNat ∧ y.loadW = x.loadW.toNat ∧
        y.sensors = s.m.power.sensors ∧ y.domainW = x.domainW.map BitVec.toNat ∧
        y.regions = (List.range 25).map (fun k => 
          let x := s.m.region k
          let code := match x.dom with
            | .off => 0
            | .sleep => 1
            | .selfTest => 4
            | .awake => if x.run.running then 3 else 2
          { rstate := 16 * code + x.step, rsteps := 16 * (if x.run.running then x.run.admitted else 0) + (s.m.emerg k).ceiling
            tjMax := Tab.get s.m.power.tjMax k 0, gaugeWarns := Tab.get s.m.power.warns k 0
            lastEnergy := Tab.get s.m.power.lastEnergy k 0, lastDecl := Tab.get s.m.power.lastDecl k 0 })) ∧
    (∀ p : Placement, s.m.placementOf g.run.gang = some p → g.run.running = true → g.run.stalled = false → p.progress ≤ g.run.heldMarks →
      a.state ≠ .safeHold → s.m.level 1 = 1 → ∃ t, exec (.progressStall r) s = .next t ∧
        t = { s with m := { s.m with regions := t.m.regions, events := t.m.events } } ∧
        t.m.region r = { g with run := { g.run with stalled := true }, trace := (t.m.region r).trace } ∧
        t.m.events = (recordEvent { code := 1, flags := 0, source := r.val, stick := a.stick, count := 1, gang := g.run.gang
                                    d0 := (g.seq.pipe.head?.map (·.addr)).getD g.seq.addr
                                    d := BitVec.ofNat 64 ((g.seq.pipe.head?.map (·.pos)).getD g.seq.pos) } s.m).events))

/-! ### Records, events and safe hold -/

/-- Digest records (R475, R479, R480, R482, R485): once every earlier bundle has executed, DIGEST_RECORD_WRITE writes the region record of
the oldest boundary, its digest fed with each core's digest and row count, and frees the boundary; when no boundary is due and every
part has the lowest recorded layer, it writes the module record, fed with the region digests and rows in part order. A record that
fits is written at the ring's next place, then the ring's header. -/
def Obligations.DigestRecordsWritten : Prop :=
  ∀ (s : State) (r : Fin 25) (p : Placement) (ring : DigRing),
    let g := s.m.region r
    let place := ring.sa + 0x40 + ring.written.toNat % ring.bytes
    let fits (n : Nat) : Prop := ring.written.toNat % ring.bytes + n ≤ ring.bytes
    let crc (l : List W64) : W64 := crcFinish (crcFeed 0xFFFFFFFFFFFFFFFF#64 (l.flatMap (fun w => bytesOf w 8)))
    let ringAfter (n : Nat) (x : DigRing) : Prop := x.written = ring.written + BitVec.ofNat 64 n ∧ x.records = ring.records + 1 ∧
      x.session = ring.session ∧ x.sa = ring.sa ∧ x.bytes = ring.bytes
    let stored (bs : List Byte) (x : DigRing) : Mod := (s.m.stockWrite ring.session place bs).stockWrite ring.session ring.sa
      (le 4 0x4744574B ++ le 2 1 ++ zeros 2 ++ le 4 x.bytes ++ bytesOf x.overwrites 4 ++ bytesOf x.written 8 ++ bytesOf x.records 8 ++ zeros 32)
    s.m.placementOf g.run.gang = some p → s.m.placement p.g0 = some p → p.ring = some ring → s.m.ringOpen ring = true → s.m.aon.state ≠ .safeHold →
      (∀ (b : Snapshot) (rest : List Snapshot), g.dig.pending = b :: rest → (∀ x ∈ g.seq.pipe, b.pos ≤ x.pos) →
        (∃ x ∈ p.gangs, x.running = true ∧ x.part ≠ g.decl.part ∧ ∀ y ∈ p.regionRecs, y.part ≠ x.part) →
        let core (k : Nat) : W64 × W64 := match (s.m.core k).dig.closed.find? (fun x => x.1 == b.pos) with
          | some x => (crcFinish x.2.1, x.2.2)
          | none => (crcFinish (s.m.core k).dig.r, (s.m.core k).dig.n)
        let ds := g.site.map core
        let digest := crc (ds.flatMap (fun x => [x.1, x.2]))
        let rows := (ds.map (·.2)).foldl (· + ·) 0
        let n := 64 + (8 * ds.length + 63) / 64 * 64
        ∃ t, exec (.digestRecordWrite r) s = .next t ∧
          (t.m.region r).dig = { g.dig with pending := rest, recordsWritten := g.dig.recordsWritten + 1 } ∧
          ∃ p', t.m.placement p.g0 = some p' ∧ p'.regionRecs = p.regionRecs ++
            [{ layer := b.layer, part := g.decl.part, digest := digest, rows := rows, flags := b.flags, step := b.g, stick := b.stick }] ∧
            ∃ x, p'.ring = some x ∧ (fits n → ringAfter n x ∧ t.m.stock = (stored ([1, BitVec.ofNat 8 g.decl.part, BitVec.ofNat 8 r, b.flags] ++
              le 4 n ++ bytesOf ring.records 8 ++ bytesOf b.layer 8 ++ bytesOf b.g 8 ++ bytesOf b.stick 8 ++ bytesOf digest 8 ++ bytesOf rows 8 ++
              le 2 g.site.length ++ zeros 6 ++ ds.flatMap (fun y => bytesOf y.1 8) ++ zeros (n - 64 - 8 * ds.length)) x).stock)) ∧
      (∀ (l : W64), g.dig.pending = [] → (∀ x ∈ p.gangs, x.status ≠ 6) → p.regionRecs ≠ [] → (∃ y ∈ p.regionRecs, y.layer = l) →
        (∀ y ∈ p.regionRecs, l ≤ y.layer) → (∀ x ∈ p.gangs, ∃ y ∈ p.regionRecs, y.layer = l ∧ y.part = x.part) →
        let rs := sortBy (fun a b => decide (a.part ≤ b.part)) (p.regionRecs.filter (fun y => y.layer == l))
        let digest := crc (rs.flatMap (fun y => [y.digest, y.rows]))
        let rows := (rs.map (·.rows)).foldl (· + ·) 0
        ∃ t, exec (.digestRecordWrite r) s = .next t ∧
          (t.m.region r).dig = { g.dig with recordsWritten := g.dig.recordsWritten + 1 } ∧
          ∃ p', t.m.placement p.g0 = some p' ∧ p'.regionRecs = p.regionRecs.filter (fun y => y.layer != l) ∧
            ∃ x, p'.ring = some x ∧ (fits 64 → ringAfter 64 x ∧ t.m.stock = (stored ([2, BitVec.ofNat 8 rs.length, 0xFF,
              rs.foldl (fun a y => a ||| y.flags) 0] ++ le 4 64 ++ bytesOf ring.records 8 ++ bytesOf l 8 ++ bytesOf ((rs.head?.map (·.step)).getD 0) 8 ++
              bytesOf (rs.foldl (fun a y => if a ≤ y.stick then y.stick else a) 0) 8 ++ bytesOf digest 8 ++ bytesOf rows 8 ++ le 2 0 ++ zeros 2 ++
              le 4 (rs.foldl (fun a y => a + 2 ^ y.part) 0)) x).stock))

/-- Events (R534 to R536, R599, R601, R602, R604, Table 17.1): a record goes to the ring's next slot while the ring has room and nothing
waits before it, else to the backlog, else it is lost; an event at level 0 does nothing, at level 1 leaves its record, at level 2 also
stops every running part of the placement of the gang that its GANG names, or that runs on its SOURCE when GANG is 0, and at level 3
also enters safe hold with cause 0x06. -/
def Obligations.EventsEscalate : Prop :=
  ∀ (m : Mod),
    (∀ x : EvRec, let e := m.events
      recordEvent x m = { m with events :=
        if m.aon.state ≠ .safeHold ∧ e.backlog = [] ∧ (e.produced - e.consumed).toNat < 126 then { e with
          slots := Tab.set e.slots (e.produced.toNat % 126) (e.produced, x), produced := e.produced + 1, unsignalled := true }
        else if e.backlog.length < 1024 then { e with backlog := e.backlog ++ [x] } else { e with lost := e.lost + 1 } }) ∧
    (∀ code source count gang d0 d flags : Nat,
      let level := Tab.get m.settings.policy code (if code = 8 then 2 else if code = 14 then 3 else 1)
      let raised := raiseEvent code source count gang d0 d flags m
      let recorded := recordEvent { code := code, flags := flags + (if 2 ≤ level then 4 else 0), source := source, stick := m.aon.stick
                                    count := count, gang := gang, d0 := d0, d := BitVec.ofNat 64 d } m
      let named := if gang ≠ 0 then gang else if source < 25 ∧ (m.region source).run.running then (m.region source).run.gang else 0
      (level = 0 → raised = m) ∧
      (level = 1 ∨ (level ≠ 0 ∧ m.aon.state = .safeHold) → raised = recorded) ∧
      (level = 2 → m.placementOf named = none → m.aon.state ≠ .safeHold → raised = recorded) ∧
      (∀ p, level = 2 → m.placementOf named = some p → m.placement p.g0 = some p → m.aon.state ≠ .safeHold →
        raised.events = recorded.events ∧
        (∀ x ∈ p.gangs, (m.region x.region).run.gang = x.id → (m.region x.region).run.running = true →
          (raised.region x.region).run.running = false) ∧
        ∀ k, (∀ x ∈ p.gangs, x.region ≠ k) → (raised.region k).run.running = (m.region k).run.running) ∧
      (2 < level → m.aon.state ≠ .safeHold → m.aon.state ≠ .off → raised.aon.state = .safeHold ∧ raised.aon.safeCause = 6))

/-- Safe hold (R598, R605 to R609, Table 17.3 to Table 17.5): its causes enter it from every powered state, keeping the state and the
cause of entry; every running gang ends with SAFE_HOLD, clocks stop, transfers and requests under way are abandoned, the mesh empties,
stock goes to self-refresh and FAULT is driven. Every row of every core is kept unless the main input is lost. FLOW_OK_ASSERT,
HOLD_IN_RELEASE and REFERENCE_RESTORED note when their inputs recover. -/
def Obligations.SafeHoldEntered : Prop :=
  ∀ (s : State),
    let a := s.m.aon
    let entered (cause : Byte) (t : State) : Prop :=
      let b := t.m.aon
      b.state = .safeHold ∧ b.safeCause = cause ∧ b.entryState = a.state ∧ b.pins.fault = true ∧ b.stick = a.stick ∧
      (∀ r < 25, let g := t.m.region r
        g.run.running = false ∧ g.dom ≠ .awake ∧ g.viewValid = false ∧ g.eng.xfers = [] ∧ g.eng.jobs = [] ∧ g.eng.queue = [] ∧
        (cause ≠ 4 → ((s.m.region r).run.running = true → g.run.status = 6) ∧ ((s.m.region r).dom = .awake → g.dom = .sleep) ∧ g.decl = (s.m.region r).decl)) ∧
      (cause ≠ 4 → ∀ k, (t.m.core k).sp.rows = (s.m.core k).sp.rows ∧ (t.m.core k).arr.acc = (s.m.core k).arr.acc) ∧
      t.m.mesh.msgs = [] ∧ t.m.mesh.bufs = [] ∧ t.m.stock.selfRefresh = true ∧ t.m.topo.reach = [] ∧ t.m.jobs = [] ∧
      (∀ i, (t.m.iface i).waiting = [] ∧ (t.m.iface i).started = []) ∧ (∀ q < 24, (t.m.port q).state ≠ .up) ∧ t.m.host.msixSent = s.m.host.msixSent
    let enters (i : Instr) (cause : Byte) : Prop := ∃ t, exec i s = .next t ∧ entered cause t
    let pins (i : Instr) (f : Pins → Pins) : Prop := exec i s = .next { s with m := { s.m with aon := { a with pins := f a.pins } } }
    (a.state ≠ .off → a.state ≠ .safeHold →
      enters .holdIn 1 ∧ enters .flowLoss 3 ∧ (a.pins.mainSeen = true → enters .pwrgdMainDeassert 4 ∧ enters .mainUndervoltage 4) ∧
      enters .referenceLost 5 ∧ (a.tirixRunning = true → a.beatStopped = false → enters .heartbeatLost 7) ∧
      enters .ctrlMemoryUncorrectable 8 ∧ ∀ c : Byte, 1 ≤ c → c ≤ 8 → enters (.safeHoldEntry c) c) ∧
    (a.pins.mainSeen = false → pins .pwrgdMainDeassert (fun p => { p with pwrgdMain := false }) ∧
      pins .mainUndervoltage (fun p => { p with precharged := false })) ∧
    pins .flowOkAssert (fun p => { p with flowOk := true, flowSince := if p.flowOk then p.flowSince else some a.stick.toNat }) ∧
    pins .holdInRelease (fun p => { p with holdIn := false }) ∧
    pins .referenceRestored (fun p => { p with refSince := if p.refSince.isSome then p.refSince else some a.stick.toNat })

/-! ### Power and fencing -/

/-- Fences, self-test and stock training (R22, R23, R543, R544, R614 to R616, R618, R620, Table 17.7): a faulty core's site gets code 0b01
and a running gang with a core there ends with CORE_FAILED; a stuck router, or the one at the far end of an input with 16 parity
failures, begins its full fence, and ROUTER_REMOVE ends it with code 0b10; SELF_TEST_DONE writes a region's entries together and
leaves it off; STOCK_TRAINING_DONE and NARROW_PAGE_AREA_SET_UP record a device's training and an edge's set-up. -/
def Obligations.FencesAndTests : Prop :=
  ∀ (s : State),
    let d := s.m.desc
    let usable (m : Mod) (r : Nat) : Nat := (((List.range 1024).map (siteAt r)).filter (fun k => m.fence k == 0)).length
    let counted (m : Mod) (r : Nat) : Prop := Tab.get m.desc.usable r 0 = usable m r ∧ (bit m.desc.short r = true ↔ usable m r < 1000)
    let ended (x : Nat) (t : State) : Prop :=
      let g := s.m.region (siteRegion x)
      let g' := t.m.region (siteRegion x)
      if g.run.running ∧ (g.coreOf x).isSome then g'.run.running = false ∧ g'.run.status = 3 else g'.run = g.run
    let fencing (i : Instr) (y : Nat) : Prop := ∃ t, exec i s = .next t ∧ t.m.mesh.removing = s.m.mesh.removing ++ [y] ∧ t.m.desc = d ∧
      let g := s.m.region (siteRegion y)
      let g' := t.m.region (siteRegion y)
      if g.run.running ∧ (g.coreOf y).isSome then g'.run.running = false ∧ g'.run.status = 3 else g'.run.running = g.run.running
    s.m.aon.state ≠ .safeHold → s.m.level 9 = 1 →
      (∀ (x : Fin 25600) (c : CoreFault), let g := s.m.region (siteRegion x)
        s.m.fence x = 0 → x.val ∉ s.m.mesh.removing →
        (c = .sram ∧ 2 ≤ Tab.get s.m.power.sramErrs x 0) ∨ ((c = .broadcast ∨ c = .silent) ∧ g.run.running = true ∧ (g.coreOf x).isSome = true) →
        ∃ t, exec (.coreFault x c) s = .next t ∧ (∀ k, t.m.fence k = if k = x.val then 1 else s.m.fence k) ∧ t.m.desc.gen = d.gen + 1 ∧
          counted t.m (siteRegion x) ∧ ended x t ∧ t.m.mesh = s.m.mesh ∧ t.m.events = (recordEvent
            { code := 9, flags := 0, source := siteRegion x, stick := s.m.aon.stick, count := 1, gang := 0, d0 := x.val
              d := BitVec.ofNat 64 ((d.gen + 1).toNat * 2 ^ 32 + 1) } s.m).events) ∧
      (∀ (x : Fin 25600), s.m.fullyFenced x = false → s.m.fence x ≠ 3 → s.m.ringBlocked x = false → fencing (.coreFault x .stuckRouter) x) ∧
      (∀ (x : Fin 25600) (input : Fin 4) (y : Nat), neighbour x input = some y → 16 ≤ Tab.get s.m.mesh.parityMark (4 * x + input) 0 →
        s.m.fullyFenced y = false → s.m.fence y ≠ 3 → s.m.ringBlocked y = false → fencing (.routerParityFailure x input) y) ∧
      (∀ (x : Fin 25600), x.val ∈ s.m.mesh.removing → ∃ t, exec (.routerRemove x) s = .next t ∧
        t.m.mesh.removed = s.m.mesh.removed ++ [x.val] ∧ t.m.mesh.removing = s.m.mesh.removing.filter (· != x.val) ∧
        (∀ k, t.m.fence k = if k = x.val then 2 else s.m.fence k) ∧ t.m.desc.gen = d.gen + 1 ∧ counted t.m (siteRegion x)) ∧
      (∀ (r : Fin 25) (cores : BitVec 1024), (s.m.region r).dom = .selfTest →
        ∃ t, exec (.selfTestDone r cores (BitVec.allOnes 1024)) s = .next t ∧ (t.m.region r).dom = .off ∧ bit t.m.desc.tested r = true ∧
          (∀ i < 1024, t.m.fence (siteAt r i) = if siteAt r i ∈ s.m.mesh.removed then 2 else if bit cores i then 0 else 1) ∧
          (∀ k, siteRegion k ≠ r.val → k < 25600 → t.m.fence k = s.m.fence k) ∧ t.m.desc.gen = d.gen + 1 ∧ counted t.m r ∧
          ((List.range 25).filter (fun k => (t.m.region k).dom == .selfTest)).length ≤
            max 5 ((List.range 25).filter (fun k => (s.m.region k).dom == .selfTest)).length) ∧
      (∀ (dev : Fin 32) (passed : Bool), let east := decide (16 ≤ dev.val)
        (if east then s.m.bringup.east else s.m.bringup.west) = .training → bit d.stockTrained dev = false →
        Tab.get s.m.bringup.devFails dev 0 < 2 → ∃ t, exec (.stockTrainingDone dev passed) s = .next t ∧
          (passed = true → t.m.desc = { d with stockTrained := sticky d.stockTrained dev, gen := d.gen + 1 }) ∧
          (passed = false → t.m.desc = d ∧ Tab.get t.m.bringup.devFails dev 0 = Tab.get s.m.bringup.devFails dev 0 + 1) ∧
          let settled (k : Nat) : Prop := bit t.m.desc.stockTrained k = true ∨ 2 ≤ Tab.get t.m.bringup.devFails k 0
          let edge (k : Nat) : Nat := if east then k + 16 else k
          let after := if east then t.m.bringup.east else t.m.bringup.west
          ((∀ k < 16, settled (edge k)) → (∃ k < 16, bit t.m.desc.stockTrained (edge k) = true) → after = .on) ∧
          ((∃ k < 16, ¬ settled (edge k)) → after = .training)) ∧
      (∀ east : Bool, (if east then s.m.bringup.east else s.m.bringup.west) = .on →
        let b := { s.m.bringup with narrowEast := s.m.bringup.narrowEast || east, narrowWest := s.m.bringup.narrowWest || !east }
        exec (.narrowPageAreaSetUp east) s = .next { s with m := { s.m with bringup := b } })

/-- Region power (R45, R285, R576, R577, R579, R540): a region with no gang and no route across it sleeps with every row, word and record
kept; one asleep for a second loses them; a woken one is clocked, at step 1 under its ceiling, with no valid view before the next
mark; the module enters STANDBY with stock in self-refresh when every region sleeps or is off and nothing is at work. Power-up (R33,
R540 to R545, R547, R549, R550, R627, R643, Table 15.2, Table 15.6): PWRGD_AUX_ASSERT samples the straps, AUX_ENTRY begins a power-on
with the stick at 0, BOOT_ENTRY and BOOT_GO lead to BOOT and VERIFY, VERIFY_DONE makes the checks of Table 15.6 in order and goes back
to BOOT with the first that fails or is ready for Tirix, TIRIX_RUNNING starts it; the last of TIRIX_RUNNING, PWRGD_MAIN_ASSERT and
PRECHARGE powers stock, links and the first self-tests. AUX_POWER_LOSS goes to OFF; PERST_N resets the host function alone. -/
def Obligations.PowerStates : Prop :=
  (∀ (s : State) (r : Fin 25),
    let g := s.m.region r
    let a := s.m.aon
    (s.m.maySleep r = true → ∃ t, exec (.regionSleep r) s = .next t ∧
      t = { s with m := { s.m with regions := t.m.regions, power := { s.m.power with sleepSince := t.m.power.sleepSince } } } ∧
      (∀ k, t.m.region k = if k = r.val then { g with dom := .sleep, step := 0, viewValid := false, switching := 0 } else s.m.region k) ∧
      (∀ k, t.m.core k = s.m.core k) ∧ Tab.get t.m.power.sleepSince r 0 = a.stick.toNat) ∧
    (a.state ≠ .safeHold → g.dom = .sleep → Tab.get s.m.power.sleepSince r 0 + 2250000000 ≤ a.stick.toNat → ∃ t, exec (.regionOff r) s = .next t ∧
      t = { s with m := { s.m with regions := t.m.regions, cores := t.m.cores, freeCtr := s.m.freeCtr + 25600 } } ∧
      (∀ k, siteRegion k ≠ r.val → t.m.core k = s.m.core k) ∧ (∀ k, k ≠ r.val → t.m.region k = s.m.region k) ∧
      let g' := t.m.region r
      g'.dom = .off ∧ g'.run.running = false ∧ g'.seq.pipe = [] ∧ g'.eng.xfers = [] ∧
      ∀ k, siteRegion k = r.val → (t.m.core k).queues = [] ∧ (t.m.core k).stall = {} ∧ (t.m.core k).sp.cnt = {} ∧ (t.m.core k).ni.tokens = []) ∧
    (a.tirixRunning = true → a.state ≠ .safeHold → a.pins.pwrgdMain = true → bit s.m.desc.tested r = true → g.dom = .sleep ∨ g.dom = .off →
      g.pendingChange = false → ∃ t, exec (.regionWake r) s = .next t ∧
      (∀ k, t.m.region k = if k = r.val then { g with dom := .awake, step := min 1 (s.m.emerg r).ceiling, viewValid := false, switching := 0 }
        else s.m.region k) ∧ t.m.cores = s.m.cores ∧
      (a.state ≠ .standby → t = { s with m := { s.m with regions := t.m.regions } }) ∧
      (a.state = .standby → t.m.aon = { a with state := .full } ∧ t.m.stock = { s.m.stock with selfRefresh := false })) ∧
    (a.state = .full → s.m.anyRunning = false → (∀ p ∈ s.m.placements, p.preempted = false) →
      (∀ k < 25, (s.m.region k).dom = .sleep ∨ (s.m.region k).dom = .off) → s.m.jobs = [] →
      let m' := { s.m with aon := { a with state := .standby }, stock := { s.m.stock with selfRefresh := true }
                           bringup := { s.m.bringup with west := .selfRefresh, east := .selfRefresh } }
      exec .standbyEntry s = .next { s with m := m' })) ∧
  (∀ (s : State),
    let m := s.m
    let a := m.aon
    let b := m.bringup
    let pins (f : Pins → Pins) : Mod := { m with aon := { a with pins := f a.pins } }
    let becomes (i : Instr) (x : Mod) : Prop := exec i s = .next { s with m := x }
    let domains (t : State) : Prop := t.m.bringup.link = true ∧ t.m.bringup.west = .training ∧ t.m.bringup.east = .training ∧
      (∀ p < 24, (t.m.port p).state = .training) ∧
      ((∀ r < 25, (m.region r).dom = .off ∧ bit m.desc.tested r = false) → ∀ r < 25, ((t.m.region r).dom = .selfTest ↔ r < 5))
    let starts (i : Instr) : Prop := ∃ t, exec i s = .next t ∧ domains t
    (∀ (x8 : Bool) (smb : BitVec 2), a.state = .off → a.pins.pwrgdAux = false →
      becomes (.pwrgdAuxAssert x8 smb) (pins (fun p => { p with pwrgdAux := true, bifurcated := x8, smbAddr := smb }))) ∧
    (∀ external : Bool, a.state = .off → a.pins.pwrgdAux = true → ∃ t, exec (.auxEntry external) s = .next t ∧
      t.m.aon = { state := .aux, pins := t.m.aon.pins } ∧ t.m.aon.pins.refExternal = external ∧ t.m.sessions = [] ∧ t.m.settings = {} ∧
      t.m.events = {} ∧ t.m.regions = [] ∧ t.m.host.mem = m.host.mem ∧ t.m.b0 = m.b0) ∧
    (a.state = .aux → becomes .bootEntry { m with aon := { a with state := .boot }, bringup := { b with pcieReady := !a.pins.perst } }) ∧
    (a.state = .boot → becomes (.bootGo 1) { m with aon := { a with state := .verify }, bringup := { b with
      bootAttempts := if b.bootAttempts = 0xFFFF then 0xFFFF else b.bootAttempts + 1
      bootCopy := some (b.bootLength.toNat, b.bootImage), verified := false } }) ∧
    (∀ v : W32, v ≠ 1 → becomes (.bootGo v) m) ∧
    (∀ (len : Nat) (img : Mem 8), b.bootCopy = some (len, img) → a.state = .verify → b.verified = false →
      let h := img.bytes 0 0x1000
      let body := fld h 0x10 4
      let zeroed (o k : Nat) : Prop := ∀ x ∈ slice h o k, x = 0
      let bad (k : Nat) : Prop := match k with
        | 1 => len ≠ 0x1000 + body ∨ 50327552 < len
        | 2 => fld h 0 4 ≠ 0x57464B57 ∨ fld h 4 2 ≠ 1 ∨ body ≤ fld h 0x14 4 ∨
            ¬ (zeroed 0x0E 2 ∧ zeroed 0x18 0x28 ∧ zeroed 0x44 0x3C ∧ zeroed 0x480 0xB80)
        | 3 => fld h 6 2 ≠ if m.b0 then 0xB0 else 0xA1
        | 4 => sha512 (slice h 0x40 4 ++ slice h 0x80 512) ≠ Config.rootDigest m.b0
        | 5 => pssVerify (fld h 0x40 4) (fld h 0x80 512) (slice h 0 0x280 ++ img.bytes 0x1000 body) (slice h 0x280 512).reverse = false
        | _ => fld h 0x0C 2 < (Config.romMinSvn m.b0).toNat
      (∀ k, 1 ≤ k → k ≤ 6 → bad k → (∀ j, 1 ≤ j → j < k → ¬ bad j) → ∃ t, exec .verifyDone s = .next t ∧
        t.m.aon = { a with state := .boot } ∧ t.m.bringup.bootResult = BitVec.ofNat 8 k ∧ t.m.bringup.bootCopy = none ∧ t.m.ident = m.ident) ∧
      ((∀ k, 1 ≤ k → k ≤ 6 → ¬ bad k) →
        let digest := sha512 (slice h 0 0x480 ++ img.bytes 0x1000 body)
        becomes .verifyDone { m with aon := { a with fwVersion := BitVec.ofNat 32 (fld h 8 4), svn := BitVec.ofNat 16 (fld h 0x0C 2) }
                                     ident := { m.ident with fwDigest := digest }, bringup := { b with verified := true, bootCopy := none } })) ∧
    (a.state = .verify → b.verified = true → a.tirixRunning = false → ∃ t, exec .tirixRunning s = .next t ∧ t.m.aon.tirixRunning = true ∧
      (∀ k : Nat, k < 31 → (t.m.mailbox k).ack = (t.m.mailbox k).seq) ∧
      (a.pins.pwrgdMain = true → a.pins.precharged = true → b.link = false → domains t)) ∧
    (a.state = .verify → a.tirixRunning = true → b.link = false →
      (a.pins.precharged = true → starts .pwrgdMainAssert) ∧ (a.pins.pwrgdMain = true → starts .precharge)) ∧
    (a.tirixRunning = false → becomes .pwrgdMainAssert (pins (fun p => { p with pwrgdMain := true, mainSeen := p.mainSeen || a.state != .off })) ∧
      becomes .precharge (pins (fun p => { p with precharged := true }))) ∧
    (∃ t, exec .auxPowerLoss s = .next t ∧ t.m.aon = { pins := t.m.aon.pins } ∧ t.m.regions = [] ∧ t.m.cores = [] ∧ t.m.sessions = [] ∧
      t.m.settings = {} ∧ t.m.host.mem = m.host.mem) ∧
    (∀ asserted clockA clockB : Bool, ∃ t, exec (.perstN asserted clockA clockB) s = .next t ∧
      t.m.aon = { a with pins := t.m.aon.pins } ∧ t.m.aon.pins.perst = asserted ∧ t.m.regions = m.regions ∧ t.m.cores = m.cores ∧
      t.m.sessions = m.sessions ∧ t.m.settings = m.settings ∧ t.m.mailboxes = m.mailboxes ∧ (asserted = true → t.m.host.msixOn = false)))

/-! ### Links -/

/-- Port states (R385, R392, R407 to R409, R423, R545, Table 10.6, Table 10.8): a trained port enters HELLO and sends its hello record;
one that does not train in time goes to DOWN; a received hello is kept and checked in the order of Table 10.8, the first failing check
isolating the port and none putting it UP; a port that leaves UP is counted and trains again, its unacknowledged flits replayed on its
lowest sister port UP to the same neighbour, or dropped when there is none. -/
def Obligations.PortsChangeState : Prop :=
  ∀ (s : State) (p : Fin 24),
    let x := s.m.port p
    let m := s.m
    let talks : Prop := x.state = .hello ∨ x.state = .up ∨ x.state = .isolated
    let sent (y : Port) : Port := { y with
      retryBuf := y.retryBuf ++ [mkFlit 2 y.txSeq y.rxSeq 0 false false false (helloRecord m p)], txSeq := (y.txSeq + 1) % 4096
      cnt := { y.cnt with flitsTx := bump48 y.cnt.flitsTx 1 } }
    (m.bringup.link = true → m.aon.state ≠ .safeHold → x.state = .training ∨ x.state = .down → ∃ t, exec (.portTrained p) s = .next t ∧
      let y := t.m.port p
      y.state = .hello ∧ y.reason = 0 ∧ y.txSeq = 1 ∧ y.rxSeq = 0 ∧ y.ingress = [] ∧ y.credits = [] ∧
      y.retryBuf = [mkFlit 2 0 0 0 false false false (helloRecord m p)]) ∧
    (m.bringup.link = true → x.state = .training → ∃ t, exec (.portTrainingTimeout p) s = .next t ∧ (t.m.port p).state = .down ∧
      bit t.m.bringup.settled p = true) ∧
    (talks → x.retryBuf.length < 1024 → exec (.helloSend p) s = .next { s with m := m.onPort p sent }) ∧
    (∀ h : List Byte, h.length = 128 → m.aon.state ≠ .safeHold → talks ∨ x.state = .quiet → fld h 0 4 = 0x4F4C4844 → fld h 4 2 = 1 →
      m.level 0x0A ≤ 1 → m.level 0x0B ≤ 1 →
      let serial := fld h 8 8
      let d := p.val / 4
      let known : Prop := x.nserial.toNat = serial ∧ x.ndigest = slice h 0x40 64
      let bad (k : Nat) : Prop := match k with
        | 1 => serial = m.desc.serial.toNat ∧ serial ≠ 0
        | 2 => m.topo.partition = 0 ∨ fld h 7 1 / 2 % 2 = 0 ∨ fld h 0x10 8 ≠ m.topo.partition.toNat
        | 3 => fld h 6 1 ≠ 4 * (if d % 2 = 0 then d + 1 else d - 1) + p.val % 4 ∨ fld h 0x1A 2 ≠ m.topo.dims.toNat ∨
            coordIndex (BitVec.ofNat 16 (fld h 0x18 2)) ≠ stepModule m.topo.dims m.selfIndex d
        | _ => m.topo.requireVerified = true ∧ ¬ (known ∧ x.verif = 2)
      ∃ t, exec (.helloReceived p h) s = .next t ∧
        let y := t.m.port p
        y.nport = fld h 6 1 ∧ y.nserial = BitVec.ofNat 64 serial ∧ y.ncoord = BitVec.ofNat 16 (fld h 0x18 2) ∧
        y.npartition = BitVec.ofNat 64 (fld h 0x10 8) ∧ y.ndigest = slice h 0x40 64 ∧ (known → y.verif = x.verif) ∧ (¬ known → y.verif = 0) ∧
        (fld h 7 1 / 8 % 2 = 1 → y.state = .quiet) ∧
        (fld h 7 1 / 8 % 2 = 0 →
          (∀ k, 1 ≤ k → k ≤ 4 → bad k → (∀ j, 1 ≤ j → j < k → ¬ bad j) → y.state = .isolated ∧ y.reason = k) ∧
          ((∀ k, 1 ≤ k → k ≤ 4 → ¬ bad k) → y.state = .up ∧ y.reason = 0))) ∧
    (∀ cause : PortLoss, x.state = .up → m.level 0x0B = 1 → ∃ t, exec (.portDown p cause) s = .next t ∧
      let y := t.m.port p
      let sisters : List Nat := ((List.range 4).map (fun i => 4 * (p.val / 4) + i)).filter (fun q =>
        q != p.val && (m.port q).state == .up && (m.port q).nserial == x.nserial)
      y.state = .training ∧ y.aligned = false ∧ y.retryBuf = [] ∧ y.cnt.linkDowns = x.cnt.linkDowns + 1 ∧
      (∀ q rest, sisters = q :: rest → (t.m.port q).resend = x.retryBuf.map (replayFlit p) ∧ y.failover = true ∧
        y.cnt.failovers = x.cnt.failovers + 1 ∧ y.ingress = x.ingress ∧ ∀ r < 25, (m.region r).run.running = true → (t.m.region r).run.tickVoid = true) ∧
      (sisters = [] → ∀ i ∈ y.ingress, i.done = true) ∧
      t.m.events = (recordEvent { code := 0x0B, flags := if sisters = [] then 2 else 0, source := p.val, stick := m.aon.stick, count := 1
                                  gang := 0, d0 := 0, d := x.nserial } m).events) ∧
    (∀ watts : BitVec 5, watts.toNat ≤ 25 → exec (.plugInsert p watts) s = .next { s with m := m.onPort p (fun y => { y with charge := watts.toNat }) })

/-- Decler flits and the port switch (R388 to R390, R393, R395, R396, R399, R417, R418, R423, R427): FLIT_RECEIVE takes a sequenced flit
only with a correct CRC and the next SEQ, its body joining its channel's message, and discards any other; RETRY sends again from the
named SEQ; MARK_FLIT gives twice the neighbour's offset. A message at a gateway, or for another module, leaves by its direction's port
in flits of 244 bytes, or is dropped with no route; a whole one for this module enters the mesh at its gateway. Notices and challenges
(R370, R372, R410 to R412, R416): a notice of another module that says something new is kept and flooded over every other port that
talks; the end of a remote gang abandons the words it was to signal; an answer that proves the challenged neighbour makes it verified,
any other failed; a neighbour's challenge is answered with the certificate and a signature over nonce, serial and hello record, or
NOT_READY; a challenge still pending is sent again. -/
def Obligations.LinkTrafficAndNotices : Prop :=
  (∀ (s : State) (p : Fin 24),
    let m := s.m
    let x := m.port p
    let talks : Prop := x.state = .hello ∨ x.state = .up ∨ x.state = .isolated
    let lineup (bs : List Byte) : Nat := (bs.length + 243) / 244
    let goesOut (t : State) (q lch : Nat) (abort : Bool) (bs : List Byte) : Prop :=
      let y := m.port q
      let z := t.m.port q
      let n := lineup bs
      z.txSeq = (y.txSeq + n) % 4096 ∧ z.cnt.flitsTx = bump48 y.cnt.flitsTx n ∧ z.retryBuf = y.retryBuf ++ (List.range n).map (fun i =>
        mkFlit 1 ((y.txSeq + i) % 4096) y.rxSeq lch (i == 0) (i + 1 == n && !abort) (i + 1 == n && abort) ((bs.drop (244 * i)).take 244))
    (∀ (f : List Byte) (fec : Bool), f.length = 256 → talks → m.aon.state ≠ .safeHold →
      let h := flitHdr f
      let ty := sel h 63 60
      let sequenced : Prop := 1 ≤ ty ∧ ty ≤ 3
      let good : Prop := crc32 (f.take 252) = wordOf 32 (f.drop 252)
      ∃ t, exec (.flitReceive p f fec) s = .next t ∧
        let y := t.m.port p
        (¬ good → y.cnt.crcErrors = x.cnt.crcErrors + 1 ∧ y.rxSeq = x.rxSeq ∧ y.ingress = x.ingress ∧ y.retryBuf = x.retryBuf ∧ y.state = x.state) ∧
        (good → 7 ≤ ty → y.cnt.reservedFlits = x.cnt.reservedFlits + 1 ∧ y.rxSeq = x.rxSeq ∧ y.ingress = x.ingress ∧ y.state = x.state) ∧
        (good → sequenced → bit h 20 = false → sel h 59 48 ≠ x.rxSeq → y.rxSeq = x.rxSeq ∧ y.ingress = x.ingress ∧ y.cnt.flitsRx = x.cnt.flitsRx) ∧
        (good → sequenced → bit h 20 = false → sel h 59 48 = x.rxSeq → y.rxSeq = (x.rxSeq + 1) % 4096 ∧
          y.cnt.flitsRx = bump48 x.cnt.flitsRx 1 ∧ y.cnt.crcErrors = x.cnt.crcErrors ∧
          (ty ≠ 1 ∨ x.state ≠ .up ∨ m.traffic = false → y.ingress = x.ingress) ∧
          (ty = 1 → x.state = .up → m.traffic = true →
            let body := slice f 8 (sel h 28 21)
            let i : Ingress := { lch := sel h 34 32, bytes := body, done := bit h 30 || bit h 29, abort := bit h 29 }
            (bit h 31 = true → y.ingress = x.ingress ++ [i]) ∧
            (∀ pre k post, bit h 31 = false → x.ingress = pre ++ k :: post → k.lch = i.lch → k.done = false →
              (∀ z ∈ pre, ¬ (z.lch = i.lch ∧ z.done = false)) → y.ingress = pre ++ { i with bytes := k.bytes ++ body } :: post))) ∧
        (good → sequenced → bit h 20 = true → ∀ q, m.failedPort p (sel h 19 15) = some q →
          (sel h 59 48 = (m.port q).rxSeq → (t.m.port q).rxSeq = ((m.port q).rxSeq + 1) % 4096) ∧
          (sel h 59 48 ≠ (m.port q).rxSeq → y.cnt.replayDrops = x.cnt.replayDrops + 1 ∧ (t.m.port q).rxSeq = (m.port q).rxSeq)) ∧
        (good → ty = 6 → x.state ≠ .up → y.state = .quiet)) ∧
    (∀ (seq : BitVec 12) (k : Nat), talks → x.retryBuf.length ≤ 1024 → x.txSeq < 4096 → k ≤ x.retryBuf.length →
      (x.txSeq + 4096 - x.retryBuf.length + k) % 4096 = seq.toNat → ∃ t, exec (.retry p seq) s = .next t ∧
        (t.m.port p).resend = x.retryBuf.drop k ∧ (t.m.port p).retryBuf = x.retryBuf ∧ (t.m.port p).cnt.retries = x.cnt.retries + 1) ∧
    (∀ tx et er arrival : W64, x.state = .up → exec (.markFlit p tx et er arrival) s = .next { s with m := m.onPort p (fun y => { y with
      theta := if et = 0 then y.theta else some ((er.toNat : Int) - et.toNat + ((tx.toNat : Int) - arrival.toNat))
      echoTx := tx, echoRx := arrival }) }) ∧
    (∀ (j : Fin 4) (z : MeshMsg) (rest : List MeshMsg), m.traffic = true → Tab.get m.mesh.gateways (p * 4 + j) [] = z :: rest →
      let bs := bytesOf z.hdr 16 ++ z.rows.flatMap (fun r => bytesOf r 512)
      let dir := enterDir m (sel z.hdr 121 110)
      ((dir = none ∨ ∃ d, dir = some d ∧ m.linePort d z.hdr = none) → ∃ t, exec (.linkEgress p j) s = .next t ∧
        Tab.get t.m.mesh.gateways (p * 4 + j) [] = rest ∧ (t.m.port p).cnt.noRouteDrops = x.cnt.noRouteDrops + 1) ∧
      (∀ d q, dir = some d → m.linePort d z.hdr = some q →
        let lch := 2 * sel z.hdr 124 123 + if crossesDateline m d then 1 else 0
        (m.port q).txSeq < 4096 → (m.port q).retryBuf.length + lineup bs ≤ 1024 → Tab.get (m.port q).credits lch 0 < Config.linkBuffers →
        ∃ t, exec (.linkEgress p j) s = .next t ∧ Tab.get t.m.mesh.gateways (p * 4 + j) [] = rest ∧ goesOut t q lch false bs)) ∧
    (∀ (i : Ingress) (pre post : List Ingress), m.traffic = true → x.ingress = pre ++ i :: post → i.done = true →
      let hdr : W128 := wordOf 128 (i.bytes.take 16)
      (sel hdr 121 110 ≠ m.selfIndex → (∀ y ∈ pre, y.done = false ∨ sel (wordOf 128 (y.bytes.take 16)) 121 110 = m.selfIndex) →
        (∀ d cls q, forwardDir m p i = some (d, cls) → m.linePort d hdr = some q → q ≠ p.val →
          let lch := 2 * sel hdr 124 123 + if crossesDateline m d then 1 else cls
          (m.port q).txSeq < 4096 → (m.port q).retryBuf.length + lineup i.bytes ≤ 1024 → Tab.get (m.port q).credits lch 0 < Config.linkBuffers → i.bytes ≠ [] →
          ∃ t, exec (.messageForward p) s = .next t ∧ (t.m.port p).ingress = pre ++ post ∧ goesOut t q lch i.abort i.bytes ∧
            (t.m.port q).cnt.forwarded = bump48 (m.port q).cnt.forwarded 1) ∧
        (forwardDir m p i = none → ∃ t, exec (.messageForward p) s = .next t ∧ (t.m.port p).ingress = pre ++ post ∧
          (t.m.port p).cnt.noRouteDrops = x.cnt.noRouteDrops + 1)) ∧
      (sel hdr 121 110 = m.selfIndex → (∀ y ∈ pre, y.done = false ∨ sel (wordOf 128 (y.bytes.take 16)) 121 110 ≠ m.selfIndex) →
        (i.abort = true → ∃ t, exec (.ingressInject p) s = .next t ∧ (t.m.port p).ingress = pre ++ post ∧
          (t.m.port p).cnt.linkAborts = x.cnt.linkAborts + 1 ∧ t.m.mesh = m.mesh) ∧
        (∀ rows : List Row, i.abort = false → i.bytes = bytesOf hdr 16 ++ rows.flatMap (fun r => bytesOf r 512) →
          let gate := gatewaySite p (sel hdr 104 95 % 4)
          let n := m.mesh
          n.buf gate (gatewaySide p) (sel hdr 124 123) = [] → ∃ t, exec (.ingressInject p) s = .next t ∧ (t.m.port p).ingress = pre ++ post ∧
            (t.m.mesh.buf gate (gatewaySide p) (sel hdr 124 123)).length = 1 + 8 * rows.length ∧
            ∃ y, Tab.find t.m.mesh.msgs n.nextId = some y ∧ y.hdr = hdr ∧ y.rows = rows ∧ y.remote = true ∧
              y.dst = ((m.remoteTarget hdr).map (·.2)).getD gate)))) ∧
  (∀ (s : State) (p : Fin 24),
    let m := s.m
    let x := m.port p
    let talks (y : Port) : Prop := y.state = .hello ∨ y.state = .up ∨ y.state = .isolated
    let flooded (n : NoticeIn) (t : State) : Prop := ∀ q < 24,
      (t.m.port q).outbox = (m.port q).outbox ++ if talks (m.port q) ∧ q ≠ p.val then [n] else []
    talks x →
      (∀ (i : Fin 4096) (up : BitVec 24), i.val ≠ m.selfIndex →
        (Tab.find m.topo.links i = some up → exec (.notice p (.linkState i up)) s = .next s) ∧
        (Tab.find m.topo.links i ≠ some up → m.topo.reach = [] → ∃ t, exec (.notice p (.linkState i up)) s = .next t ∧
          Tab.find t.m.topo.links i = some up ∧ (∀ k, k ≠ i.val → Tab.find t.m.topo.links k = Tab.find m.topo.links k) ∧
          flooded (.linkState i up) t ∧
          t.m.topo.reach = if m.traffic then (t.m.partitionModules).filter (reachable t.m) else [])) ∧
      (∀ (i : Fin 4096) (g : W16), i.val ≠ m.selfIndex →
        let key := (i.val, g.toNat)
        let preempted (l : List (Nat × Nat)) (t : State) : Prop :=
          t.m.topo.remotePreempted = l ∧ t.m.regions = m.regions ∧ t.m.cores = m.cores
        (key ∉ m.topo.remotePreempted → ∃ t, exec (.notice p (.preempted i g)) s = .next t ∧
          preempted (m.topo.remotePreempted ++ [key]) t ∧ flooded (.preempted i g) t) ∧
        (key ∈ m.topo.remotePreempted → ∃ t, exec (.notice p (.resumed i g)) s = .next t ∧
          preempted (m.topo.remotePreempted.filter (· != key)) t ∧ flooded (.resumed i g) t) ∧
        (∃ t, exec (.notice p (.gangEnd i g)) s = .next t ∧ key ∈ t.m.topo.remoteEnded ∧ key ∉ t.m.topo.remotePreempted ∧
          (key ∉ m.topo.remoteEnded → flooded (.gangEnd i g) t) ∧
          ∀ r < 25, (m.region r).run.running = true → ∀ k ∈ (m.region r).site, ∀ d ∈ (m.region r).decl.clamps,
            let sh := (m.core k).cc.shadow.get d.word
            sel sh 127 112 = g.toNat → g ≠ 0 → bit sh 52 = true → sel sh 51 40 = i.val → bit ((t.m.core k).cc.words.get d.word) 61 = true)) ∧
      (∀ cert sig : List Byte, x.verif = 1 → x.state = .hello →
        let ok : Prop := sha512 cert = x.ndigest ∧ Config.certSerial cert = x.nserial ∧
          Config.certVerifies cert (x.nonce ++ bytesOf m.desc.serial 8 ++ x.nhello) sig = true ∧
          (m.topo.anchor = [] ∨ Config.certChains m.topo.anchor cert = true)
        ∃ t, exec (.notice p (.answer cert sig)) s = .next t ∧ (t.m.port p).challenge = none ∧
          (ok → (t.m.port p).verif = 2) ∧ (¬ ok → (t.m.port p).verif = 3)) ∧
      (exec (.notice p .notReady) s = .next s) ∧
      (∀ (nonce : List Byte) (serial : W64), nonce.length = 32 →
        let answers (a : NoticeIn) : Prop :=
          exec (.challengeReceived p nonce serial) s = .next { s with m := m.onPort p (fun y => { y with outbox := y.outbox ++ [a] }) }
        (∀ k, m.ident.key = some k → m.aon.identityReady = true →
          answers (.answer m.ident.cert (Config.identitySign k (nonce ++ bytesOf serial 8 ++ helloRecord m p)))) ∧
        (m.ident.key = none ∨ m.aon.identityReady = false → answers .notReady)) ∧
      (x.verif = 1 → exec (.challengeRetry p) s = .next { s with m := m.onPort p (fun y => { y with
        retryBuf := y.retryBuf ++ [mkFlit 3 y.txSeq y.rxSeq 0 false false false y.nonce], txSeq := (y.txSeq + 1) % 4096
        cnt := { y.cnt with flitsTx := bump48 y.cnt.flitsTx 1 } }) }))

/-! ### The command mailboxes -/

/-- Posting and the general checks (R499, R500, R502, R508, R512, Table 14.5, Table 14.7): a mailbox that takes no writes discards the
request; one that Tirix does not serve yet waits; a code outside Table 14.7 answers E_UNKNOWN_COMMAND; then the Session, State,
Length, Rights and Busy checks answer in that order, and a failed check changes nothing beside the mailbox and the MSI-X message of
its answer. -/
def Obligations.MailboxChecks : Prop :=
  ∀ (i : Instr) (s : State) (q : Req) (x : CmdRow), mailboxRow i = some (x, q) → Instr.wf i = true →
    let m := s.m
    let st := m.aon.state
    let fails (status : Nat) := Served i s q x.code status [] m
    (¬ Takes m q → exec i s = .next s) ∧
    (Takes m q → ¬ Serves m → exec i s = .next { s with m := m.onMailbox q.no (postedBox x.code q) }) ∧
    (Takes m q → Serves m →
      (m.kindOf q.no ∉ x.kinds → fails 0x102) ∧
      (m.kindOf q.no ∈ x.kinds →
        (st ∉ x.states → fails (if st = .safeHold then 0x10C else if st = .roughCut then 0x10D else 0x10A)) ∧
        (st ∈ x.states →
          (∀ n, x.size = some n → q.body.length ≠ (n + 3) / 4 * 4 → fails 0x101) ∧
          (∀ r, x.right = some r → m.holds q.no r = false → fails 0x101 ∨ fails 0x103) ∧
          (x.long = true → m.long q.no = true → fails 0x101 ∨ fails 0x103 ∨ fails 0x10E)))) ∧
    (∀ code : W16, Instr.wf (.mailboxUnknownCommand code q) = true →
      (¬ Takes m q → exec (.mailboxUnknownCommand code q) s = .next s) ∧
      (Takes m q → ¬ Serves m →
        exec (.mailboxUnknownCommand code q) s = .next { s with m := m.onMailbox q.no (postedBox code.toNat q) }) ∧
      (Takes m q → Serves m → Served (.mailboxUnknownCommand code q) s q code.toNat 0x100 [] m))

/-- Sessions and the owner (R509, R511, R569 to R571, Table 14.8): HELLO names the module and the session bound to the mailbox;
OPEN_SESSION binds a new session with a fresh identifier; CLOSE_SESSION stops the session's gangs, unloads its images, frees its stock
and unbinds it; INSTALL_OWNER sets the owner key once; OWNER_PROVE gives a nonce, and a proof over it and SERIAL that verifies opens
the owner session. Each that changes a setting enters the change log. -/
def Obligations.SessionsOpenAndClose : Prop :=
  ∀ (s : State) (q : Req),
    let m := s.m
    let sess := m.sessId q.no
    let size (n : Nat) : Prop := q.body.length = n
    (Allowed m (.hello q) q → size 0 → Served (.hello q) s q 1 0 (le 2 1 ++ le 2 (if m.b0 then 0xB0 else 0xA1) ++ bytesOf m.aon.fwVersion 4 ++
      bytesOf m.desc.serial 8 ++ le 4 (sess * 65536 + m.kindOf q.no * 256 + m.aon.state.code * 16) ++
      bytesOf (((m.sessionOn q.no).map (·.rights)).getD 0) 4) m) ∧
    (Allowed m (.openSession q) q → size 0x14 → (q.byte 1 = 2 ∧ 1 ≤ q.byte 0 ∧ q.byte 0 ≤ 29 ∧ q.fld 4 4 / 16 % 2 = 0) ∨ (q.byte 1 = 3 ∧ q.byte 0 = 30) →
      q.fld 0x10 4 ≤ 1048576 →
      let id := m.nextSession
      let rights := q.fld 4 4 % 32
      let regions := q.fld 8 4 % 2 ^ 25
      (m.sessionOn (q.byte 0) ≠ none → Served (.openSession q) s q 2 0x10A [] m) ∧
      (m.sessionOn (q.byte 0) = none → id ≤ 65535 → Served (.openSession q) s q 2 0 (le 2 id)
        (logChange 0x0002 sess (q.byte 1) id false 0 (rights * 2 ^ 32 + regions) { m with
          nextSession := id + 1
          sessions := m.sessions ++ [{ id := id, mb := q.byte 0, kind := q.byte 1, rights := BitVec.ofNat 32 rights
                                       regions := BitVec.ofNat 25 regions, scope := BitVec.ofNat 16 (q.fld 0x0C 2), quota := q.fld 0x10 4 }] }))) ∧
    (∀ x, Allowed m (.closeSession q) q → size 4 → q.byte 0 ≤ 30 ∨ q.byte 0 = 0xFF →
      let mb := if q.byte 0 = 0xFF then q.no else q.byte 0
      (m.kindOf q.no ≠ 1 → mb ≠ q.no → Served (.closeSession q) s q 3 0x103 [] m) ∧
      (m.kindOf q.no = 1 ∨ mb = q.no →
        (m.sessionOn mb = none → Served (.closeSession q) s q 3 0x10A [] m) ∧
        (m.sessionOn mb = some x → ∃ t, exec (.closeSession q) s = .next t ∧
          t.m.log.getLast? = some { command := 3, session := BitVec.ofNat 16 sess, detail := BitVec.ofNat 32 (mb * 65536 + x.id % 65536)
                                    stick := m.aon.stick, old := BitVec.ofNat 64 (x.rights.toNat * 2 ^ 32 + x.regions.toNat), new := 0 } ∧
          t.m.sessions = m.sessions.filter (fun y => y.id != x.id) ∧
          t.m.images = m.images.filter (fun y => !m.images.any (fun z => z.session == x.id && z.id == y.id)) ∧
          (∀ p ∈ t.m.placements, ∀ y ∈ m.images, y.session = x.id → p.image ≠ y.id) ∧
          (∀ k < 2 ^ 27, m.pageHeld x.id k = false → t.m.pte x.id k = 0) ∧ (∀ y ∈ t.m.alloc.hostMap, y.1 / 2 ^ 31 ≠ x.id) ∧
          (t.m.aon.ownerProven = (m.aon.ownerProven && x.kind != 1))))) ∧
    (Allowed m (.installOwner q) q → size 0x210 → 3 ≤ q.fld 0 4 → q.fld 0 4 % 2 = 1 →
      let n := slice q.body 0x10 512
      let new := fld (sha512 (le 4 (q.fld 0 4) ++ n)) 0 8
      (m.aon.ownerInstalled = false → Served (.installOwner q) s q 4 0 [] (logChange 0x0004 0 0 0 false 0 new { m with
        aon := { m.aon with ownerInstalled := true }, ident := { m.ident with ownerExp := BitVec.ofNat 32 (q.fld 0 4), ownerMod := n } })) ∧
      (m.aon.ownerInstalled = true → Served (.installOwner q) s q 4 0x105 []
        (logChange 0x0004 0 0 0 true (fld (sha512 (bytesOf m.ident.ownerExp 4 ++ m.ident.ownerMod)) 0 8) new m))) ∧
    (Allowed m (.ownerProveNonce q) q → size 4 → q.byte 0 = 0 → let n := Config.nonce m.freeCtr 32
      Served (.ownerProveNonce q) s q 5 0 n { m with ident := { m.ident with nonce := some (n, m.desc.serial) }, freeCtr := m.freeCtr + 1 }) ∧
    (Allowed m (.ownerProveProof q) q → size 0x208 →
      let spent := { m with ident := { m.ident with nonce := none } }
      (m.ident.nonce = none → Served (.ownerProveProof q) s q 5 0x10A [] m) ∧
      (∀ n serial, m.ident.nonce = some (n, serial) → m.aon.ownerInstalled = true → m.nextSession ≤ 65535 →
        let ok := pssVerify m.ident.ownerExp.toNat (leNat m.ident.ownerMod) (n ++ bytesOf serial 8) (slice q.body 8 512).reverse
        (ok = false → Served (.ownerProveProof q) s q 5 0x104 [] spent) ∧
        (ok = true → Served (.ownerProveProof q) s q 5 0 [] { spent with
          aon := { m.aon with ownerProven := true }, nextSession := m.nextSession + 1
          sessions := m.sessions ++ [{ id := m.nextSession, mb := 0, kind := 1, rights := 0xF, regions := 0x1FFFFFF, quota := 1048576 }] })))

/-- The identity key and certificate, the records, the partition and the links (R398, R410, R514 to R516, R560 to R564, Table 14.8, Table
14.9): chunks build a transfer, and the last one begins the key's regeneration or sets the certificate; PUF_REGENERATION_DONE makes
the identity ready for the digest the helper ends with; GET_DESCRIPTOR and GET_TOPOLOGY give a range of their record; SET_PARTITION
sets the partition once; LINK_CONTROL disables, enables and challenges ports, and sets REQUIRE_VERIFIED and the trust anchor. -/
def Obligations.IdentityAndLinkCommands : Prop :=
  ∀ (s : State) (q : Req) (mb : Fin 31) (j : Job),
    let m := s.m
    let sess := m.sessId q.no
    let size (n : Nat) : Prop := q.body.length = n
    let total := q.fld 0 4
    let off := q.fld 4 4
    let dat := q.body.drop 8
    let chunk : Prop := 8 ≤ q.body.length ∧ 1 ≤ total ∧ total ≤ 65536
    let grown (old : Option Chunked) (got : List Byte) : Prop := off + dat.length ≤ total ∧
      ((off = 0 ∧ got = dat) ∨ ∃ x, off ≠ 0 ∧ old = some x ∧ x.total = total ∧ x.got.length = off ∧ got = x.got ++ dat)
    let named : List Nat := (List.range 24).filter (fun p => q.fld 4 4 / 2 ^ p % 2 == 1)
    let quiet : Prop := ∀ p, ((m.port p).state ≠ .up ∧ (m.port p).state ≠ .isolated) ∨ (m.port p).nhello = []
    (Allowed m (.supplyPufHelper q) q → chunk →
      ((∀ got, ¬ grown m.ident.helper got) →
        Served (.supplyPufHelper q) s q 6 0x101 [] { m with ident := { m.ident with helper := none } }) ∧
      ∀ got, grown m.ident.helper got →
        (got.length ≠ total →
          Served (.supplyPufHelper q) s q 6 0 [] { m with ident := { m.ident with helper := some { total := total, got := got } } }) ∧
        (got.length = total → m.long q.no = false →
          Begun (.supplyPufHelper q) s q 6 (.puf got) { m with ident := { m.ident with helper := none } })) ∧
    (∀ helper digest, Outstanding m mb (fun k => match k with
        | .puf _ => true
        | _ => false) j → j.kind = .puf helper → digest.length = 64 → 64 ≤ helper.length →
      let good : Bool := match m.ident.key with
        | some k => k == digest
        | none => helper.drop (helper.length - 64) == digest
      ∃ t, Ends (.pufRegenerationDone mb digest) s t j (if good then 0 else 0x104) [] ∧
        t.m.ident = (if good then { m.ident with key := some digest } else m.ident) ∧
        t.m.aon = (if good && m.ident.key.isNone then { m.aon with identityReady := true } else m.aon)) ∧
    (∀ got key, Allowed m (.supplyIdentityCert q) q → chunk → grown m.ident.certXfer got → m.ident.key = some key →
      let fit := Config.certMatches key got = true
      let same := m.ident.cert = [] ∨ Config.certSerial got = m.desc.serial
      (got.length ≠ total → Served (.supplyIdentityCert q) s q 7 0 [] { m with ident := { m.ident with
        certXfer := some { total := total, got := got } } }) ∧
      (got.length = total → ¬ fit → Served (.supplyIdentityCert q) s q 7 0x104 [] m) ∧
      (got.length = total → fit → ¬ same → Served (.supplyIdentityCert q) s q 7 0x10A [] m) ∧
      (got.length = total → fit → same → Served (.supplyIdentityCert q) s q 7 0 [] { m with
        ident := { m.ident with certXfer := none, cert := got }
        desc := { m.desc with serial := Config.certSerial got, gen := m.desc.gen + 1 } })) ∧
    (size 4 → 1 ≤ q.fld 2 2 → q.fld 2 2 ≤ 1768 →
      let range (gen : W32) (l : List Byte) : List Byte := bytesOf gen 4 ++ zeros 4 ++ slice l (q.fld 0 2) (q.fld 2 2)
      (Allowed m (.getDescriptor q) q → Served (.getDescriptor q) s q 0x10 (if 8192 < q.fld 0 2 + q.fld 2 2 then 0x101 else 0)
        (if 8192 < q.fld 0 2 + q.fld 2 2 then [] else range m.desc.gen (descBytes m)) m) ∧
      (Allowed m (.getTopology q) q → Served (.getTopology q) s q 0x11 (if 1536 < q.fld 0 2 + q.fld 2 2 then 0x101 else 0)
        (if 1536 < q.fld 0 2 + q.fld 2 2 then [] else range m.topo.gen (topoBytes m)) m)) ∧
    (Allowed m (.setPartition q) q → size 12 → q.fld 0 8 ≠ 0 → (∀ k ∈ [1, 16, 256], q.fld 8 2 / k % 16 ≤ q.fld 10 2 / k % 16) →
      let part := BitVec.ofNat 64 (q.fld 0 8)
      let old := m.topo
      (old.partition ≠ 0 → old.partition ≠ part → Served (.setPartition q) s q 0x12 0x105 []
        (logChange 0x0012 sess 0 0 true old.partition.toNat part.toNat m)) ∧
      (old.partition = 0 ∨ old.partition = part → m.anyRunning = true → Served (.setPartition q) s q 0x12 0x10A [] m) ∧
      (old.partition = 0 ∨ old.partition = part → m.anyRunning = false → quiet → old.reach = [] →
        ∃ t, Answers (.setPartition q) s t q 0x12 0 [] ∧
          t.m = { m with topo := t.m.topo, log := t.m.log, logTotal := m.logTotal + 1, mailboxes := t.m.mailboxes, host := t.m.host } ∧
          t.m.topo.partition = part ∧ t.m.topo.coord = BitVec.ofNat 16 (q.fld 8 2 % 4096) ∧ t.m.topo.dims = BitVec.ofNat 16 (q.fld 10 2 % 4096))) ∧
    (size 80 →
      (Allowed m (.linkDisable q) q → q.byte 0 = 0 → (∀ p ∈ named, (m.port p).state ≠ .up) → m.topo.reach = [] →
        ∃ t, Answers (.linkDisable q) s t q 0x13 0 [] ∧ ∀ p, (t.m.port p).state = if p ∈ named then .disabled else (m.port p).state) ∧
      (Allowed m (.linkEnable q) q → q.byte 0 = 1 → m.topo.reach = [] → ∃ t, Answers (.linkEnable q) s t q 0x13 0 [] ∧
        ∀ p, (t.m.port p).state = if p ∈ named ∧ (m.port p).state = .disabled then .training else (m.port p).state) ∧
      (Allowed m (.linkChallenge q) q → q.byte 0 = 2 → m.long q.no = false →
        ((∃ p ∈ named, (m.port p).state ≠ .hello ∧ (m.port p).state ≠ .up) → Served (.linkChallenge q) s q 0x13 0x10A [] m) ∧
        ((∀ p ∈ named, (m.port p).state = .hello ∨ (m.port p).state = .up) → m.topo.reach = [] →
          ∃ t, Answers (.linkChallenge q) s t q 0x13 1 [] ∧
            (∃ y, t.m.jobs = m.jobs ++ [y] ∧ y.mb = q.no ∧ y.seq = (m.mailbox q.no).ack + 1 ∧ y.kind = .challenge (BitVec.ofNat 24 (q.fld 4 4))) ∧
            ∀ p, (p ∈ named → (t.m.port p).verif = 1 ∧ (t.m.port p).challenge = some m.aon.stick.toNat) ∧
              (p ∉ named → t.m.port p = m.port p))) ∧
      (Allowed m (.requireVerified q) q → q.byte 0 = 3 → q.fld 8 4 ≤ 1 → quiet → m.topo.reach = [] →
        ∃ t, Answers (.requireVerified q) s t q 0x13 0 [] ∧ t.m.topo.requireVerified = (q.fld 8 4 == 1) ∧
          t.m = { m with topo := t.m.topo, log := t.m.log, logTotal := m.logTotal + 1, mailboxes := t.m.mailboxes, host := t.m.host }) ∧
      (Allowed m (.trustAnchor q) q → q.byte 0 = 4 →
        let a := slice q.body 16 64
        let new := if ∀ b ∈ a, b = 0 then [] else a
        Served (.trustAnchor q) s q 0x13 0 [] (logChange 0x0013 sess 4 0 false (fld m.topo.anchor 0 8) (fld new 0 8)
          { m with topo := { m.topo with anchor := new } }))) ∧
    (∀ ports, Outstanding m mb (fun k => match k with
        | .challenge _ => true
        | _ => false) j → j.kind = .challenge ports →
      let named : List Nat := (List.range 24).filter (fun p => ports.toNat / 2 ^ p % 2 == 1)
      let due (p : Nat) : Option Nat := let y := m.port p
        if y.verif = 2 then some 1 else if y.verif = 3 ∨ y.state.talks = false ∨ y.challenge = none then some 2
        else if y.challenge.getD 0 + 60 * 2250000000 ≤ m.aon.stick.toNat then some 3 else none
      ((∃ p ∈ named, due p = none) → exec (.linkChallengeDone mb) s = .next s) ∧
      ((∀ p ∈ named, due p ≠ none) → ∃ t, Ends (.linkChallengeDone mb) s t j 0 (le 6 (named.foldl (fun a p => a + (due p).getD 0 * 4 ^ p) 0)) ∧
        t.m = { m with jobs := t.m.jobs, mailboxes := t.m.mailboxes, host := t.m.host }))

/-- The stock commands (R318, R322, R327, R517 to R519, Table 14.10): an allocation sets up its pages, resident and zero or pageable and
absent, within the quota; freed pages lose their entries, when a transfer holds them later; host-map entries are set and cleared;
pages are pinned, made resident and unpinned; a fill writes its data in ascending address up to a page that stops it; WHEEL_SET stages
a wheel. -/
def Obligations.StockCommandsTakeEffect : Prop :=
  ∀ (s : State) (q : Req) (mb : Fin 31) (j : Job),
    let m := s.m
    let sess := m.sessId q.no
    let size (n : Nat) : Prop := q.body.length = n
    let page : Nat := 2 ^ 21
    let first := q.fld 0 8 / page
    let n := q.fld 8 4
    let range : Prop := q.fld 0 8 % page = 0 ∧ first + n ≤ 2 ^ 27
    let own : Prop := ∀ k, first ≤ k → k < first + n → pteValid (m.pte sess k) = true
    let elsewhere (t : State) (from' len : Nat) : Prop :=
      ∀ x, ∀ k < 2 ^ 27, ¬ (x = sess ∧ from' ≤ k ∧ k < from' + len) → t.m.pte x k = m.pte x k
    (∀ at_ ps, let n := q.fld 0 4
      let flag (i : Nat) : Bool := q.fld 4 2 / 2 ^ i % 2 == 1
      Allowed m (.stockAlloc q) q → size 20 → m.holds q.no 1 = true → 1 ≤ n → n ≤ 1048576 → (flag 1 = true → q.byte 6 < 32 ∨ q.byte 6 = 0xFF) →
      (flag 3 = true → q.fld 8 8 % page = 0 ∧ q.fld 8 8 / page + n ≤ 2 ^ 27) → (flag 0 = true → q.fld 16 4 + n ≤ 2 ^ 31) →
      (m.quotaOf sess < m.quotaUsed sess + n → Served (.stockAlloc q) s q 0x20 0x10B [] m) ∧
      (m.quotaUsed sess + n ≤ m.quotaOf sess → (m.aon.state = .roughCut → flag 1 = true ∧ flag 0 = false) →
        (if flag 3 then at_ = q.fld 8 8 / page ∧ ∀ k, at_ ≤ k → k < at_ + n → pteValid (m.pte sess k) = false
          else m.freeRun sess n = some at_) →
        (flag 0 = true ∧ flag 1 = false ∧ ps = [] ∨ ¬ (flag 0 = true ∧ flag 1 = false) ∧
          (if flag 1 then m.freeNarrow (if q.byte 6 = 0xFF then none else some (q.byte 6)) n else m.freeWide n) = some ps) →
        ∃ t, Answers (.stockAlloc q) s t q 0x20 0 (le 8 (at_ * page)) ∧ elsewhere t at_ n ∧ ∀ k < n, let e := t.m.pte sess (at_ + k)
          pteValid e = true ∧ pteWritable e = flag 2 ∧
          (flag 0 = true → pteResident e = false ∧ ptePageable e = true ∧ sel e 30 0 = q.fld 16 4 + k) ∧
          (flag 0 = false → pteResident e = true ∧ ptePage e = ps.getD k 0 ∧ ∀ o < page, t.m.stockByte sess ((at_ + k) * page + o) = 0))) ∧
    (Allowed m (.stockFree q) q → size 12 → m.holds q.no 1 = true → range →
      (¬ own → Served (.stockFree q) s q 0x21 0x10B [] m) ∧
      (own → ∃ t, Answers (.stockFree q) s t q 0x21 0 [] ∧ elsewhere t first n ∧ ∀ k, first ≤ k → k < first + n →
        (m.pageHeld sess k = false → t.m.pte sess k = 0) ∧
        (m.pageHeld sess k = true → t.m.pte sess k = m.pte sess k ∧ sess * 2 ^ 27 + k ∈ t.m.alloc.defer))) ∧
    (let n := q.fld 4 4;
      Allowed m (.stockMapHost q) q → size (8 + 8 * n) → m.holds q.no 1 = true → 1 ≤ n → n ≤ 250 → q.fld 0 4 + n ≤ 2 ^ 31 →
      (∀ k < n, q.fld (8 + 8 * k) 8 % page = 0) → ∃ t, Answers (.stockMapHost q) s t q 0x22 0 [] ∧
        (∀ k < n, Tab.get t.m.alloc.hostMap (sess * 2 ^ 31 + q.fld 0 4 + k) 0 = BitVec.ofNat 64 (q.fld (8 + 8 * k) 8)) ∧
        ∀ x, (∀ k < n, x ≠ sess * 2 ^ 31 + q.fld 0 4 + k) → Tab.get t.m.alloc.hostMap x 0 = Tab.get m.alloc.hostMap x 0) ∧
    (Allowed m (.stockPin q) q → size 16 → m.holds q.no 1 = true → q.byte 12 = 1 → range → m.long q.no = false →
      (¬ own → Served (.stockPin q) s q 0x23 0x10B [] m) ∧
      (own → ∃ t, Answers (.stockPin q) s t q 0x23 1 [] ∧ elsewhere t first n ∧ (∃ y : Job, t.m.jobs = m.jobs ++ [y] ∧ y.kind = .pin first n ∧ y.mb = q.no) ∧
        ∀ k, first ≤ k → k < first + n → t.m.pte sess k = put (m.pte sess k) 60 60 1)) ∧
    (Allowed m (.stockUnpin q) q → size 16 → m.holds q.no 1 = true → q.byte 12 = 0 → range → m.long q.no = false → own →
      (∀ y ∈ m.jobs, ¬ (y.mb = q.no ∧ y.command = 0x23 ∧ y.seq = (m.mailbox q.no).ack + 1)) →
      ∃ t, Answers (.stockUnpin q) s t q 0x23 1 [] ∧ elsewhere t first n ∧ t.m.jobs = m.jobs ∧
        (t.m.mailbox q.no).cSeq = (m.mailbox q.no).ack + 1 ∧ (t.m.mailbox q.no).cStatus = 0 ∧ (t.m.mailbox q.no).cTag = q.tag ∧
        ∀ k, first ≤ k → k < first + n → t.m.pte sess k = put (m.pte sess k) 60 60 0) ∧
    (∀ from' n, Outstanding m mb (fun k => match k with
        | .pin .. => true
        | _ => false) j → j.kind = .pin from' n → ∃ t, exec (.stockPinDone mb) s = .next t ∧
      t.m.jobs = m.jobs.filter (fun x => !(x.mb == j.mb && x.seq == j.seq && x.command == j.command)) ∧
      (j.orphan = false → (t.m.mailbox j.mb).cSeq = j.seq ∧ (t.m.mailbox j.mb).cStatus =
        (if ∀ k ∈ List.range' from' n, pteResident (t.m.pte j.session k) = true then 0 else 0x10B)) ∧
      ((∀ k ∈ List.range' from' n, pteResident (m.pte j.session k) = true) → t.m.alloc = m.alloc ∧ t.m.stock = m.stock)) ∧
    (Allowed m (.stockFill q) q → size 32 → m.holds q.no 1 = true → q.fld 0 8 % 512 = 0 → q.fld 8 8 % 512 = 0 → q.fld 0 8 + q.fld 8 8 ≤ 2 ^ 48 →
      m.long q.no = false → m.aon.state ≠ .standby →
      Begun (.stockFill q) s q 0x24 (.fill (q.fld 0 8) (q.fld 8 8) 0 (q.fld 16 2 % 2 == 1) (BitVec.ofNat 64 (q.fld 24 8))) m) ∧
    (∀ sa bytes done fromHost src, Outstanding m mb (fun k => match k with
        | .fill .. => true
        | _ => false) j → j.kind = .fill sa bytes done fromHost src → sa % 512 = 0 → bytes % 512 = 0 → done % 512 = 0 → done ≤ bytes → sa + bytes ≤ 2 ^ 48 →
      let e (o : Nat) : W64 := m.pte j.session ((sa + o) / page)
      ((∀ o < bytes, done ≤ o → pteValid (e o) = true ∧ pteWritable (e o) = true ∧ pteResident (e o) = true) →
        (∀ a b, sa / page ≤ a → sa / page ≤ b → a < b → b * page < sa + bytes → ∀ x < 2048, ∀ y < 2048,
          pageChunk (ptePage (m.pte j.session a)) x ≠ pageChunk (ptePage (m.pte j.session b)) y) →
        ∃ t, Ends (.stockFillDone mb) s t j 0 (le 8 bytes) ∧ ∀ o < bytes, done ≤ o → t.m.stockByte j.session (sa + o) =
          if fromHost then m.host.mem.get (src.toNat + o) else elem 8 src (o % 8)) ∧
      (done < bytes → pteValid (e done) = false ∨ pteWritable (e done) = false → ∃ t, Ends (.stockFillDone mb) s t j 0x10B (le 8 done) ∧
        t.m.stock = m.stock)) ∧
    (let w := (List.range (q.byte 0)).map (fun i => q.byte (8 + i) % 32);
      Allowed m (.wheelSet q) q → 1 ≤ q.byte 0 → q.byte 0 ≤ 64 → size ((8 + q.byte 0 + 3) / 4 * 4) → (∀ r ∈ w, r < 25) →
      (m.aon.inFlight = true → Served (.wheelSet q) s q 0x25 0x10E [] m) ∧
      (m.aon.inFlight = false → Served (.wheelSet q) s q 0x25 0 [] (logChange 0x0025 sess (q.byte 0) 0 false (wheelWord m.stock.wheel) (wheelWord w)
        { m with settings := { m.settings with stagedWheel := some w } })))

/-- The program and gang commands (R47, R48, R94, R241, R244, R246, R520 to R524, Table 14.11): an image is loaded, kept and unloaded; a
placement binds its parts to regions and gives each core its place; a start or a resume runs every part with one run base; a stop ends
every running part; a pre-emption is asked of every part; a release frees the placement; GANG_STATUS reports a gang. -/
def Obligations.GangCommandsTakeEffect : Prop :=
  ∀ (s : State) (q : Req) (mb : Fin 31) (j : Job) (p : Placement) (i : Image),
    let m := s.m
    let sess := m.sessId q.no
    let size (n : Nat) : Prop := q.body.length = n
    let prog : Prop := m.holds q.no 0 = true
    let named : Prop := m.placement (q.fld 0 2) = some p ∧ m.owns q.no p.session = true
    let flag (k : Nat) : Bool := q.fld 2 2 / 2 ^ k % 2 == 1
    let base : W64 := if flag 0 then BitVec.ofNat 64 (q.fld 8 8) else m.aon.stickAtMark + BitVec.ofNat 64 (m.aon.span + 46080)
    let apart (ps : List Gang) : Prop := (ps.map (·.region)).Nodup ∧ (ps.map (·.id)).Nodup ∧ ps.length = i.parts.length
    let calm : Prop := ∀ r, (m.region r).pendingChange = false
    (Allowed m (.programLoad q) q → size 16 → prog → 128 ≤ q.fld 8 4 → q.fld 8 4 ≤ 2 ^ 30 → m.long q.no = false → m.aon.state ≠ .standby →
      Begun (.programLoad q) s q 0x30 (.load (BitVec.ofNat 64 (q.fld 0 8)) (q.fld 8 4) (q.fld 12 2 / 2 % 2 == 1) (q.fld 12 2 % 2 == 1)) m) ∧
    (∀ src len interlock, Outstanding m mb (fun k => match k with
        | .load .. => true
        | _ => false) j → j.kind = .load src len interlock false →
      let f : Nat → Byte := fun o => m.host.mem.get (src.toNat + o)
      (loadImage j.session f len interlock m = .inl i → ∃ t, Ends (.programLoadDone mb) s t j 0 (le 2 i.id ++ le 1 i.parts.length ++ le 1 (b2n i.interlocked)) ∧
        t.m.images = m.images ++ [i] ∧ t.m.nextImage = i.id % 65535 + 1 ∧ t.m.stock = (copyImage f len i.pages m).stock ∧
        t.m.regions = m.regions ∧ t.m.cores = m.cores ∧ t.m.placements = m.placements) ∧
      (∀ st, loadImage j.session f len interlock m = .inr st → ∃ t, Ends (.programLoadDone mb) s t j st [] ∧
        t.m = { m with jobs := t.m.jobs, mailboxes := t.m.mailboxes, host := t.m.host })) ∧
    (Allowed m (.programUnload q) q → size 4 → prog →
      (m.image (q.fld 0 2) = none → Served (.programUnload q) s q 0x31 0x10A [] m) ∧
      (m.image (q.fld 0 2) = some i → m.owns q.no i.session = true → ∃ t, Answers (.programUnload q) s t q 0x31 0 [] ∧
        t.m.images = m.images.filter (fun x => x.id != q.fld 0 2) ∧ ∀ x ∈ t.m.placements, x.image ≠ q.fld 0 2)) ∧
    (∀ rs g0 pages, let want : List Nat := (List.range i.parts.length).map (fun k => q.byte (8 + k))
      let used (g : Nat) : Prop := g ∈ m.gangIds ∨ (g0 ≤ g ∧ g < g0 + i.parts.length)
      let gangs : List Gang := (i.parts.zip rs).zipIdx.map (fun (x : (PartDecl × Nat) × Nat) =>
        ({ id := g0 + x.2, part := x.1.1.part, region := x.1.2, sites := (m.usableSites x.1.2).take x.1.1.cores } : Gang))
      Allowed m (.gangPlace q) q → size 0x328 → prog → q.byte 2 % 2 = 0 → q.byte 6 ≤ 32 → (∀ r ∈ want, r < 25 ∨ r = 0xFF) →
      m.image (q.fld 0 2) = some i → m.owns q.no i.session = true →
      ((∃ x ∈ m.placements, x.image = q.fld 0 2) → Served (.gangPlace q) s q 0x32 0x10A [] m) ∧
      ((∀ x ∈ m.placements, x.image ≠ q.fld 0 2) → chooseRegions (regionFits m (m.maskOf q.no)) want (i.parts.map (·.cores)) = some rs →
        freshIds m.nextGang i.parts.length m.gangIds = some g0 → (∀ x ∈ placeSigs q, x.remote = false → used x.gang) →
        m.quotaUsed sess + savePagesOf i.parts ≤ m.quotaOf sess → m.tirixPages (savePagesOf i.parts) = some pages →
        (m.aon.state = .roughCut → placePartners q = []) →
        Served (.gangPlace q) s q 0x32 0 (le 2 g0 ++ zeros 2 ++ (List.range 25).map (fun k => BitVec.ofNat 8 (rs.getD k 0xFF)))
          { gangs.foldl (fun m g => writePlaces g.sites m) m with
            nextGang := (g0 + i.parts.length - 1) % 65535 + 1
            placements := m.placements ++ [{ g0 := g0, session := sess, image := q.fld 0 2, gangs := gangs, sigs := placeSigs q
                                             partners := placePartners q, savePages := pages }] })) ∧
    (∀ x, Allowed m (.gangPlaceRelease q) q → size 0x328 → prog → q.byte 2 % 2 = 1 → m.placement (q.fld 4 2) = some x → m.owns q.no x.session = true →
      (x.preempted = true ∨ (∃ g ∈ x.gangs, g.running = true) → Served (.gangPlaceRelease q) s q 0x32 0x10A [] m) ∧
      (x.preempted = false → (∀ g ∈ x.gangs, g.running = false) → Served (.gangPlaceRelease q) s q 0x32 0 []
        { m with placements := m.placements.filter (fun y => y.g0 != x.g0) })) ∧
    (∀ steps, Allowed m (.gangStart q) q → size 0x34 → prog → named → m.image p.image = some i → apart p.gangs → calm → p.preempted = false →
      (∀ g ∈ p.gangs, (m.region g.region).run.running = false ∧ (m.region g.region).run.settled = true) →
      (∀ x ∈ p.gangs.zip i.parts, x.2.cores ≤ (m.usableSites x.1.region).length) → (flag 0 = true → m.aon.stick.toNat + 92160 ≤ q.fld 8 8) → flag 3 = false →
      (admitParts m (p.gangs.map (·.region)) i.parts = none → Served (.gangStart q) s q 0x33 0x107 [] m) ∧
      (admitParts m (p.gangs.map (·.region)) i.parts = some steps → ∃ t, Answers (.gangStart q) s t q 0x33 0 (bytesOf base 8 ++ steps.map (BitVec.ofNat 8)) ∧
        (∀ k g d, p.gangs[k]? = some g → i.parts[k]? = some d → let x := t.m.region g.region
          x.decl = d ∧ x.site = (m.usableSites g.region).take d.cores ∧ x.run.gang = g.id ∧ x.run.session = p.session ∧ x.run.running = true ∧
          x.run.ended = false ∧ x.run.admitted = steps.getD k 0 ∧ x.seq.addr = d.entry ∧ x.seq.pos = 0 ∧ x.seq.kerfBase = base.toNat ∧
          x.seq.g = (if flag 2 then BitVec.ofNat 64 (q.fld 0x18 8) else i.gstep) ∧ x.dig.layerBase = BitVec.ofNat 64 (q.fld 0x20 8)) ∧
        ∃ y, t.m.placement (q.fld 0 2) = some y ∧ y.runBase = base ∧ ∀ g ∈ y.gangs, g.running = true ∧ g.started = true)) ∧
    (Allowed m (.gangStop q) q → size 4 → prog → named →
      ((∀ g ∈ p.gangs, g.running = false) → Served (.gangStop q) s q 0x34 0x10A [] m) ∧
      ((∃ g ∈ p.gangs, g.running = true) → ∃ t, Answers (.gangStop q) s t q 0x34 0 [] ∧
        ∀ g ∈ p.gangs, (m.region g.region).run.gang = g.id → (t.m.region g.region).run.running = false)) ∧
    (Allowed m (.gangPreempt q) q → size 4 → prog → named → m.long q.no = false →
      ((∃ g ∈ p.gangs, g.running = false) → Served (.gangPreempt q) s q 0x35 0x10A [] m) ∧
      ((∀ g ∈ p.gangs, g.running = true) → ∃ t, Answers (.gangPreempt q) s t q 0x35 1 [] ∧
        (∃ y : Job, t.m.jobs = m.jobs ++ [y] ∧ y.kind = .preempt p.g0 ∧ y.mb = q.no) ∧ t.m.cores = m.cores ∧
        ∀ g ∈ p.gangs, (m.region g.region).run.gang = g.id → (t.m.region g.region).run.preempting = true)) ∧
    (∀ rs steps, let want : List Nat := (List.range i.parts.length).map (fun k => q.byte (0x10 + k))
      Allowed m (.gangResume q) q → size 0x2C → prog → named → m.image p.image = some i → apart p.gangs → calm → m.long q.no = false → p.preempted = true →
      (∀ r ∈ want, r < 25 ∨ r = 0xFF) → (∀ g ∈ p.gangs, g.saved ≠ none) → (flag 0 = true → m.aon.stick.toNat + 92160 ≤ q.fld 8 8) →
      chooseRegions (regionFits m (m.maskOf q.no)) want (i.parts.map (·.cores)) = some rs → rs.Nodup →
      (∀ r ∈ rs, (m.region r).run.running = false ∧ (m.region r).run.settled = true) → admitParts m rs i.parts = some steps →
      ∃ t, Answers (.gangResume q) s t q 0x36 1 [] ∧ (∃ y : Job, t.m.jobs = m.jobs ++ [y] ∧ y.kind = .resume p.g0 base ∧ y.mb = q.no) ∧
        ∀ k g d, p.gangs[k]? = some g → i.parts[k]? = some d → let x := t.m.region (rs.getD k 0)
          x.decl = d ∧ x.run.gang = g.id ∧ x.run.session = p.session ∧ x.run.running = true ∧ x.run.tickVoid = true ∧ x.run.cycleVoid = true ∧
          x.seq.kerfBase = base.toNat ∧ x.seq.resumeIssue = true ∧ ∀ v, g.saved = some v → x.seq.addr = v.seq.addr ∧ x.seq.pos = v.seq.pos ∧ x.seq.g = v.seq.g ∧ x.dig = v.dig) ∧
    (∀ g0 b, Outstanding m mb (fun k => match k with
        | .resume .. => true
        | _ => false) j → j.kind = .resume g0 b → m.placement g0 = some p →
      ((∃ g ∈ p.gangs, g.running = false) → ∃ t, Ends (.gangResumeDone mb) s t j 0x10A []) ∧
      ((∀ g ∈ p.gangs, g.running = true) →
        ((∃ g ∈ p.gangs, (m.region g.region).seq.resumeIssue = true) → exec (.gangResumeDone mb) s = .next s) ∧
        ((∀ g ∈ p.gangs, (m.region g.region).seq.resumeIssue = false) → ∃ t, Ends (.gangResumeDone mb) s t j 0 (bytesOf b 8) ∧
          t.m = { m with jobs := t.m.jobs, mailboxes := t.m.mailboxes, host := t.m.host }))) ∧
    (∀ g, Allowed m (.gangStatus q) q → size 4 → m.observesGang q.no (q.fld 0 2) = true →
      (m.placementOf (q.fld 0 2) = none → Served (.gangStatus q) s q 0x37 0x10A [] m) ∧
      (m.placementOf (q.fld 0 2) = some p → p.gangs.find? (fun x => x.id == q.fld 0 2) = some g →
        let x := m.region g.region
        let pick (a b : Nat) : Nat := if g.running then a else b
        let word := pick 0xFF g.status * 2 ^ 24 + pick 1 0 * 2 ^ 23 + 2 ^ 22 + pick (b2n x.run.preempting) 0 * 2 ^ 21 +
          pick (b2n x.run.tickVoid) (b2n g.tickVoid) * 2 ^ 20 + pick (b2n x.run.cycleVoid) (b2n g.cycleVoid) * 2 ^ 19 +
          b2n (((m.image p.image).map (·.interlocked)).getD false) * 2 ^ 18 + g.part * 2 ^ 13 + g.region * 2 ^ 8 +
          pick x.run.admitted g.admitted * 2 ^ 4 + (if x.run.gang = g.id then x.step else 0)
        Served (.gangStatus q) s q 0x37 0 (le 4 word ++ le 2 (pick x.seq.addr g.bundle % 2 ^ 15) ++ zeros 2 ++ bytesOf p.runBase 8 ++
          le 8 (pick x.seq.kerfBase g.kerfBase.toNat) ++ le 8 (pick x.seq.pos g.position.toNat) ++ le 8 (pick x.seq.g.toNat g.gstep.toNat) ++
          (if q.fld 2 2 % 2 = 1 then stallReport m g.id g.region else [])) m))

/-- The observation and debug commands (R359, R376, R472, R481, R486, R525 to R527, Table 14.6, Table 14.12, Table 14.13): a caller that
may observe reads clamp words and cores of a gang, counter records, digest state and telemetry, none of which changes the module; a
debug session writes a clamp word of a running gang, ARMED kept, or drops a ring's oldest message; TRACE_CONFIG starts or ends a
region's capture. -/
def Obligations.ObservationCommands : Prop :=
  ∀ (s : State) (q : Req) (g : Gang) (d : PartDecl) (v : GangView),
    let m := s.m
    let size (n : Nat) : Prop := q.body.length = n
    let view (gang : Nat) : Prop := m.gangView gang = some (g, d, some v)
    let core (k : Nat) : Core := match v with
      | .saved x => x.cores.getD k {}
      | _ => m.core (g.sites.getD k 0)
    (Allowed m (.clampRead q) q → size 8 → q.fld 4 2 < 2048 → m.observesGang q.no (q.fld 0 2) = true →
      (m.placementOf (q.fld 0 2) = none → Served (.clampRead q) s q 0x40 0x10A [] m) ∧
      (view (q.fld 0 2) → q.fld 2 2 < g.sites.length → let c := core (q.fld 2 2)
        Served (.clampRead q) s q 0x40 0 (bytesOf (c.cc.words.get (q.fld 4 2)) 8 ++ bytesOf (c.cc.shadow.get (q.fld 4 2)) 16) m)) ∧
    (∀ p, let gang := q.fld 2 2
      let x := g.sites.getD (q.fld 4 2) 0
      let w := q.fld 6 2
      let c := m.core x
      size 16 → m.holds q.no 4 = true → m.placementOf gang = some p → m.debugs q.no p.session = true → q.fld 4 2 < g.sites.length → view gang →
      (Allowed m (.clampSetWord q) q → q.byte 0 = 0 → w < 2048 → q.fld 8 8 / 2 ^ 47 % 2 = 0 → q.fld 8 8 / 2 ^ 48 % 2 ^ 12 = 0 →
        (v ≠ .running → Served (.clampSetWord q) s q 0x41 0x10A [] m) ∧
        (v = .running → ∃ t, Answers (.clampSetWord q) s t q 0x41 0 (bytesOf (c.cc.words.get w) 8) ∧ (∀ y, y ≠ x → t.m.core y = m.core y) ∧
          let c' := t.m.core x
          (∀ y, c'.cc.words.get y = if y = w then put (BitVec.ofNat 64 (q.fld 8 8)) 60 60 (b2n (bit (c.cc.words.get w) 60)) else c.cc.words.get y) ∧
          sel (c'.cc.shadow.get w) 95 64 = (m.region (siteRegion x)).ticks % 2 ^ 32 ∧ sel (c'.cc.shadow.get w) 19 18 = 3 ∧
          (∀ y, y ≠ w → c'.cc.shadow.get y = c.cc.shadow.get y) ∧ c'.sp = c.sp ∧ c'.queues = c.queues)) ∧
      (∀ tag, Allowed m (.clampSetRing q) q → q.byte 0 = 1 → w < 256 → v = .running →
        Tab.find (m.region (siteRegion x)).decl.tags w = some tag → tag.kind = 2 →
        let k := ringUnwrap (Tab.get c.ni.rings w {}) (ringBase tag) c
        let h : W128 := (c.sp.rows.get ((ringBase tag + k.r) % 16384)).setWidth 128
        (k.m = 0 ∨ (∃ y ∈ c.ni.recvs, y.entry = w ∧ y.begun = true) → Served (.clampSetRing q) s q 0x41 0x10A [] m) ∧
        (0 < k.m → (∀ y ∈ c.ni.recvs, ¬ (y.entry = w ∧ y.begun = true)) →
          Served (.clampSetRing q) s q 0x41 0 (bytesOf (h.setWidth 64) 8) (m.setCore x { c with ni := { c.ni with
            rings := Tab.set c.ni.rings w (ringAdvance k (ringRows tag) (if hdrKind h = 2 then 1 else 1 + hdrLen h))
            cnt := { c.ni.cnt with debugDrops := bump32 c.ni.cnt.debugDrops 1 } } })))) ∧
    (let cls := q.byte 0
      let n := q.fld 8 2
      let ks := List.range' (q.fld 6 2) n
      let perCore := classPerCore cls
      let logical := perCore && q.byte 1 % 2 == 1
      let ofSites (l : List Nat) : List Byte := l.flatMap (fun x => coreRecord cls (m.region (siteRegion x)).decl.halfWidth (m.core x))
      Allowed m (.countersRead q) q → size 12 → classSize cls ≠ 0 → q.byte 2 < 25 → 1 ≤ n → n * classSize cls ≤ 1768 →
      q.fld 6 2 + n ≤ (if cls = 9 then 24 else if perCore then 1024 else 25) → countersRights m q = true →
      let gives (l : List Byte) : Prop := Served (.countersRead q) s q 0x42 0 (le 2 (classSize cls) ++ zeros 6 ++ l) m
      (cls = 9 → gives (ks.flatMap (fun p => linkRecord (m.port p)))) ∧
      (cls ≠ 9 → perCore = false → gives (ks.flatMap (regionRecord cls m))) ∧
      (cls ≠ 9 → perCore = true → logical = false → gives (ofSites (ks.map (siteAt (q.byte 2))))) ∧
      (cls ≠ 9 → logical = true → view (q.fld 4 2) →
        (g.sites.length < q.fld 6 2 + n → Served (.countersRead q) s q 0x42 0x101 [] m) ∧
        (q.fld 6 2 + n ≤ g.sites.length → gives (ofSites (ks.map (fun k => g.sites.getD k 0)))))) ∧
    (let tap := q.byte 0
      let r := q.byte 2
      Allowed m (.traceConfig q) q → size 20 → tap ≤ 2 → q.byte 1 ≤ 2 → r < 25 → q.fld 4 2 < 1024 → m.holds q.no 3 = true → m.occupies q.no r = true →
      (tap ≠ 0 → q.fld 16 4 % 32 = 0 ∧ q.fld 8 8 + q.fld 16 4 ≤ 2 ^ 48 ∧ m.rangeOk (m.sessId q.no) (q.fld 8 8) (q.fld 16 4) false true = true) →
      (tap = 0 → Served (.traceConfig q) s q 0x43 0 [] (m.onRegion r (fun x => { x with trace := {} }))) ∧
      (tap = 1 → (m.region r).digestOn = true → Served (.traceConfig q) s q 0x43 0x109 [] m) ∧
      (tap ≠ 0 → q.byte 1 = 1 → m.aon.syncIo ≠ .trigger → Served (.traceConfig q) s q 0x43 0x109 [] m) ∧
      (tap ≠ 0 → (tap = 1 → digestHolds m r = false) → (q.byte 1 = 1 → m.aon.syncIo = .trigger) →
        Served (.traceConfig q) s q 0x43 0 [] (m.onRegion r (fun x => { x with trace :=
          { on := true, tap := tap, core := q.fld 4 2, ring := q.fld 8 8, bytes := q.fld 16 4, trigger := q.byte 1
            armed := q.byte 1 != 0, session := m.sessId q.no } })))) ∧
    (∀ p, Allowed m (.digestRead q) q → size 4 → m.observesGang q.no (q.fld 0 2) = true →
      (m.placementOf (q.fld 0 2) = none → Served (.digestRead q) s q 0x44 0x10A [] m) ∧
      (m.placementOf (q.fld 0 2) = some p → Served (.digestRead q) s q 0x44 0
        ((p.ring.map ringHeader).getD (zeros 64) ++ p.gangs.flatMap (fun x => let y := m.region x.region
          let z : Combiner := match x.saved with
            | some sv => sv.dig
            | none => if y.run.gang = x.id then y.dig else {}
          let rows : W64 := match x.saved with
            | some sv => sv.cores.foldl (fun a c => a + c.dig.n) 0
            | none => if y.run.gang = x.id then y.site.foldl (fun a k => a + (m.core k).dig.n) 0 else 0
          bytesOf z.boundaries 4 ++ le 4 (z.pending.length % 8) ++ bytesOf z.recordsWritten 4 ++ bytesOf z.holdCycles 4 ++ bytesOf rows 8 ++
            le 4 (2 * b2n z.traceEnded + b2n y.digestOn) ++ zeros 4)) m)) ∧
    (let space := q.byte 0
      let n := q.fld 8 2
      let ks := List.range' (q.fld 6 2) n
      let last := q.fld 6 2 + n
      let live := v == .running
      let c := core (q.fld 4 2)
      Allowed m (.corePeek q) q → size 12 → m.observesGang q.no (q.fld 2 2) = true → view (q.fld 2 2) → q.fld 4 2 < g.sites.length → 1 ≤ n →
      let gives (l : List Byte) : Prop := ∃ t, Answers (.corePeek q) s t q 0x45 0 l ∧
        t.m = { m with cores := t.m.cores, mailboxes := t.m.mailboxes, host := t.m.host } ∧
        ∀ x, (t.m.core x).sp.rows = (m.core x).sp.rows ∧ (space ≠ 0 ∨ live = false → t.m.core x = m.core x)
      (space = 0 → n ≤ 3 → last ≤ 16384 → gives (ks.flatMap (fun k => bytesOf (c.sp.rows.get k) 512))) ∧
      (space = 3 → n ≤ 221 → ∀ x, Tab.find d.drawers (q.byte 1) = some x → q.byte 1 < 64 → last ≤ x.slotCount →
        gives (bytesOf (c.cc.words.get (0x780 + q.byte 1)) 4 ++ le 4 (2 ^ 16 + x.slotCount) ++ ks.flatMap (fun k => let y := c.slot (q.byte 1) k
          le 8 (y.gen.toNat * 2 ^ 48 + y.reads.toNat * 2 ^ 32 + y.fill)))) ∧
      (live = true → (space = 1 ∧ n = 1 ∧ last ≤ accRows d) ∨ (space = 2 ∧ n ≤ 222 ∧ last ≤ 2048) ∨ (space = 4 ∧ n = 1 ∧ last ≤ 64) →
        Served (.corePeek q) s q 0x45 0x10A [] m) ∧
      (live = false →
        (space = 1 → n = 1 → last ≤ accRows d → gives (ks.flatMap (fun k => bytesOf (accWiden d.halfWidth (c.arr.acc.get k)) 1024))) ∧
        (space = 2 → n ≤ 222 → last ≤ 2048 → gives (ks.flatMap (fun k => bytesOf (c.cc.words.get k) 8))) ∧
        (space = 4 → n = 1 → last ≤ 64 → gives (ks.flatMap (fun k =>
          bytesOf ((if q.byte 1 / 4 % 2 = 1 then c.v1 else c.v0).tiles.get (64 * (q.byte 1 % 4) + k)) 1024))))) ∧
    (Allowed m (.telemetryRead q) q → size 0 → m.holds q.no 2 = true → Served (.telemetryRead q) s q 0x54 0 (telemBytes m.power.telem) m)

/-- The owner's settings (R66 to R69, R513, R528 to R536, R572, R573, R587, R600, R611, R612, Table 14.14, Table 14.15, Table 17.5): steps
and commits are staged, committed as one change and withdrawn; ENVELOPE_SET and CEILING_SET lower freely and raise a limited number of
times; events are acknowledged and the log read; a fence is added; SAFE_HOLD_CLEAR returns to the state at entry; POLICY_SET sets one
item. -/
def Obligations.OwnerSettings : Prop :=
  ∀ (s : State) (q : Req) (p : Placement),
    let m := s.m
    let a := m.aon
    let sess := m.sessId q.no
    let size (n : Nat) : Prop := q.body.length = n
    let calm : Prop := m.level 0x11 = 1
    let limited (cmd new : Nat) (x : Mod) : Mod := recordEvent
      { code := 0x11, flags := 0, source := 0xFFFF, stick := a.stick, count := 1, gang := 0, d0 := cmd, d := BitVec.ofNat 64 new } x
    let dues (low : Bool) (x : Mod) : Mod := if low then { x with power := { x.power with envelopeDue := true } } else x
    let policy (i : Instr) (item target old new : Nat) (x : Mod) : Prop :=
      Served i s q 0x64 0 (le 4 old) (logChange 0x0064 sess item target false old new x)
    (size 28 → (∀ n < 25, 1 ≤ q.byte n ∧ q.byte n ≤ 8 ∨ q.byte n = 0xFF) → Allowed m (.stepStage q) q →
      let xs := ((List.range 25).filter (fun n => q.byte n != 0xFF)).map (fun n => (n, q.byte n))
      let staged := xs.foldl (fun (t : Tab Nat) x => Tab.set t x.1 x.2) m.settings.stagedSteps
      (a.inFlight = true → Served (.stepStage q) s q 0x50 0x10E [] m) ∧
      (a.inFlight = false → (∃ x ∈ xs, stageOk m x = false) → Served (.stepStage q) s q 0x50 0x107 [] m) ∧
      (a.inFlight = false → (∀ x ∈ xs, stageOk m x = true) → ((∀ x ∈ xs, (m.region x.1).run.running = false) ∨ stageFits m staged = true) →
        ∃ t, Answers (.stepStage q) s t q 0x50 0 [] ∧ t.m.settings = { m.settings with stagedSteps := staged } ∧ t.m.logTotal = m.logTotal + 2 ∧
          ∀ r < 25, t.m.region r = if q.byte r = 0xFF then m.region r else { m.region r with ack := false })) ∧
    (size 12 →
      (Allowed m (.modeCommit q) q → q.byte 8 < 128 →
        (q.fld 0 8 < a.markNumber.toNat + 2 → Served (.modeCommit q) s q 0x51 0x10A [] m) ∧
        (a.markNumber.toNat + 2 ≤ q.fld 0 8 → a.inFlight = true → Served (.modeCommit q) s q 0x51 0x10E [] m) ∧
        (a.markNumber.toNat + 2 ≤ q.fld 0 8 → a.inFlight = false → (∀ r < 25, (m.region r).pendingChange = false) →
          let change : BitVec 3 := BitVec.ofNat 3 (q.byte 8)
          ∃ t, Answers (.modeCommit q) s t q 0x51 0 [] ∧ t.m.logTotal = m.logTotal + 1 ∧
            t.m.aon = { a with inFlight := true, commitMark := BitVec.ofNat 64 (q.fld 0 8), appliedMask := 0 } ∧
            t.m.settings = { m.settings with
              flightSteps := m.settings.stagedSteps, flightWheel := m.settings.stagedWheel, flightChange := change
              flightValue := BitVec.ofNat 3 (q.byte 9), stagedSteps := [], stagedWheel := none } ∧
            ∀ r < 25, let step := Tab.find m.settings.stagedSteps r
              t.m.region r = if change = 0 ∧ step = none then m.region r else { m.region r with
                pendingChange := true, pendChange := change, pendValue := BitVec.ofNat 3 (q.byte 9), stagedStep := step
                ack := (m.region r).ack && change == 0 })) ∧
      (Allowed m (.modeCommitWithdraw q) q → 128 ≤ q.byte 8 →
        (a.inFlight = true → Served (.modeCommitWithdraw q) s q 0x51 0x10E [] m) ∧
        (a.inFlight = false → Served (.modeCommitWithdraw q) s q 0x51 0 [] (logChange 0x0051 sess (q.byte 8) 0 false m.settings.modes.toNat
          (q.fld 0 7 * 256 + q.byte 9 % 8) { m with settings := { m.settings with stagedSteps := [], stagedWheel := none } })))) ∧
    (size 4 → calm → a.state ≠ .safeHold →
      (Allowed m (.envelopeSet q) q → let old := m.settings.envelope; let new := q.fld 0 4; let k := m.settings.envelopeRaises
        40000 ≤ new → new ≤ 165000 → let left := if old < new then k - 1 else k
        (old < new → k = 0 → Served (.envelopeSet q) s q 0x52 0x105 [] (limited 0x52 new (logChange 0x52 sess 0 0 true old new m))) ∧
        (¬ (old < new ∧ k = 0) → Served (.envelopeSet q) s q 0x52 0 (le 4 new ++ le 1 left) (limited 0x52 new (logChange 0x52 sess 0 0 false old new
          (dues (new < old) { m with settings := { m.settings with envelope := new, envelopeRaises := left } }))))) ∧
      (Allowed m (.ceilingSet q) q → let old := m.settings.ceiling; let new := q.byte 0; let k := m.settings.ceilingRaises
        1 ≤ new → new ≤ 8 → let left := if old < new then k - 1 else k
        (old < new → k = 0 → Served (.ceilingSet q) s q 0x53 0x105 [] (limited 0x53 new (logChange 0x53 sess 0 0 true old new m))) ∧
        (¬ (old < new ∧ k = 0) → Served (.ceilingSet q) s q 0x53 0 (le 4 new ++ le 1 left) (limited 0x53 new (logChange 0x53 sess 0 0 false old new
          (dues (new < old) { m with settings := { m.settings with ceiling := new, ceilingRaises := left } })))))) ∧
    (Allowed m (.eventAck q) q → size 4 → (BitVec.ofNat 32 (q.fld 0 4) - m.events.consumed).toNat ≤ (m.events.produced - m.events.consumed).toNat →
      let e := { m.events with consumed := BitVec.ofNat 32 (q.fld 0 4) }
      Served (.eventAck q) s q 0x60 0 [] { m with events := if a.state = .safeHold then e else e.flush }) ∧
    (Allowed m (.logRead q) q → size 8 → 1 ≤ q.fld 4 2 → q.fld 4 2 ≤ 55 → let oldest := m.logTotal - BitVec.ofNat 32 m.log.length
      Served (.logRead q) s q 0x61 0 (bytesOf m.logTotal 4 ++ bytesOf oldest 4 ++ zeros 8 ++ (List.range (q.fld 4 2)).flatMap (fun k =>
        match m.log[(BitVec.ofNat 32 (q.fld 0 4 + k) - oldest).toNat]? with
        | some e => bytesOf e.command 2 ++ bytesOf e.session 2 ++ bytesOf e.detail 4 ++ bytesOf e.stick 8 ++ bytesOf e.old 8 ++ bytesOf e.new 8
        | none => zeros 32)) m) ∧
    (let x := q.fld 0 2
      let kind := q.byte 2
      Allowed m (.fenceCore q) q → size 4 → x < 25600 → 1 ≤ kind → kind ≤ 2 → m.level 9 = 1 →
      (2 ≤ m.fence x ∨ kind ≤ m.fence x ∨ x ∈ m.mesh.removing ∨ (kind = 2 ∧ m.ringBlocked x = true) → Served (.fenceCore q) s q 0x62 0x10A [] m) ∧
      (m.fence x < kind → m.fence x < 2 → x ∉ m.mesh.removing → (kind = 2 → m.ringBlocked x = false) →
        ∃ t, Answers (.fenceCore q) s t q 0x62 0 (bytesOf (m.desc.gen + 1) 4) ∧ t.m.logTotal = m.logTotal + 1 ∧
          (kind = 1 → t.m.mesh = m.mesh ∧ t.m.desc.gen = m.desc.gen + 1 ∧ ∀ k, t.m.fence k = if k = x then 1 else m.fence k) ∧
          (kind = 2 → t.m.mesh.removing = m.mesh.removing ++ [x] ∧ t.m.desc = m.desc))) ∧
    (Allowed m (.safeHoldClear q) q → size 0 →
      ((∃ k, 1 ≤ k ∧ k ≤ 8 ∧ causePersists m k = true) → Served (.safeHoldClear q) s q 0x63 0x10A [] m) ∧
      ((∀ k, 1 ≤ k → k ≤ 8 → causePersists m k = false) → (∀ k < 24, (m.port k).state ≠ .quiet) → m.topo.reach = [] →
        ∃ t, Answers (.safeHoldClear q) s t q 0x63 0 (bytesOf a.safeCause 1) ∧ t.m.logTotal = m.logTotal + 1 ∧
          t.m.aon = { a with state := a.entryState, safeCause := 0, heldCauses := 0, pins := { a.pins with fault := false } } ∧
          (a.entryState ≠ .standby → t.m.stock.selfRefresh = false) ∧
          ∀ k, 1 ≤ k → k ≤ 30 → let b := m.mailbox k; let b' := t.m.mailbox k
            if b.seq = b.ack then b' = b else b'.ack = b.seq ∧ b'.rspStatus = 0x10C ∧ b'.status = 0x10C)) ∧
    (size 16 →
      (Allowed m (.eventPolicy q) q → let code := q.fld 2 2; let v := q.fld 4 4; let old := m.level code
        q.byte 0 = 1 → 1 ≤ code → code ≤ 0x14 → v ≤ 3 →
        let least := if code = 8 then 2 else if code = 14 then 3 else 1
        (v < least → code ∉ [0x02, 0x03, 0x05, 0x0A, 0x0C, 0x10, 0x12, 0x14] →
          Served (.eventPolicy q) s q 0x64 0x105 [] (logChange 0x64 sess 1 code true old v m)) ∧
        (least ≤ v ∨ code ∈ [0x02, 0x03, 0x05, 0x0A, 0x0C, 0x10, 0x12, 0x14] → policy (.eventPolicy q) 1 code old v
          { m with settings := { m.settings with policy := Tab.set m.settings.policy code v } })) ∧
      (Allowed m (.progressMarks q) q → q.byte 0 = 2 → 1 ≤ q.fld 4 4 → q.fld 4 4 ≤ 65535 →
        (m.placement (q.fld 2 2) = none → Served (.progressMarks q) s q 0x64 0x10A [] m) ∧
        (m.placement (q.fld 2 2) = some p → policy (.progressMarks q) 2 (q.fld 2 2) p.progress (q.fld 4 4)
          (m.setPlacement { p with progress := q.fld 4 4 }))) ∧
      (Allowed m (.syncIo q) q → let new := syncOf (q.fld 4 4)
        q.byte 0 = 3 → q.fld 2 2 = 0 → q.fld 4 4 ≤ 3 → ∃ t, Answers (.syncIo q) s t q 0x64 0 (le 4 a.syncIo.code) ∧ t.m.logTotal = m.logTotal + 1 ∧
          t.m.aon = (if new = a.syncIo then a else { a with
            syncIo := new, acquiring := new == .markIn, missRun := 0, edgeTaken := false, edgeIgnored := false }) ∧
          ∀ r < 25, t.m.region r = (let g := m.region r
            if new ≠ .trigger ∧ g.trace.on = true ∧ g.trace.trigger = 1 ∧ g.trace.armed = true then { g with trace := {} } else g)) ∧
      (Allowed m (.bar2Window q) q → let on := q.fld 4 4 % 2 == 1
        q.byte 0 = 4 → q.fld 2 2 = 0 → q.fld 8 8 % 2 ^ 21 = 0 →
        policy (.bar2Window q) 4 0 (b2n m.settings.bar2On) (q.fld 8 8 / 2 * 2 + b2n on)
          { m with settings := { m.settings with bar2On := on, bar2Base := BitVec.ofNat 64 (q.fld 8 8) } }))

/-! ### Attestation and registers -/

/-- Attestation (R564 to R568, Table 15.9): on each path GET_VERSION opens a connection, and capabilities, algorithms and then the other
requests are answered in that order; digests and certificate are those of slot 0; CHALLENGE and signed measurements wait for the
identity key; any other request is unsupported. DOE and MCTP are not served before Tirix runs nor in SAFE_HOLD. -/
def Obligations.AttestationAnswers : Prop :=
  ∀ (s : State) (via : SpdmVia),
    let m := s.m
    let d := m.ident
    let p : SpdmPath := match via with
      | .doe => d.doe
      | .mctp => d.mctp
      | .attest _ => d.attest
    let becomes (i : Instr) (stage : Fin 4) (r : SpdmRsp) : Prop :=
      let p' : SpdmPath := { stage := stage, answer := some r }
      let next (x : Ident) : Mod := { m with ident := x, freeCtr := m.freeCtr + 1 }
      let open' := m.aon.tirixRunning = true ∧ m.aon.state ≠ .safeHold
      match via with
      | .doe => (open' → exec i s = .next { s with m := next { d with doe := p' } }) ∧ (¬ open' → exec i s = .next s)
      | .mctp => (open' → exec i s = .next { s with m := next { d with mctp := p' } }) ∧ (¬ open' → exec i s = .next s)
      | .attest q => Allowed m i q → if r = .busy then Served i s q 8 0x10A [] m
        else Served i s q 8 0 ((Config.spdmMessage m.freeCtr).take 1776) (next { d with attest := p' })
    let at3 (i : Instr) (r : SpdmRsp) : Prop := if p.stage = 3 then becomes i 3 r else becomes i p.stage .unexpected
    let cert0 := if d.cert = [] then none else some (sha512 d.cert)
    let nonce := Config.nonce m.freeCtr 32
    let sign := Config.identitySign (d.key.getD []) (Config.spdmTranscript m.freeCtr)
    let block (k : Nat) : Nat × Bool × List Byte := match k with
      | 1 => (1, false, Config.rootDigest m.b0 ++ bytesOf (Config.romMinSvn m.b0) 2)
      | 2 => (2, true, d.fwDigest)
      | 3 => (3, false, bytesOf m.aon.fwVersion 4 ++ bytesOf m.aon.svn 2 ++ le 2 (if m.b0 then 0xB0 else 0xA1))
      | 4 => (4, true, if m.aon.ownerInstalled then sha512 (bytesOf d.ownerExp 4 ++ d.ownerMod) else zeros 64)
      | _ => (5, false, bytesOf m.moduleState 4)
    let blocks (k : Byte) : Option (List (Nat × Bool × List Byte)) :=
      if k = 0 then some [] else if k = 255 then some ([1, 2, 3, 4, 5].map block) else if k.toNat ≤ 5 then some [block k.toNat] else none
    via.ok = true →
      becomes (.getVersion via) 1 (.version 0x12) ∧
      (if p.stage = 1 then becomes (.getCapabilities via) 2 (.capabilities true true 2 false)
        else becomes (.getCapabilities via) p.stage .unexpected) ∧
      (if p.stage = 2 then becomes (.negotiateAlgorithms via) 3 (.algorithms true true true)
        else becomes (.negotiateAlgorithms via) p.stage .unexpected) ∧
      at3 (.getDigests via) (.digests cert0) ∧
      (∀ off len : W16, at3 (.getCertificate via off len) (.certificate (slice d.cert off.toNat (min len.toNat (d.cert.length - off.toNat))))) ∧
      (∀ n : List Byte, n.length = 32 →
        (m.aon.identityReady = false → becomes (.challenge via n) p.stage .busy) ∧
        (m.aon.identityReady = true → at3 (.challenge via n) (.challengeAuth cert0 nonce sign)) ∧
        ∀ k : Byte,
          (m.aon.identityReady = false → becomes (.getMeasurements via n true k) p.stage .busy) ∧
          (m.aon.identityReady = true → ∀ l, blocks k = some l →
            at3 (.getMeasurements via n true k) (.measurements 5 l (some (nonce, sign)))) ∧
          (∀ l, blocks k = some l → at3 (.getMeasurements via n false k) (.measurements 5 l none)) ∧
          (blocks k = none → at3 (.getMeasurements via n false k) .invalid)) ∧
      becomes (.spdmUnsupportedRequest via) p.stage .unsupported ∧
      ∀ eid : Byte, m.aon.state ≠ .off → exec (.setEndpointId eid) s = .next { s with m := { m with ident := { d with endpoint := eid } } }

/-- Register writes and the BAR2 window (R7, R8, R492 to R501, R534, R547, Table 14.1, Table 14.4, Table 15.4): a write changes the
writable fields it covers and nothing else, and a SEQ that then differs from ACK makes Tirix answer the request in the area; the boot
window takes the image in BOOT only; a BAR2 access reaches the owner's resident, and for a write writable, page, or reads zero and is
counted; in STANDBY it wakes the module and waits. -/
def Obligations.RegistersAndWindow : Prop :=
  ∀ (s : State) (bytes : List Byte) (n : Nat) (off : BitVec 26),
    let m := s.m
    let a := m.aon
    let b := m.mailbox n
    let o := off.toNat % 4096
    let page := off.toNat / 4096
    let write := Instr.registerWrite off bytes
    let inWrite (k : Nat) : Prop := o ≤ k ∧ k < o + bytes.length
    let byteAt (old : Byte) (k : Nat) : Byte := if o ≤ k ∧ k < o + bytes.length then bytes.getD (k - o) 0 else old
    (Instr.wf write = true →
      (31 < page → page < 0x1000 → exec write s = .next s) ∧
      (page = n → n ≤ 30 → a.state ≠ .off → (a.state = .safeHold → n = 0) →
        (0x20 ≤ o → o + bytes.length ≤ 0x800 → b.seq = b.ack → b.reqBody.length ≤ 2016 → ∃ t, exec write s = .next t ∧
          t = { s with m := { m with mailboxes := t.m.mailboxes } } ∧ (∀ k, k ≠ n → t.m.mailbox k = m.mailbox k) ∧
          t.m.mailbox n = { b with reqBody := (t.m.mailbox n).reqBody } ∧
          ∀ k < 2016, (t.m.mailbox n).reqBody.getD k 0 = byteAt (b.reqBody.getD k 0) (0x20 + k)) ∧
        (0x800 ≤ o → b.seq = b.ack → exec write s = .next { s with m := m.onMailbox n (fun x => x) }) ∧
        (∀ v : W32, o = 0 → bytes = bytesOf v 4 → (Serves m → v = b.ack) →
          exec write s = .next { s with m := m.onMailbox n (fun x => { x with seq := v }) }) ∧
        (∀ v : W32, o = 0 → bytes = bytesOf v 4 → v ≠ b.ack → Serves m →
          let answer (status : Nat) (body : List Byte) : Prop := ∃ t, exec write s = .next t ∧
            t = { s with m := { m with mailboxes := t.m.mailboxes, host := t.m.host } } ∧ (∀ k, k ≠ n → t.m.mailbox k = m.mailbox k) ∧
            t.m.mailbox n = { b with
              seq := v, ack := v, status := BitVec.ofNat 32 status, rspCommand := b.reqCommand, rspStatus := BitVec.ofNat 16 status
              rspLength := BitVec.ofNat 32 body.length, rspTag := b.reqTag, rspBody := body }
          (b.reqCommand.toNat ∉ commandCodes → answer 0x100 []) ∧
          (b.reqCommand = 1 → a.state = .full → m.kindOf n ≤ 4 → b.reqLength ≠ 0 → answer 0x101 []) ∧
          (b.reqCommand = 1 → a.state = .full → m.kindOf n ≤ 4 → b.reqLength = 0 → answer 0 (helloBody n m)))) ∧
      (page = 31 → a.state ≠ .off → a.state ≠ .safeHold → ∃ t, exec write s = .next t ∧
        t = { s with m := { m with events := { m.events with irq := t.m.events.irq }, host := t.m.host } } ∧
        (¬ inWrite 12 → t = s) ∧ (inWrite 12 → t.m.events.irq = bit (bytes.getD (12 - o) 0) 0)) ∧
      (0x1000000 ≤ off.toNat → off.toNat < 0x4000000 →
        (a.state ≠ .boot → exec write s = .next s) ∧
        (a.state = .boot → off.toNat ≠ 0x1000000 + 12 → 0x1000000 + 16 ≤ off.toNat ∨ off.toNat + bytes.length ≤ 0x1000000 + 12 →
          ∃ t, exec write s = .next t ∧ t = { s with m := { m with bringup := t.m.bringup } } ∧
            t.m.bringup = { m.bringup with bootLength := t.m.bringup.bootLength, bootImage := t.m.bringup.bootImage } ∧
            (0x1000000 + 12 ≤ off.toNat → t.m.bringup.bootLength = m.bringup.bootLength) ∧
            (off.toNat = 0x1000000 + 8 → ∀ v : W32, bytes = bytesOf v 4 → t.m.bringup.bootLength = v) ∧
            ∀ k, t.m.bringup.bootImage.get k = if off.toNat ≤ 0x1001000 + k ∧ 0x1001000 + k < off.toNat + bytes.length
              then bytes.getD (0x1001000 + k - off.toNat) 0 else m.bringup.bootImage.get k) ∧
        (a.state = .boot → off.toNat = 0x1000000 + 12 → bytes = bytesOf (1 : W32) 4 → exec write s = exec (.bootGo 1) s))) ∧
    (∀ (offset : BitVec 36) (len : BitVec 12), let sess := m.sessId 0
      let sa := m.settings.bar2Base.toNat + offset.toNat
      let e := m.pte sess (sa / 2 ^ 21)
      let on := m.settings.bar2On = true ∧ a.state ∈ [ModState.roughCut, .full, .standby]
      let reaches (w : Bool) : Prop := on ∧ sa < 2 ^ 48 ∧ pteValid e = true ∧ pteResident e = true ∧ (w = true → pteWritable e = true)
      let waits (w : Bool) (l : List Byte) (t : State) : Prop := t.m.host = { m.host with bar2Wait := m.host.bar2Wait ++ [(offset.toNat, w, l)] } ∧
        t.m.aon.state = .full ∧ t.m.stock.selfRefresh = false
      a.state ≠ .off → m.bringup.pcieReady = true → m.settings.bar2Base.toNat % 2 ^ 21 = 0 →
      (Instr.wf (.bar2Read offset len) = true →
        (m.host.bar2Wait = [] → a.state ≠ .standby → ∃ t, exec (.bar2Read offset len) s = .next t ∧ t.m.stock = m.stock ∧
          (reaches false → t.m.host.bar2Data = (List.range len.toNat).map (fun k => m.stockByte sess (sa + k)) ∧ t.m.power = m.power ∧
            t.m.pte sess (sa / 2 ^ 21) = put e 57 57 1) ∧
          (¬ reaches false → t.m.host.bar2Data = zeros len.toNat ∧ t.m.alloc = m.alloc ∧ t.m.power.bar2Discards = m.power.bar2Discards + 1)) ∧
        (on → a.state = .standby → ∃ t, exec (.bar2Read offset len) s = .next t ∧ waits false (zeros len.toNat) t)) ∧
      (Instr.wf (.bar2Write offset bytes) = true →
        (m.host.bar2Wait = [] → a.state ≠ .standby → ∃ t, exec (.bar2Write offset bytes) s = .next t ∧ t.m.host = m.host ∧
          (reaches true → (∀ k < bytes.length, t.m.stockByte sess (sa + k) = bytes.getD k 0) ∧ t.m.power = m.power ∧
            t.m.pte sess (sa / 2 ^ 21) = put (put e 57 57 1) 58 58 1) ∧
          (¬ reaches true → t.m.stock = m.stock ∧ t.m.alloc = m.alloc ∧ t.m.power.bar2Discards = m.power.bar2Discards + 1)) ∧
        (on → a.state = .standby → ∃ t, exec (.bar2Write offset bytes) s = .next t ∧ waits true bytes t)) ∧
      (m.host.bar2Wait = [] → exec .bar2AccessComplete s = .next s) ∧
      (∀ rest, m.host.bar2Wait = (offset.toNat, false, zeros len.toNat) :: rest → ∃ t, exec .bar2AccessComplete s = .next t ∧ t.m.host.bar2Wait = rest ∧
        t.m.stock = m.stock ∧ (reaches false → t.m.host.bar2Data = (List.range len.toNat).map (fun k => m.stockByte sess (sa + k))) ∧
        (¬ reaches false → t.m.host.bar2Data = zeros len.toNat)))

/-! ### The block as a whole -/

/-- One step of the block: the command at the front of the queue is carried out with the rest of the queue, first in first out; with an
empty queue the block idles (the model's choice, log entry 2). -/
def Obligations.StepRunsFrontCommand : Prop :=
  (∀ (c : Instr) (s : State), step { s with pending := c :: s.pending } = exec c s) ∧ (∀ s : State, s.pending = [] → step s = .next s)

/-- Every command completes: one whose operands spell its row answers a next state and leaves the queue as it is, and any other stops with
the fault that says so (log entries 1 and 2). A queue of well-formed commands therefore runs, however long, with no fault and no
refusal: each step answers a next state whose queue is the rest, well formed still. -/
def Obligations.WellFormedQueuesRun : Prop :=
  (∀ (i : Instr) (s : State), (Instr.wf i = true → ∃ t, exec i s = .next t ∧ t.pending = s.pending) ∧
    (Instr.wf i = false → exec i s = .fault .illFormed)) ∧
  ∀ s : State, QueueWf s = true → ∃ t, step s = .next t ∧ t.pending = s.pending.tail ∧ QueueWf t = true

/-- The module after reset (R9, R539, R540 and the Reset columns of the tables): OFF, with the stick, the marks, the log and every counter
at 0, no region powered or tested, every port down, no session, image or placement, no command waiting, the envelope at 40,000 W, the
ceiling at step 3 with four raises each, every event at its default level, and every site of the fence map untested. Fields whose
reset the tables call undefined hold the values of log entry 8. -/
def Obligations.ResetLeaves : Prop :=
  let m := State.reset.m
  State.reset.pending = [] ∧ m.aon.state = .off ∧ m.aon.stick = 0 ∧ m.aon.markNumber = 0 ∧ m.aon.appliedMask = 0x1FFFFFF ∧ m.aon.inFlight = false ∧
    m.aon.syncIo = .off ∧ m.aon.safeCause = 0 ∧ m.aon.tirixRunning = false ∧ m.aon.identityReady = false ∧ m.aon.ownerProven = false ∧
    m.aon.ownerInstalled = false ∧ m.desc.gen = 0 ∧ m.desc.tested = 0 ∧ m.desc.stockTrained = 0 ∧ m.desc.portsTrained = 0 ∧
    m.topo.partition = 0 ∧ m.topo.gen = 0 ∧ m.topo.requireVerified = false ∧ m.settings.envelope = 40000 ∧ m.settings.envelopeRaises = 4 ∧
    m.settings.ceiling = 3 ∧ m.settings.ceilingRaises = 4 ∧ m.settings.bar2On = false ∧ m.settings.modes = 0 ∧
    m.sessions = [] ∧ m.images = [] ∧ m.placements = [] ∧ m.jobs = [] ∧ m.log = [] ∧ m.logTotal = 0 ∧
    m.events.produced = 0 ∧ m.events.consumed = 0 ∧ m.events.lost = 0 ∧ m.power.bar2Discards = 0 ∧
    (∀ k, m.fence k = 3) ∧ (∀ r, (m.region r).dom = .off ∧ (m.region r).run.running = false) ∧ (∀ p, (m.port p).state = .down) ∧
    (∀ b, (m.mailbox b).seq = 0 ∧ (m.mailbox b).ack = 0 ∧ (m.mailbox b).status = 0) ∧
    (∀ code, m.level code = if code = 8 then 2 else if code = 14 then 3 else 1) ∧ Mem.wf m.stock.mem = true ∧ Mem.wf m.host.mem = true

/-- Stock and host memory keep their canonical form, cells in rising order and none that reads as an unlisted cell does, at every step:
equal memories are equal data. -/
def Obligations.MemoryStaysCanonical : Prop :=
  ∀ (s t : State), step s = .next t → Mem.wf s.m.stock.mem = true → Mem.wf s.m.host.mem = true →
    Mem.wf t.m.stock.mem = true ∧ Mem.wf t.m.host.mem = true
end

