-- ==== Sys2Proof/Laws/Bits.lean ====
section
/-!
SUPPORT. Laws/Bits.lean: fields replaced and read back, lanes and bytes read back, memories read after a write and their
canonical form kept.
-/

namespace Sys2Proof.Laws

open Sys2Proof Sys2Proof.Machine

/-! ### Fields -/

theorem and_field (x w lo : Nat) : x &&& ((2 ^ w - 1) <<< lo) = x / 2 ^ lo % 2 ^ w * 2 ^ lo := by
  have : x &&& ((2 ^ w - 1) <<< lo) = (x >>> lo &&& (2 ^ w - 1)) <<< lo := by
    apply Nat.eq_of_testBit_eq
    intro i
    simp only [Nat.testBit_and, Nat.testBit_shiftLeft, Nat.testBit_shiftRight]
    by_cases h : lo ≤ i
    · simp [h, Nat.add_sub_cancel' h]
    · simp [h]
  rw [this, Nat.and_two_pow_sub_one_eq_mod, Nat.shiftLeft_eq, Nat.shiftRight_eq_div_pow]

/-- A number as what lies above a field, the field, and what lies below it. -/
theorem split_field (x hi lo : Nat) (h : lo ≤ hi) :
    x = x / 2 ^ (hi + 1) * 2 ^ (hi + 1) + x / 2 ^ lo % 2 ^ (hi + 1 - lo) * 2 ^ lo + x % 2 ^ lo := by
  have h1 : 2 ^ (hi + 1) = 2 ^ lo * 2 ^ (hi + 1 - lo) := by rw [← pow_add]; congr 1; omega
  have h2 := Nat.div_add_mod x (2 ^ lo)
  have h3 := Nat.div_add_mod (x / 2 ^ lo) (2 ^ (hi + 1 - lo))
  have h4 : x / 2 ^ lo / 2 ^ (hi + 1 - lo) = x / 2 ^ (hi + 1) := by rw [Nat.div_div_eq_div_mul, ← h1]
  rw [h4] at h3
  calc x = 2 ^ lo * (x / 2 ^ lo) + x % 2 ^ lo := h2.symm
    _ = 2 ^ lo * (2 ^ (hi + 1 - lo) * (x / 2 ^ (hi + 1)) + x / 2 ^ lo % 2 ^ (hi + 1 - lo)) + x % 2 ^ lo := by rw [h3]
    _ = _ := by rw [h1]; ring

/-- What a replaced field makes of a word, as a number. -/
theorem put_toNat {n : Nat} (x : BitVec n) (hi lo v : Nat) (h : lo ≤ hi) (hn : hi < n) :
    (put x hi lo v).toNat = x.toNat / 2 ^ (hi + 1) * 2 ^ (hi + 1) + v % 2 ^ (hi + 1 - lo) * 2 ^ lo + x.toNat % 2 ^ lo := by
  have hs := split_field x.toNat hi lo h
  have hx := x.isLt
  simp only [put, BitVec.toNat_ofNat]
  rw [and_field]
  simp only [Nat.shiftLeft_eq]
  set A := x.toNat / 2 ^ (hi + 1) with hA
  set F := x.toNat / 2 ^ lo % 2 ^ (hi + 1 - lo)
  set B := x.toNat % 2 ^ lo
  set V := v % 2 ^ (hi + 1 - lo) with hV
  have e : x.toNat - F * 2 ^ lo + V * 2 ^ lo = A * 2 ^ (hi + 1) + V * 2 ^ lo + B := by omega
  rw [e, Nat.mod_eq_of_lt]
  have hB : B < 2 ^ lo := Nat.mod_lt _ (by positivity)
  have hVlt : V < 2 ^ (hi + 1 - lo) := Nat.mod_lt _ (by positivity)
  have h1 : 2 ^ (hi + 1) = 2 ^ (hi + 1 - lo) * 2 ^ lo := by rw [← pow_add]; congr 1; omega
  have h2 : V * 2 ^ lo + B < 2 ^ (hi + 1) := by
    rw [h1]
    calc V * 2 ^ lo + B < V * 2 ^ lo + 2 ^ lo := by omega
      _ = (V + 1) * 2 ^ lo := by ring
      _ ≤ _ := Nat.mul_le_mul_right _ hVlt
  have h3 : A < 2 ^ (n - (hi + 1)) := by
    rw [hA, Nat.div_lt_iff_lt_mul (by positivity), ← pow_add]
    have : n - (hi + 1) + (hi + 1) = n := by omega
    rw [this]; exact hx
  have h4 : 2 ^ n = 2 ^ (n - (hi + 1)) * 2 ^ (hi + 1) := by rw [← pow_add]; congr 1; omega
  calc A * 2 ^ (hi + 1) + V * 2 ^ lo + B < A * 2 ^ (hi + 1) + 2 ^ (hi + 1) := by omega
    _ = (A + 1) * 2 ^ (hi + 1) := by ring
    _ ≤ _ := by rw [h4]; exact Nat.mul_le_mul_right _ h3

/-- A replaced field reads as its new value. -/
theorem sel_put_same {n : Nat} (x : BitVec n) (hi lo v : Nat) (h : lo ≤ hi) (hn : hi < n) :
    sel (put x hi lo v) hi lo = v % 2 ^ (hi + 1 - lo) := by
  simp only [sel, put_toNat x hi lo v h hn, Nat.shiftRight_eq_div_pow]
  have h1 : 2 ^ (hi + 1) = 2 ^ (hi + 1 - lo) * 2 ^ lo := by rw [← pow_add]; congr 1; omega
  have e : x.toNat / 2 ^ (hi + 1) * 2 ^ (hi + 1) + v % 2 ^ (hi + 1 - lo) * 2 ^ lo + x.toNat % 2 ^ lo
      = x.toNat % 2 ^ lo + (x.toNat / 2 ^ (hi + 1) * 2 ^ (hi + 1 - lo) + v % 2 ^ (hi + 1 - lo)) * 2 ^ lo := by
    rw [h1]; ring
  rw [e, Nat.add_mul_div_right _ _ (by positivity), Nat.div_eq_of_lt (Nat.mod_lt _ (by positivity)), Nat.zero_add,
    Nat.mul_add_mod', Nat.mod_mod]

/-- Every bit outside a replaced field is kept. -/
theorem bit_put_other {n : Nat} (x : BitVec n) (hi lo v i : Nat) (h : lo ≤ hi) (hn : hi < n) (hi' : i < lo ∨ hi < i) :
    bit (put x hi lo v) i = bit x i := by
  have hs := split_field x.toNat hi lo h
  simp only [bit, BitVec.getLsbD, put_toNat x hi lo v h hn]
  rcases hi' with hi' | hi'
  · have e : x.toNat / 2 ^ (hi + 1) * 2 ^ (hi + 1) + v % 2 ^ (hi + 1 - lo) * 2 ^ lo + x.toNat % 2 ^ lo
        = 2 ^ lo * (x.toNat / 2 ^ (hi + 1) * 2 ^ (hi + 1 - lo) + v % 2 ^ (hi + 1 - lo)) + x.toNat % 2 ^ lo := by
      have h1 : 2 ^ (hi + 1) = 2 ^ (hi + 1 - lo) * 2 ^ lo := by rw [← pow_add]; congr 1; omega
      rw [h1]; ring
    rw [e, Nat.testBit_two_pow_mul_add _ (Nat.mod_lt _ (by positivity))]
    simp [hi', Nat.testBit_mod_two_pow]
  · have hB : x.toNat % 2 ^ lo < 2 ^ lo := Nat.mod_lt _ (by positivity)
    have hV : v % 2 ^ (hi + 1 - lo) < 2 ^ (hi + 1 - lo) := Nat.mod_lt _ (by positivity)
    have h1 : 2 ^ (hi + 1) = 2 ^ (hi + 1 - lo) * 2 ^ lo := by rw [← pow_add]; congr 1; omega
    have h2 : v % 2 ^ (hi + 1 - lo) * 2 ^ lo + x.toNat % 2 ^ lo < 2 ^ (hi + 1) := by
      rw [h1]
      calc v % 2 ^ (hi + 1 - lo) * 2 ^ lo + x.toNat % 2 ^ lo < v % 2 ^ (hi + 1 - lo) * 2 ^ lo + 2 ^ lo := by omega
        _ = (v % 2 ^ (hi + 1 - lo) + 1) * 2 ^ lo := by ring
        _ ≤ _ := Nat.mul_le_mul_right _ hV
    have e : x.toNat / 2 ^ (hi + 1) * 2 ^ (hi + 1) + v % 2 ^ (hi + 1 - lo) * 2 ^ lo + x.toNat % 2 ^ lo
        = 2 ^ (hi + 1) * (x.toNat / 2 ^ (hi + 1)) + (v % 2 ^ (hi + 1 - lo) * 2 ^ lo + x.toNat % 2 ^ lo) := by ring
    rw [e, Nat.testBit_two_pow_mul_add _ h2]
    have : ¬ i < hi + 1 := by omega
    simp only [this, if_false]
    rw [Nat.testBit_div_two_pow]
    congr 1
    omega

/-! ### Elements of wide words -/

theorem packNat_lt (w : Nat) (f : Nat → BitVec w) (k : Nat) : packNat w f k < 2 ^ (w * k) := by
  induction k with
  | zero => simp [packNat]
  | succ k ih =>
    simp only [packNat, Nat.shiftLeft_eq]
    have hf := (f k).isLt
    have e : 2 ^ (w * (k + 1)) = 2 ^ w * 2 ^ (w * k) := by rw [← pow_add]; congr 1; ring
    rw [e]
    calc packNat w f k + (f k).toNat * 2 ^ (w * k) < 2 ^ (w * k) + (f k).toNat * 2 ^ (w * k) := by omega
      _ = ((f k).toNat + 1) * 2 ^ (w * k) := by ring
      _ ≤ _ := Nat.mul_le_mul_right _ hf

theorem packNat_elem (w : Nat) (f : Nat → BitVec w) (k i : Nat) (h : i < k) :
    packNat w f k / 2 ^ (w * i) % 2 ^ w = (f i).toNat := by
  induction k with
  | zero => omega
  | succ k ih =>
    simp only [packNat, Nat.shiftLeft_eq]
    by_cases hk : i = k
    · subst hk
      rw [Nat.add_mul_div_right _ _ (by positivity), Nat.div_eq_of_lt (packNat_lt w f i), Nat.zero_add,
        Nat.mod_eq_of_lt (f i).isLt]
    · have hlt : i < k := by omega
      have e : (f k).toNat * 2 ^ (w * k) = (f k).toNat * 2 ^ (w * (k - i - 1)) * 2 ^ w * 2 ^ (w * i) := by
        rw [mul_assoc, mul_assoc, ← pow_add, ← pow_add]
        congr 2
        obtain ⟨d, rfl⟩ : ∃ d, k = i + 1 + d := ⟨k - i - 1, by omega⟩
        have : i + 1 + d - i - 1 = d := by omega
        rw [this]; ring
      rw [e, Nat.add_mul_div_right _ _ (by positivity), Nat.add_mul_mod_self_right]
      exact ih hlt

theorem elem_packNat {n : Nat} (w : Nat) (f : Nat → BitVec w) (k i : Nat) (h : i < k) (hn : w * k ≤ n) :
    elem w (BitVec.ofNat n (packNat w f k)) i = f i := by
  apply BitVec.eq_of_toNat_eq
  simp only [elem, BitVec.extractLsb'_toNat, BitVec.toNat_ofNat, Nat.shiftRight_eq_div_pow]
  rw [Nat.mod_eq_of_lt (lt_of_lt_of_le (packNat_lt w f k) (Nat.pow_le_pow_right (by omega) hn)), packNat_elem w f k i h]

/-- A lane of a vector built lane by lane. -/
theorem lane_vecOf (f : Nat → W32) (i : Nat) (h : i < 256) : lane (vecOf f) i = f i :=
  elem_packNat 32 f 256 i h (by omega)

/-- A byte of a row built byte by byte. -/
theorem rbyte_rowOf (f : Nat → Byte) (i : Nat) (h : i < 512) : rbyte (rowOf f) i = f i :=
  elem_packNat 8 f 512 i h (by omega)

/-- A word of a row built word by word. -/
theorem elem_row32 (f : Nat → W32) (i : Nat) (h : i < 128) : elem 32 (row32 f) i = f i :=
  elem_packNat 32 f 128 i h (by omega)

/-! ### Tables and memories -/

theorem find_set {α : Type} (t : Tab α) (k j : Nat) (v : α) :
    Tab.find (Tab.set t k v) j = if j = k then some v else Tab.find t j := by
  induction t with
  | nil => simp [Tab.set, Tab.find, eq_comm]
  | cons x t ih =>
    obtain ⟨i, w⟩ := x
    simp only [Tab.set]
    split
    · simp [Tab.find, eq_comm]
    · split
      · subst k
        by_cases h : j = i
        · simp [Tab.find, h]
        · simp [Tab.find, h, Ne.symm h]
      · by_cases h : i = j
        · subst h
          have : ¬ i = k := fun e => by omega
          simp [Tab.find, this]
        · simp [Tab.find, h, ih]

theorem get_set {α : Type} (t : Tab α) (k j : Nat) (v d : α) :
    Tab.get (Tab.set t k v) j d = if j = k then v else Tab.get t j d := by
  simp only [Tab.get, find_set]
  split <;> rfl

theorem find_erase {α : Type} (t : Tab α) (k j : Nat) :
    Tab.find (Tab.erase t k) j = if j = k then none else Tab.find t j := by
  induction t with
  | nil => simp [Tab.erase, Tab.find]
  | cons x t ih =>
    obtain ⟨i, w⟩ := x
    simp only [Tab.erase] at ih
    by_cases h : i = k
    · simp only [Tab.erase, List.filter, h, bne_self_eq_false]
      rw [ih]
      by_cases hj : j = k
      · simp [hj]
      · simp [hj, Tab.find, Ne.symm hj]
    · have : (i != k) = true := by simp [h]
      simp only [Tab.erase, List.filter, this, Tab.find]
      rw [ih]
      by_cases hj : i = j
      · subst hj; simp [h]
      · simp [hj]

/-- A memory read after a write. -/
theorem mem_get_set {w : Nat} (m : Mem w) (k j : Nat) (v : BitVec w) : (m.set k v).get j = if j = k then v else m.get j := by
  unfold Mem.set
  split
  · rename_i h
    simp only [Mem.get, find_erase]
    by_cases hj : j = k
    · simp [hj, Mem.dflt, h.1, h.2]
    · simp [hj, Mem.dflt]
  · simp only [Mem.get, find_set]
    by_cases hj : j = k
    · simp [hj]
    · simp [hj, Mem.dflt]

theorem sorted_cons {α : Type} (j : Nat) (v : α) (t : Tab α) :
    Tab.sorted ((j, v) :: t) = true ↔ (∀ p ∈ t, j < p.1) ∧ Tab.sorted t = true := by
  induction t generalizing j v with
  | nil => simp [Tab.sorted]
  | cons x t ih =>
    obtain ⟨k, w⟩ := x
    simp only [Tab.sorted, Bool.and_eq_true, decide_eq_true_eq, List.mem_cons, forall_eq_or_imp]
    constructor
    · rintro ⟨h1, h2⟩
      refine ⟨⟨h1, ?_⟩, h2⟩
      intro p hp
      exact lt_trans h1 (((ih k w).1 h2).1 p hp)
    · rintro ⟨⟨h1, _⟩, h2⟩
      exact ⟨h1, h2⟩

theorem mem_set_keys {α : Type} (t : Tab α) (k : Nat) (v : α) (p : Nat × α) (h : p ∈ Tab.set t k v) : p = (k, v) ∨ p ∈ t := by
  induction t with
  | nil => simp [Tab.set] at h; exact Or.inl h
  | cons x t ih =>
    obtain ⟨i, w⟩ := x
    simp only [Tab.set] at h
    split at h
    · simp only [List.mem_cons] at h ⊢; tauto
    · split at h
      · simp only [List.mem_cons] at h ⊢; tauto
      · simp only [List.mem_cons] at h ⊢
        rcases h with h | h
        · exact Or.inr (Or.inl h)
        · rcases ih h with h | h
          · exact Or.inl h
          · exact Or.inr (Or.inr h)

/-- Setting an entry keeps the keys rising. -/
theorem sorted_set {α : Type} (t : Tab α) (k : Nat) (v : α) (h : Tab.sorted t = true) : Tab.sorted (Tab.set t k v) = true := by
  induction t with
  | nil => rfl
  | cons x t ih =>
    obtain ⟨i, w⟩ := x
    obtain ⟨h1, h2⟩ := (sorted_cons i w t).1 h
    simp only [Tab.set]
    split
    · rename_i hk
      refine (sorted_cons k v _).2 ⟨?_, h⟩
      intro p hp
      simp only [List.mem_cons] at hp
      rcases hp with rfl | hp
      · exact hk
      · exact lt_trans hk (h1 p hp)
    · split
      · rename_i hk
        exact (sorted_cons k v _).2 ⟨fun p hp => hk ▸ h1 p hp, h2⟩
      · refine (sorted_cons i w _).2 ⟨?_, ih h2⟩
        intro p hp
        rcases mem_set_keys t k v p hp with rfl | hp
        · simp only; omega
        · exact h1 p hp

/-- Erasing an entry keeps the keys rising. -/
theorem sorted_filter {α : Type} (t : Tab α) (f : Nat × α → Bool) (h : Tab.sorted t = true) : Tab.sorted (t.filter f : Tab α) = true := by
  induction t with
  | nil => rfl
  | cons x t ih =>
    obtain ⟨i, w⟩ := x
    obtain ⟨h1, h2⟩ := (sorted_cons i w t).1 h
    simp only [List.filter]
    split
    · exact (sorted_cons i w _).2 ⟨fun p hp => h1 p (List.mem_of_mem_filter hp), ih h2⟩
    · exact ih h2

/-- A write keeps a memory's canonical form. -/
theorem mem_wf_set {w : Nat} (m : Mem w) (k : Nat) (v : BitVec w) (h : m.wf = true) : (m.set k v).wf = true := by
  simp only [Mem.wf, Bool.and_eq_true, Bool.or_eq_true, List.all_eq_true] at h ⊢
  obtain ⟨hs, hz⟩ := h
  unfold Mem.set
  split
  · refine ⟨sorted_filter _ _ hs, ?_⟩
    rcases hz with hz | hz
    · exact Or.inl hz
    · exact Or.inr (fun p hp => hz p (List.mem_of_mem_filter hp))
  · rename_i hn
    refine ⟨sorted_set _ _ _ hs, ?_⟩
    rcases hz with hz | hz
    · exact Or.inl hz
    · by_cases hb : m.base = none
      · refine Or.inr (fun p hp => ?_)
        rcases mem_set_keys _ _ _ _ hp with rfl | hp
        · have : ¬ v = 0 := fun e => hn ⟨hb, e⟩
          simpa using this
        · exact hz p hp
      · left; cases hb' : m.base with
        | none => exact absurd hb' hb
        | some n => rfl

theorem mem_wf_zero {w : Nat} : (Mem.zero : Mem w).wf = true := rfl
theorem mem_wf_undef {w : Nat} (n : Nat) : (Mem.undef n : Mem w).wf = true := rfl

/-! ### Byte lists -/

theorem le_length (k v : Nat) : (le k v).length = k := by
  induction k generalizing v with
  | zero => rfl
  | succ k ih => simp [le, ih]

theorem leNat_le (k v : Nat) : leNat (le k v) = v % 2 ^ (8 * k) := by
  induction k generalizing v with
  | zero => simp [le, leNat, Nat.mod_one]
  | succ k ih =>
    rw [le, leNat, ih, BitVec.toNat_ofNat, show 2 ^ (8 * (k + 1)) = 256 * 2 ^ (8 * k) from by rw [show 8 * (k + 1) = 8 + 8 * k by omega, Nat.pow_add],
      Nat.mod_mul]

theorem bytesOf_length {n : Nat} (x : BitVec n) (k : Nat) : (bytesOf x k).length = k := le_length k _

/-- A word written as enough bytes reads back. -/
theorem wordOf_bytesOf {n : Nat} (x : BitVec n) (k : Nat) (h : n ≤ 8 * k) : wordOf n (bytesOf x k) = x := by
  rw [wordOf, bytesOf, leNat_le, Nat.mod_eq_of_lt (Nat.lt_of_lt_of_le x.isLt (Nat.pow_le_pow_right (by decide) h)), BitVec.ofNat_toNat,
    BitVec.setWidth_eq]

end Sys2Proof.Laws
end

