-- ==== Sys2Proof/Laws/Basic.lean ====
section
/-!
SUPPORT. Laws/Basic.lean: what the commands' common frame does: a well-formed command carried out, registers by position and words
settled.
-/

namespace Sys2Proof.Laws

open Sys2Proof Sys2Proof.Machine

theorem runIf_true (s : State) (f : Mod → Mod) : s.runIf true f = .next { s with m := f s.m } := rfl

theorem runIf_wf {ok : Bool} (h : ok = true) (s : State) (f : Mod → Mod) : s.runIf ok f = .next { s with m := f s.m } := by
  simp [State.runIf, h]

/-! ### Registers by position -/

theorem regsAt_cons (n : Nat) (r : CcRegs) (t : List (Nat × CcRegs)) (p : Int) (h : (n : Int) ≤ p) :
    regsAt ((n, r) :: t) p = r := by
  simp [regsAt, h]

theorem regsAt_writeRegs (c : Core) (n : Nat) (f : CcRegs → CcRegs) (p : Int) (h : (n : Int) ≤ p) :
    regsAt (writeRegs c n f).cc.hist p = f (regsAt c.cc.hist n) := by
  simp only [writeRegs]
  exact regsAt_cons _ _ _ _ h

theorem find_trimHist {α : Type} (n : Nat) (p : Int) (hp : (n : Int) - 40 ≤ p) (h : List (Nat × α)) :
    (trimHist n h).find? (fun x => decide ((x.1 : Int) ≤ p)) = h.find? (fun x => decide ((x.1 : Int) ≤ p)) := by
  induction h with
  | nil => rfl
  | cons x t ih =>
    unfold trimHist
    split
    · have : (x.1 : Int) ≤ p := by omega
      simp [this]
    · by_cases hx : (x.1 : Int) ≤ p
      · simp [hx]
      · simp [hx, ih]

theorem find_filter_ne {α : Type} (n : Nat) (p : Int) (hp : p < n) (h : List (Nat × α)) :
    (h.filter (fun x => x.1 != n)).find? (fun x => decide ((x.1 : Int) ≤ p)) = h.find? (fun x => decide ((x.1 : Int) ≤ p)) := by
  induction h with
  | nil => rfl
  | cons x t ih =>
    by_cases hn : x.1 = n
    · have : ¬ ((n : Int) ≤ p) := by omega
      simp [hn, ih, this]
    · by_cases hx : (x.1 : Int) ≤ p
      · simp [hn, hx]
      · simp [hn, hx, ih]

/-- Registers as left by earlier positions, within the forty positions kept, are not changed by a later write. -/
theorem regsAt_writeRegs_earlier (c : Core) (n : Nat) (f : CcRegs → CcRegs) (p : Int) (hp : p < n) (hq : (n : Int) - 40 ≤ p) :
    regsAt (writeRegs c n f).cc.hist p = regsAt c.cc.hist p := by
  have hn : ¬ ((n : Int) ≤ p) := by omega
  simp [writeRegs, regsAt, hn, find_trimHist n p hq, find_filter_ne n p hp]

/-! ### Words settled -/

theorem settleWords_twice (c : Core) (p : Nat) : settleWords (settleWords c p) p = settleWords c p := by
  have h : (c.cc.future.filter (fun f => decide (p < f.pos))).filter (fun f => decide (f.pos ≤ p)) = [] := by
    simp [List.filter_filter]
  simp [settleWords, h]

end Sys2Proof.Laws
end

