-- ==== Sys2Proof/Laws/Links.lean ====
section
/-!
SUPPORT. Laws/Links.lean: the flits of a Decler port: their length and frame check sequence.
-/

namespace Sys2Proof.Laws

open Sys2Proof Sys2Proof.Machine

/-- 252 bytes with their CRC are a flit of 256 whose check sequence is right. -/
theorem framed_good (bs : List Byte) (h : bs.length = 252) :
    (bs ++ bytesOf (crc32 bs) 4).length = 256 ∧
      crc32 ((bs ++ bytesOf (crc32 bs) 4).take 252) = wordOf 32 ((bs ++ bytesOf (crc32 bs) 4).drop 252) := by
  refine ⟨by rw [List.length_append, bytesOf_length, h], ?_⟩
  rw [List.take_left' h, List.drop_left' h, wordOf_bytesOf _ _ (by decide)]

/-- A flit with another check sequence is bad. -/
theorem framed_bad (bs : List Byte) (h : bs.length = 252) (c : W32) (hc : c ≠ crc32 bs) :
    (bs ++ bytesOf c 4).length = 256 ∧ crc32 ((bs ++ bytesOf c 4).take 252) ≠ wordOf 32 ((bs ++ bytesOf c 4).drop 252) := by
  refine ⟨by rw [List.length_append, bytesOf_length, h], ?_⟩
  rw [List.take_left' h, List.drop_left' h, wordOf_bytesOf _ _ (by decide)]
  exact fun e => hc e.symm

theorem mkFlit_framed (ftype seq ack lch : Nat) (som eom abort : Bool) (body : List Byte) (h : body.length ≤ 244) :
    ∃ bs, bs.length = 252 ∧ mkFlit ftype seq ack lch som eom abort body = bs ++ bytesOf (crc32 bs) 4 := by
  refine ⟨_, ?_, rfl⟩
  simp only [List.length_append, le_length, zeros, List.length_replicate]
  omega

/-- A port's own flits pass the check of a neighbour. -/
theorem mkFlit_good (ftype seq ack lch : Nat) (som eom abort : Bool) (body : List Byte) (h : body.length ≤ 244) :
    (mkFlit ftype seq ack lch som eom abort body).length = 256 ∧
      crc32 ((mkFlit ftype seq ack lch som eom abort body).take 252) = wordOf 32 ((mkFlit ftype seq ack lch som eom abort body).drop 252) := by
  obtain ⟨bs, hb, e⟩ := mkFlit_framed ftype seq ack lch som eom abort body h
  rw [e]
  exact framed_good bs hb

theorem replayFlit_good (port : Nat) (f : List Byte) (h : f.length = 256) :
    (replayFlit port f).length = 256 ∧ crc32 ((replayFlit port f).take 252) = wordOf 32 ((replayFlit port f).drop 252) := by
  apply framed_good
  rw [List.length_append, bytesOf_length, List.length_take, List.length_drop, h]
  rfl

end Sys2Proof.Laws
end

