-- ==== Sys2Proof/Laws/Mailbox.lean ====
section
/-!
SUPPORT. Laws/Mailbox.lean: what posting, answering and serving a request do, said once for every mailbox command.
-/

namespace Sys2Proof.Laws

open Sys2Proof Sys2Proof.Machine

/-! ### Tables -/

theorem find_set_same {α : Type} (t : Tab α) (k : Nat) (v : α) : Tab.find (Tab.set t k v) k = some v := by
  rw [find_set]; simp

theorem set_set {α : Type} (t : Tab α) (k : Nat) (v w : α) : Tab.set (Tab.set t k v) k w = Tab.set t k w := by
  induction t with
  | nil => simp [Tab.set]
  | cons p t ih =>
    obtain ⟨j, x⟩ := p
    by_cases h1 : k < j
    · simp [Tab.set, h1]
    · by_cases h2 : k = j
      · subst h2; simp [Tab.set]
      · simp [Tab.set, h1, h2, ih]

@[simp] theorem mailbox_onMailbox (m : Mod) (k : Nat) (f : Mailbox → Mailbox) : (m.onMailbox k f).mailbox k = f (m.mailbox k) := by
  simp [Mod.mailbox, Mod.onMailbox, Tab.get, find_set_same]

theorem mailbox_onMailbox_other (m : Mod) (k j : Nat) (f : Mailbox → Mailbox) (h : j ≠ k) : (m.onMailbox k f).mailbox j = m.mailbox j := by
  simp [Mod.mailbox, Mod.onMailbox, Tab.get, find_set, h]

@[simp] theorem onMailbox_onMailbox (m : Mod) (k : Nat) (f g : Mailbox → Mailbox) :
    (m.onMailbox k f).onMailbox k g = m.onMailbox k (g ∘ f) := by
  simp [Mod.onMailbox, set_set, Mod.mailbox, Tab.get, find_set_same]

/-! ### Posting and answering -/

theorem postRequest_eq (code : Nat) (q : Req) (m : Mod) : postRequest code q m = m.onMailbox q.no (postedBox code q) := rfl

/-- A request posted, and answered once a command has changed the module but for its mailboxes, is the request answered. -/
theorem answerPosted_posted {code : Nat} {q : Req} {status : Nat} {body : List Byte} {m x y : Mod}
    (hx : x = { y with mailboxes := (postRequest code q m).mailboxes }) (hy : y.mailboxes = m.mailboxes) :
    answerPosted q.no status body x = answered code q status body y := by
  have hb : x.mailbox q.no = postedBox code q (y.mailbox q.no) := by
    subst hx
    have : ({ y with mailboxes := (postRequest code q m).mailboxes } : Mod).mailbox q.no = (postRequest code q m).mailbox q.no := rfl
    rw [this, postRequest_eq, mailbox_onMailbox]
    simp [Mod.mailbox, hy]
  have hm : x = y.onMailbox q.no (postedBox code q) := by
    subst hx
    simp [postRequest_eq, Mod.onMailbox, Mod.mailbox, hy]
  unfold answerPosted answered
  rw [hb, hm]
  simp only [onMailbox_onMailbox]
  have : ∀ f g : Mailbox → Mailbox, f = g → ∀ b : Bool, (if b = true then sendMsix q.no (y.onMailbox q.no f) else y.onMailbox q.no f) =
      (if b = true then sendMsix q.no (y.onMailbox q.no g) else y.onMailbox q.no g) := by
    intro f g h b; rw [h]
  exact this _ _ (by funext b; simp [answeredBox, postedBox, Function.comp]) _

/-! ### Serving -/

theorem deaf_eq_false {m : Mod} {q : Req} (h : Takes m q) : m.deaf q.no = false := by
  obtain ⟨h1, h2, h3⟩ := h
  have : ¬ 30 < q.no := by omega
  by_cases hs : m.aon.state = .safeHold
  · simp [Mod.deaf, hs, h3 hs]
  · simp [Mod.deaf, h1, this, hs]

theorem deaf_eq_true {m : Mod} {q : Req} (h : ¬ Takes m q) : m.deaf q.no = true := by
  unfold Takes at h
  by_cases h1 : m.aon.state = .off
  · simp [Mod.deaf, h1]
  · by_cases h2 : 30 < q.no
    · simp [Mod.deaf, h2]
    · by_cases h3 : m.aon.state = .safeHold ∧ q.no ≠ 0
      · simp [Mod.deaf, h3]
      · exact absurd ⟨h1, by omega, fun hs => by by_contra hq; exact h3 ⟨hs, hq⟩⟩ h

theorem serving_eq {m : Mod} : m.serving = true ↔ Serves m := by
  simp [Mod.serving, Serves, and_assoc]

/-- A mailbox command that Tirix serves: its request posted, checked, carried out and answered. -/
theorem mailboxCmd_served {m : Mod} {q : Req} {c : Cmd} (ht : Takes m q) (hs : Serves m) :
    mailboxCmd c q m = serveCmd c q (postRequest c.code q m) := by
  have h : (postRequest c.code q m).serving = true := by
    have : (postRequest c.code q m).serving = m.serving := rfl
    rw [this]; exact serving_eq.2 hs
  simp [mailboxCmd, deaf_eq_false ht, h]

/-- A request whose general checks fail is answered with the status of the first that fails, and nothing else changes (R502). -/
theorem served_fails {m : Mod} {q : Req} {c : Cmd} {status : Nat} (ht : Takes m q) (hs : Serves m) (h0 : status ≠ 0)
    (hc : c.check q (postRequest c.code q m) = status) : mailboxCmd c q m = answered c.code q status [] m := by
  rw [mailboxCmd_served ht hs]
  simp only [serveCmd, hc, h0, ne_eq, not_false_eq_true, if_true]
  exact answerPosted_posted (m := m) rfl rfl

/-- A short command whose general checks pass is carried out on the module with its request posted, and answered. -/
theorem served_short {m y : Mod} {q : Req} {c : Cmd} {status : Nat} {body : List Byte} (ht : Takes m q) (hs : Serves m)
    (hc : c.check q (postRequest c.code q m) = 0)
    (hr : c.run q (postRequest c.code q m) =
      { m := { y with mailboxes := (postRequest c.code q m).mailboxes }, status := status, body := body })
    (hy : y.mailboxes = m.mailboxes) : mailboxCmd c q m = answered c.code q status body y := by
  rw [mailboxCmd_served ht hs]
  simp only [serveCmd, hc, ne_eq, not_true_eq_false, if_false, hr]
  exact answerPosted_posted (m := m) rfl hy

/-- A long-running command whose general checks pass is answered ACCEPTED, with what it goes on doing outstanding (R503). -/
theorem served_long {m y : Mod} {q : Req} {c : Cmd} {k : JobKind} (ht : Takes m q) (hs : Serves m)
    (hc : c.check q (postRequest c.code q m) = 0)
    (hr : c.run q (postRequest c.code q m) = { m := { y with mailboxes := (postRequest c.code q m).mailboxes }, job := some k })
    (hy : y.mailboxes = m.mailboxes) (hsess : y.sessId q.no = m.sessId q.no) :
    mailboxCmd c q m = answered c.code q 1 [] { y with jobs := y.jobs ++ [
      { mb := q.no, session := m.sessId q.no, seq := (m.mailbox q.no).ack + 1, command := BitVec.ofNat 16 c.code, tag := q.tag
        quiet := bit q.flags 0, kind := k }] } := by
  rw [mailboxCmd_served ht hs]
  simp only [serveCmd, hc, ne_eq, not_true_eq_false, if_false, hr]
  refine answerPosted_posted (m := m) ?_ (by simpa using hy)
  have hb : ({ y with mailboxes := (postRequest c.code q m).mailboxes } : Mod).mailbox q.no = postedBox c.code q (m.mailbox q.no) := by
    have : ({ y with mailboxes := (postRequest c.code q m).mailboxes } : Mod).mailbox q.no = (postRequest c.code q m).mailbox q.no := rfl
    rw [this, postRequest_eq, mailbox_onMailbox]
  have hs : ({ y with mailboxes := (postRequest c.code q m).mailboxes } : Mod).sessId q.no = y.sessId q.no := rfl
  simp only [addJob, hb, hs, hsess]
  rfl

/-! ### The general checks -/

/-- The general checks pass when each of Table 14.5 does. -/
theorem check_passes {m : Mod} {q : Req} {c : Cmd} (hk : m.kindOf q.no ∈ c.kinds) (hs : m.aon.state ∈ c.states)
    (hl : c.lengthOk (postRequest c.code q m) q = true) (hr : c.rights (postRequest c.code q m) q = true)
    (hg : c.long (postRequest c.code q m) q = false ∨ m.long q.no = false) : c.check q (postRequest c.code q m) = 0 := by
  have h1 : (postRequest c.code q m).kindOf q.no = m.kindOf q.no := rfl
  have h2 : (postRequest c.code q m).aon = m.aon := rfl
  have h3 : (postRequest c.code q m).long = m.long := rfl
  rcases hg with hg | hg <;> simp [Cmd.check, h1, h2, h3, hk, hs, hl, hr, hg]

/-- The session and state checks of an allowed request, for the command of its row. -/
theorem allowed_row {m : Mod} {i : Instr} {q : Req} {x : CmdRow} (h : Allowed m i q) (hx : mailboxRow i = some (x, q)) :
    m.kindOf q.no ∈ x.kinds ∧ m.aon.state ∈ x.states := by
  obtain ⟨y, hy, h1, h2⟩ := h.row
  rw [hx] at hy
  obtain ⟨rfl, -⟩ := Prod.mk.inj (Option.some.inj hy)
  exact ⟨h1, h2⟩

end Sys2Proof.Laws
end

