-- ==== Sys2Proof/Laws/MailboxRows.lean ====
section
/-!
SUPPORT. Laws/MailboxRows.lean: every mailbox command is one command of its row: its code, callers, states, size and right.
-/

namespace Sys2Proof.Laws

open Sys2Proof Sys2Proof.Machine

/-- A mailbox command is served as the command whose row Table 14.7 gives. -/
theorem mailboxRow_cmd (i : Instr) (s : State) (q : Req) (x : CmdRow) (h : mailboxRow i = some (x, q)) (hw : Instr.wf i = true) :
    ∃ c : Cmd, exec i s = s.runIf (Instr.wf i) (mailboxCmd c q) ∧ c.code = x.code ∧ c.kinds = x.kinds ∧ c.states = x.states ∧
      (∀ n, x.size = some n → ∀ m, q.body.length ≠ (n + 3) / 4 * 4 → c.lengthOk m q = false) ∧
      (∀ r, x.right = some r → ∀ m, m.holds q.no r = false → c.rights m q = false) ∧ (x.long = true → ∀ m, c.long m q = true) := by
  cases i <;> simp only [mailboxRow] at h <;> try contradiction
  case getVersion via => cases via <;> simp only at h <;> try contradiction
                         obtain ⟨rfl, rfl⟩ := Prod.mk.inj (Option.some.inj h)
                         exact ⟨_, rfl, rfl, rfl, rfl, by simp, by simp, by simp⟩
  case getCapabilities via => cases via <;> simp only at h <;> try contradiction
                              obtain ⟨rfl, rfl⟩ := Prod.mk.inj (Option.some.inj h)
                              exact ⟨_, rfl, rfl, rfl, rfl, by simp, by simp, by simp⟩
  case negotiateAlgorithms via => cases via <;> simp only at h <;> try contradiction
                                  obtain ⟨rfl, rfl⟩ := Prod.mk.inj (Option.some.inj h)
                                  exact ⟨_, rfl, rfl, rfl, rfl, by simp, by simp, by simp⟩
  case getDigests via => cases via <;> simp only at h <;> try contradiction
                         obtain ⟨rfl, rfl⟩ := Prod.mk.inj (Option.some.inj h)
                         exact ⟨_, rfl, rfl, rfl, rfl, by simp, by simp, by simp⟩
  case getCertificate via _ _ => cases via <;> simp only at h <;> try contradiction
                                 obtain ⟨rfl, rfl⟩ := Prod.mk.inj (Option.some.inj h)
                                 exact ⟨_, rfl, rfl, rfl, rfl, by simp, by simp, by simp⟩
  case challenge via _ => cases via <;> simp only at h <;> try contradiction
                          obtain ⟨rfl, rfl⟩ := Prod.mk.inj (Option.some.inj h)
                          exact ⟨_, rfl, rfl, rfl, rfl, by simp, by simp, by simp⟩
  case getMeasurements via _ _ _ => cases via <;> simp only at h <;> try contradiction
                                    obtain ⟨rfl, rfl⟩ := Prod.mk.inj (Option.some.inj h)
                                    exact ⟨_, rfl, rfl, rfl, rfl, by simp, by simp, by simp⟩
  case spdmUnsupportedRequest via => cases via <;> simp only at h <;> try contradiction
                                     obtain ⟨rfl, rfl⟩ := Prod.mk.inj (Option.some.inj h)
                                     exact ⟨_, rfl, rfl, rfl, rfl, by simp, by simp, by simp⟩
  all_goals
    obtain ⟨rfl, rfl⟩ := Prod.mk.inj (Option.some.inj h)
    refine ⟨_, rfl, rfl, rfl, rfl, ?_, ?_, ?_⟩
    · simp [Req.size, helloCmd, openSessionCmd, closeSessionCmd, installOwnerCmd, proveNonceCmd, proveProofCmd, snapLength, getDescriptorCmd,
        getTopologyCmd, setPartitionCmd, linkCmd, linkLength, linkDisableCmd, linkEnableCmd, linkChallengeCmd, requireVerifiedCmd, trustAnchorCmd,
        stockAllocCmd, stockFreeCmd, stockMapHostCmd, pinCmd, pinLength, stockFillCmd, stockCmd, wheelSetCmd, programLoadCmd, gangCmd,
        programUnloadCmd, gangPlaceCmd, placeLength, gangReleaseCmd, gangStartCmd, gangStopCmd, gangPreemptCmd, gangResumeCmd, gangStatusCmd,
        clampReadCmd, observeCmd, clampSetWordCmd, clampSetRingCmd, clampSetCmd, countersReadCmd, countersLength, traceConfigCmd, digestReadCmd,
        corePeekCmd, peekLength, stepStageCmd, modeCommitCmd, modeWithdrawCmd, envelopeSetCmd, ceilingSetCmd, telemetryReadCmd, eventAckCmd,
        logReadCmd, fenceCoreCmd, safeHoldClearCmd, eventPolicyCmd, progressMarksCmd, syncIoCmd, bar2WindowCmd, policyCmd, ownerCmd] <;> (try (intros; simp_all))
    · simp [stockAllocCmd, stockFreeCmd, stockMapHostCmd, pinCmd, stockFillCmd, stockCmd, programLoadCmd, gangCmd,
        programUnloadCmd, gangPlaceCmd, gangReleaseCmd, gangStartCmd, gangStopCmd, gangPreemptCmd, gangResumeCmd,
        clampSetWordCmd, clampSetRingCmd, clampSetCmd, traceConfigCmd] <;> (try (intros; simp_all))
    · simp [linkCmd, linkChallengeCmd, pinCmd, stockFillCmd, programLoadCmd, gangPreemptCmd, gangResumeCmd]

/-- A command that answers at once is served with its status and body. -/
theorem short_served {i : Instr} {s : State} {q : Req} {c : Cmd} {x : CmdRow} {status : Nat} {body : List Byte} {y : Mod}
    (ha : Allowed s.m i q) (hx : mailboxRow i = some (x, q)) (he : exec i s = s.runIf (Instr.wf i) (mailboxCmd c q))
    (hc : c.code = x.code) (hk : c.kinds = x.kinds) (hs : c.states = x.states)
    (hl : c.lengthOk (postRequest c.code q s.m) q = true) (hr : c.rights (postRequest c.code q s.m) q = true)
    (hg : c.long (postRequest c.code q s.m) q = false ∨ s.m.long q.no = false)
    (hrun : c.run q (postRequest c.code q s.m) =
      { m := { y with mailboxes := (postRequest c.code q s.m).mailboxes }, status := status, body := body })
    (hy : y.mailboxes = s.m.mailboxes) : Served i s q x.code status body y := by
  obtain ⟨h1, h2⟩ := allowed_row ha hx
  unfold Served
  rw [he, ha.wf, runIf_true, ← hc]
  rw [served_short ha.takes ha.serves (check_passes (hk ▸ h1) (hs ▸ h2) hl hr hg) hrun hy]

end Sys2Proof.Laws
end

