-- ==== Sys2Proof/Laws/State.lean ====
section
/-!
SUPPORT. Laws/State.lean: what each named update of the module leaves as it was, field by field and read by read, and what the
part that it changes reads afterwards.
-/

namespace Sys2Proof.Laws

open Sys2Proof Sys2Proof.Machine

/-! ### Mod.setRegion -/

section
variable (m : Mod) (r : Nat) (x : Region)

@[simp] theorem b0_setRegion : (m.setRegion r x).b0 = m.b0 := rfl
@[simp] theorem freeCtr_setRegion : (m.setRegion r x).freeCtr = m.freeCtr := rfl
@[simp] theorem aon_setRegion : (m.setRegion r x).aon = m.aon := rfl
@[simp] theorem cores_setRegion : (m.setRegion r x).cores = m.cores := rfl
@[simp] theorem mesh_setRegion : (m.setRegion r x).mesh = m.mesh := rfl
@[simp] theorem ports_setRegion : (m.setRegion r x).ports = m.ports := rfl
@[simp] theorem stock_setRegion : (m.setRegion r x).stock = m.stock := rfl
@[simp] theorem desc_setRegion : (m.setRegion r x).desc = m.desc := rfl
@[simp] theorem topo_setRegion : (m.setRegion r x).topo = m.topo := rfl
@[simp] theorem settings_setRegion : (m.setRegion r x).settings = m.settings := rfl
@[simp] theorem mailboxes_setRegion : (m.setRegion r x).mailboxes = m.mailboxes := rfl
@[simp] theorem sessions_setRegion : (m.setRegion r x).sessions = m.sessions := rfl
@[simp] theorem nextSession_setRegion : (m.setRegion r x).nextSession = m.nextSession := rfl
@[simp] theorem jobs_setRegion : (m.setRegion r x).jobs = m.jobs := rfl
@[simp] theorem images_setRegion : (m.setRegion r x).images = m.images := rfl
@[simp] theorem nextImage_setRegion : (m.setRegion r x).nextImage = m.nextImage := rfl
@[simp] theorem placements_setRegion : (m.setRegion r x).placements = m.placements := rfl
@[simp] theorem nextGang_setRegion : (m.setRegion r x).nextGang = m.nextGang := rfl
@[simp] theorem alloc_setRegion : (m.setRegion r x).alloc = m.alloc := rfl
@[simp] theorem events_setRegion : (m.setRegion r x).events = m.events := rfl
@[simp] theorem log_setRegion : (m.setRegion r x).log = m.log := rfl
@[simp] theorem logTotal_setRegion : (m.setRegion r x).logTotal = m.logTotal := rfl
@[simp] theorem ident_setRegion : (m.setRegion r x).ident = m.ident := rfl
@[simp] theorem power_setRegion : (m.setRegion r x).power = m.power := rfl
@[simp] theorem bringup_setRegion : (m.setRegion r x).bringup = m.bringup := rfl
@[simp] theorem host_setRegion : (m.setRegion r x).host = m.host := rfl
@[simp] theorem port_setRegion_same (j : Nat) : (m.setRegion r x).port j = m.port j := rfl
@[simp] theorem mailbox_setRegion_same (j : Nat) : (m.setRegion r x).mailbox j = m.mailbox j := rfl
@[simp] theorem iface_setRegion_same (j : Nat) : (m.setRegion r x).iface j = m.iface j := rfl
@[simp] theorem placement_setRegion_same (j : Nat) : (m.setRegion r x).placement j = m.placement j := rfl
@[simp] theorem placementOf_setRegion_same (j : Nat) : (m.setRegion r x).placementOf j = m.placementOf j := rfl
@[simp] theorem image_setRegion_same (j : Nat) : (m.setRegion r x).image j = m.image j := rfl
@[simp] theorem emerg_setRegion_same (j : Nat) : (m.setRegion r x).emerg j = m.emerg j := rfl
@[simp] theorem sessionOn_setRegion_same (j : Nat) : (m.setRegion r x).sessionOn j = m.sessionOn j := rfl

end

/-! ### Mod.onRegion -/

section
variable (m : Mod) (r : Nat) (f : Region → Region)

@[simp] theorem b0_onRegion : (m.onRegion r f).b0 = m.b0 := rfl
@[simp] theorem freeCtr_onRegion : (m.onRegion r f).freeCtr = m.freeCtr := rfl
@[simp] theorem aon_onRegion : (m.onRegion r f).aon = m.aon := rfl
@[simp] theorem cores_onRegion : (m.onRegion r f).cores = m.cores := rfl
@[simp] theorem mesh_onRegion : (m.onRegion r f).mesh = m.mesh := rfl
@[simp] theorem ports_onRegion : (m.onRegion r f).ports = m.ports := rfl
@[simp] theorem stock_onRegion : (m.onRegion r f).stock = m.stock := rfl
@[simp] theorem desc_onRegion : (m.onRegion r f).desc = m.desc := rfl
@[simp] theorem topo_onRegion : (m.onRegion r f).topo = m.topo := rfl
@[simp] theorem settings_onRegion : (m.onRegion r f).settings = m.settings := rfl
@[simp] theorem mailboxes_onRegion : (m.onRegion r f).mailboxes = m.mailboxes := rfl
@[simp] theorem sessions_onRegion : (m.onRegion r f).sessions = m.sessions := rfl
@[simp] theorem nextSession_onRegion : (m.onRegion r f).nextSession = m.nextSession := rfl
@[simp] theorem jobs_onRegion : (m.onRegion r f).jobs = m.jobs := rfl
@[simp] theorem images_onRegion : (m.onRegion r f).images = m.images := rfl
@[simp] theorem nextImage_onRegion : (m.onRegion r f).nextImage = m.nextImage := rfl
@[simp] theorem placements_onRegion : (m.onRegion r f).placements = m.placements := rfl
@[simp] theorem nextGang_onRegion : (m.onRegion r f).nextGang = m.nextGang := rfl
@[simp] theorem alloc_onRegion : (m.onRegion r f).alloc = m.alloc := rfl
@[simp] theorem events_onRegion : (m.onRegion r f).events = m.events := rfl
@[simp] theorem log_onRegion : (m.onRegion r f).log = m.log := rfl
@[simp] theorem logTotal_onRegion : (m.onRegion r f).logTotal = m.logTotal := rfl
@[simp] theorem ident_onRegion : (m.onRegion r f).ident = m.ident := rfl
@[simp] theorem power_onRegion : (m.onRegion r f).power = m.power := rfl
@[simp] theorem bringup_onRegion : (m.onRegion r f).bringup = m.bringup := rfl
@[simp] theorem host_onRegion : (m.onRegion r f).host = m.host := rfl
@[simp] theorem port_onRegion_same (j : Nat) : (m.onRegion r f).port j = m.port j := rfl
@[simp] theorem mailbox_onRegion_same (j : Nat) : (m.onRegion r f).mailbox j = m.mailbox j := rfl
@[simp] theorem iface_onRegion_same (j : Nat) : (m.onRegion r f).iface j = m.iface j := rfl
@[simp] theorem placement_onRegion_same (j : Nat) : (m.onRegion r f).placement j = m.placement j := rfl
@[simp] theorem placementOf_onRegion_same (j : Nat) : (m.onRegion r f).placementOf j = m.placementOf j := rfl
@[simp] theorem image_onRegion_same (j : Nat) : (m.onRegion r f).image j = m.image j := rfl
@[simp] theorem emerg_onRegion_same (j : Nat) : (m.onRegion r f).emerg j = m.emerg j := rfl
@[simp] theorem sessionOn_onRegion_same (j : Nat) : (m.onRegion r f).sessionOn j = m.sessionOn j := rfl

end

/-! ### Mod.setCore -/

section
variable (m : Mod) (k : Nat) (c : Core)

@[simp] theorem b0_setCore : (m.setCore k c).b0 = m.b0 := rfl
@[simp] theorem freeCtr_setCore : (m.setCore k c).freeCtr = m.freeCtr := rfl
@[simp] theorem aon_setCore : (m.setCore k c).aon = m.aon := rfl
@[simp] theorem regions_setCore : (m.setCore k c).regions = m.regions := rfl
@[simp] theorem mesh_setCore : (m.setCore k c).mesh = m.mesh := rfl
@[simp] theorem ports_setCore : (m.setCore k c).ports = m.ports := rfl
@[simp] theorem stock_setCore : (m.setCore k c).stock = m.stock := rfl
@[simp] theorem desc_setCore : (m.setCore k c).desc = m.desc := rfl
@[simp] theorem topo_setCore : (m.setCore k c).topo = m.topo := rfl
@[simp] theorem settings_setCore : (m.setCore k c).settings = m.settings := rfl
@[simp] theorem mailboxes_setCore : (m.setCore k c).mailboxes = m.mailboxes := rfl
@[simp] theorem sessions_setCore : (m.setCore k c).sessions = m.sessions := rfl
@[simp] theorem nextSession_setCore : (m.setCore k c).nextSession = m.nextSession := rfl
@[simp] theorem jobs_setCore : (m.setCore k c).jobs = m.jobs := rfl
@[simp] theorem images_setCore : (m.setCore k c).images = m.images := rfl
@[simp] theorem nextImage_setCore : (m.setCore k c).nextImage = m.nextImage := rfl
@[simp] theorem placements_setCore : (m.setCore k c).placements = m.placements := rfl
@[simp] theorem nextGang_setCore : (m.setCore k c).nextGang = m.nextGang := rfl
@[simp] theorem alloc_setCore : (m.setCore k c).alloc = m.alloc := rfl
@[simp] theorem events_setCore : (m.setCore k c).events = m.events := rfl
@[simp] theorem log_setCore : (m.setCore k c).log = m.log := rfl
@[simp] theorem logTotal_setCore : (m.setCore k c).logTotal = m.logTotal := rfl
@[simp] theorem ident_setCore : (m.setCore k c).ident = m.ident := rfl
@[simp] theorem power_setCore : (m.setCore k c).power = m.power := rfl
@[simp] theorem bringup_setCore : (m.setCore k c).bringup = m.bringup := rfl
@[simp] theorem host_setCore : (m.setCore k c).host = m.host := rfl
@[simp] theorem region_setCore_same (j : Nat) : (m.setCore k c).region j = m.region j := rfl
@[simp] theorem port_setCore_same (j : Nat) : (m.setCore k c).port j = m.port j := rfl
@[simp] theorem mailbox_setCore_same (j : Nat) : (m.setCore k c).mailbox j = m.mailbox j := rfl
@[simp] theorem iface_setCore_same (j : Nat) : (m.setCore k c).iface j = m.iface j := rfl
@[simp] theorem placement_setCore_same (j : Nat) : (m.setCore k c).placement j = m.placement j := rfl
@[simp] theorem placementOf_setCore_same (j : Nat) : (m.setCore k c).placementOf j = m.placementOf j := rfl
@[simp] theorem image_setCore_same (j : Nat) : (m.setCore k c).image j = m.image j := rfl
@[simp] theorem emerg_setCore_same (j : Nat) : (m.setCore k c).emerg j = m.emerg j := rfl
@[simp] theorem sessionOn_setCore_same (j : Nat) : (m.setCore k c).sessionOn j = m.sessionOn j := rfl

end

/-! ### Mod.onCore -/

section
variable (m : Mod) (k : Nat) (f : Core → Core)

@[simp] theorem b0_onCore : (m.onCore k f).b0 = m.b0 := rfl
@[simp] theorem freeCtr_onCore : (m.onCore k f).freeCtr = m.freeCtr := rfl
@[simp] theorem aon_onCore : (m.onCore k f).aon = m.aon := rfl
@[simp] theorem regions_onCore : (m.onCore k f).regions = m.regions := rfl
@[simp] theorem mesh_onCore : (m.onCore k f).mesh = m.mesh := rfl
@[simp] theorem ports_onCore : (m.onCore k f).ports = m.ports := rfl
@[simp] theorem stock_onCore : (m.onCore k f).stock = m.stock := rfl
@[simp] theorem desc_onCore : (m.onCore k f).desc = m.desc := rfl
@[simp] theorem topo_onCore : (m.onCore k f).topo = m.topo := rfl
@[simp] theorem settings_onCore : (m.onCore k f).settings = m.settings := rfl
@[simp] theorem mailboxes_onCore : (m.onCore k f).mailboxes = m.mailboxes := rfl
@[simp] theorem sessions_onCore : (m.onCore k f).sessions = m.sessions := rfl
@[simp] theorem nextSession_onCore : (m.onCore k f).nextSession = m.nextSession := rfl
@[simp] theorem jobs_onCore : (m.onCore k f).jobs = m.jobs := rfl
@[simp] theorem images_onCore : (m.onCore k f).images = m.images := rfl
@[simp] theorem nextImage_onCore : (m.onCore k f).nextImage = m.nextImage := rfl
@[simp] theorem placements_onCore : (m.onCore k f).placements = m.placements := rfl
@[simp] theorem nextGang_onCore : (m.onCore k f).nextGang = m.nextGang := rfl
@[simp] theorem alloc_onCore : (m.onCore k f).alloc = m.alloc := rfl
@[simp] theorem events_onCore : (m.onCore k f).events = m.events := rfl
@[simp] theorem log_onCore : (m.onCore k f).log = m.log := rfl
@[simp] theorem logTotal_onCore : (m.onCore k f).logTotal = m.logTotal := rfl
@[simp] theorem ident_onCore : (m.onCore k f).ident = m.ident := rfl
@[simp] theorem power_onCore : (m.onCore k f).power = m.power := rfl
@[simp] theorem bringup_onCore : (m.onCore k f).bringup = m.bringup := rfl
@[simp] theorem host_onCore : (m.onCore k f).host = m.host := rfl
@[simp] theorem region_onCore_same (j : Nat) : (m.onCore k f).region j = m.region j := rfl
@[simp] theorem port_onCore_same (j : Nat) : (m.onCore k f).port j = m.port j := rfl
@[simp] theorem mailbox_onCore_same (j : Nat) : (m.onCore k f).mailbox j = m.mailbox j := rfl
@[simp] theorem iface_onCore_same (j : Nat) : (m.onCore k f).iface j = m.iface j := rfl
@[simp] theorem placement_onCore_same (j : Nat) : (m.onCore k f).placement j = m.placement j := rfl
@[simp] theorem placementOf_onCore_same (j : Nat) : (m.onCore k f).placementOf j = m.placementOf j := rfl
@[simp] theorem image_onCore_same (j : Nat) : (m.onCore k f).image j = m.image j := rfl
@[simp] theorem emerg_onCore_same (j : Nat) : (m.onCore k f).emerg j = m.emerg j := rfl
@[simp] theorem sessionOn_onCore_same (j : Nat) : (m.onCore k f).sessionOn j = m.sessionOn j := rfl

end

/-! ### Mod.onPort -/

section
variable (m : Mod) (p : Nat) (f : Port → Port)

@[simp] theorem b0_onPort : (m.onPort p f).b0 = m.b0 := rfl
@[simp] theorem freeCtr_onPort : (m.onPort p f).freeCtr = m.freeCtr := rfl
@[simp] theorem aon_onPort : (m.onPort p f).aon = m.aon := rfl
@[simp] theorem regions_onPort : (m.onPort p f).regions = m.regions := rfl
@[simp] theorem cores_onPort : (m.onPort p f).cores = m.cores := rfl
@[simp] theorem mesh_onPort : (m.onPort p f).mesh = m.mesh := rfl
@[simp] theorem stock_onPort : (m.onPort p f).stock = m.stock := rfl
@[simp] theorem desc_onPort : (m.onPort p f).desc = m.desc := rfl
@[simp] theorem topo_onPort : (m.onPort p f).topo = m.topo := rfl
@[simp] theorem settings_onPort : (m.onPort p f).settings = m.settings := rfl
@[simp] theorem mailboxes_onPort : (m.onPort p f).mailboxes = m.mailboxes := rfl
@[simp] theorem sessions_onPort : (m.onPort p f).sessions = m.sessions := rfl
@[simp] theorem nextSession_onPort : (m.onPort p f).nextSession = m.nextSession := rfl
@[simp] theorem jobs_onPort : (m.onPort p f).jobs = m.jobs := rfl
@[simp] theorem images_onPort : (m.onPort p f).images = m.images := rfl
@[simp] theorem nextImage_onPort : (m.onPort p f).nextImage = m.nextImage := rfl
@[simp] theorem placements_onPort : (m.onPort p f).placements = m.placements := rfl
@[simp] theorem nextGang_onPort : (m.onPort p f).nextGang = m.nextGang := rfl
@[simp] theorem alloc_onPort : (m.onPort p f).alloc = m.alloc := rfl
@[simp] theorem events_onPort : (m.onPort p f).events = m.events := rfl
@[simp] theorem log_onPort : (m.onPort p f).log = m.log := rfl
@[simp] theorem logTotal_onPort : (m.onPort p f).logTotal = m.logTotal := rfl
@[simp] theorem ident_onPort : (m.onPort p f).ident = m.ident := rfl
@[simp] theorem power_onPort : (m.onPort p f).power = m.power := rfl
@[simp] theorem bringup_onPort : (m.onPort p f).bringup = m.bringup := rfl
@[simp] theorem host_onPort : (m.onPort p f).host = m.host := rfl
@[simp] theorem region_onPort_same (j : Nat) : (m.onPort p f).region j = m.region j := rfl
@[simp] theorem mailbox_onPort_same (j : Nat) : (m.onPort p f).mailbox j = m.mailbox j := rfl
@[simp] theorem iface_onPort_same (j : Nat) : (m.onPort p f).iface j = m.iface j := rfl
@[simp] theorem placement_onPort_same (j : Nat) : (m.onPort p f).placement j = m.placement j := rfl
@[simp] theorem placementOf_onPort_same (j : Nat) : (m.onPort p f).placementOf j = m.placementOf j := rfl
@[simp] theorem image_onPort_same (j : Nat) : (m.onPort p f).image j = m.image j := rfl
@[simp] theorem emerg_onPort_same (j : Nat) : (m.onPort p f).emerg j = m.emerg j := rfl
@[simp] theorem sessionOn_onPort_same (j : Nat) : (m.onPort p f).sessionOn j = m.sessionOn j := rfl

end

/-! ### Mod.onMailbox -/

section
variable (m : Mod) (b : Nat) (f : Mailbox → Mailbox)

@[simp] theorem b0_onMailbox : (m.onMailbox b f).b0 = m.b0 := rfl
@[simp] theorem freeCtr_onMailbox : (m.onMailbox b f).freeCtr = m.freeCtr := rfl
@[simp] theorem aon_onMailbox : (m.onMailbox b f).aon = m.aon := rfl
@[simp] theorem regions_onMailbox : (m.onMailbox b f).regions = m.regions := rfl
@[simp] theorem cores_onMailbox : (m.onMailbox b f).cores = m.cores := rfl
@[simp] theorem mesh_onMailbox : (m.onMailbox b f).mesh = m.mesh := rfl
@[simp] theorem ports_onMailbox : (m.onMailbox b f).ports = m.ports := rfl
@[simp] theorem stock_onMailbox : (m.onMailbox b f).stock = m.stock := rfl
@[simp] theorem desc_onMailbox : (m.onMailbox b f).desc = m.desc := rfl
@[simp] theorem topo_onMailbox : (m.onMailbox b f).topo = m.topo := rfl
@[simp] theorem settings_onMailbox : (m.onMailbox b f).settings = m.settings := rfl
@[simp] theorem sessions_onMailbox : (m.onMailbox b f).sessions = m.sessions := rfl
@[simp] theorem nextSession_onMailbox : (m.onMailbox b f).nextSession = m.nextSession := rfl
@[simp] theorem jobs_onMailbox : (m.onMailbox b f).jobs = m.jobs := rfl
@[simp] theorem images_onMailbox : (m.onMailbox b f).images = m.images := rfl
@[simp] theorem nextImage_onMailbox : (m.onMailbox b f).nextImage = m.nextImage := rfl
@[simp] theorem placements_onMailbox : (m.onMailbox b f).placements = m.placements := rfl
@[simp] theorem nextGang_onMailbox : (m.onMailbox b f).nextGang = m.nextGang := rfl
@[simp] theorem alloc_onMailbox : (m.onMailbox b f).alloc = m.alloc := rfl
@[simp] theorem events_onMailbox : (m.onMailbox b f).events = m.events := rfl
@[simp] theorem log_onMailbox : (m.onMailbox b f).log = m.log := rfl
@[simp] theorem logTotal_onMailbox : (m.onMailbox b f).logTotal = m.logTotal := rfl
@[simp] theorem ident_onMailbox : (m.onMailbox b f).ident = m.ident := rfl
@[simp] theorem power_onMailbox : (m.onMailbox b f).power = m.power := rfl
@[simp] theorem bringup_onMailbox : (m.onMailbox b f).bringup = m.bringup := rfl
@[simp] theorem host_onMailbox : (m.onMailbox b f).host = m.host := rfl
@[simp] theorem region_onMailbox_same (j : Nat) : (m.onMailbox b f).region j = m.region j := rfl
@[simp] theorem port_onMailbox_same (j : Nat) : (m.onMailbox b f).port j = m.port j := rfl
@[simp] theorem iface_onMailbox_same (j : Nat) : (m.onMailbox b f).iface j = m.iface j := rfl
@[simp] theorem placement_onMailbox_same (j : Nat) : (m.onMailbox b f).placement j = m.placement j := rfl
@[simp] theorem placementOf_onMailbox_same (j : Nat) : (m.onMailbox b f).placementOf j = m.placementOf j := rfl
@[simp] theorem image_onMailbox_same (j : Nat) : (m.onMailbox b f).image j = m.image j := rfl
@[simp] theorem emerg_onMailbox_same (j : Nat) : (m.onMailbox b f).emerg j = m.emerg j := rfl
@[simp] theorem sessionOn_onMailbox_same (j : Nat) : (m.onMailbox b f).sessionOn j = m.sessionOn j := rfl

end

/-! ### Mod.onIface -/

section
variable (m : Mod) (i : Nat) (f : Iface → Iface)

@[simp] theorem b0_onIface : (m.onIface i f).b0 = m.b0 := rfl
@[simp] theorem freeCtr_onIface : (m.onIface i f).freeCtr = m.freeCtr := rfl
@[simp] theorem aon_onIface : (m.onIface i f).aon = m.aon := rfl
@[simp] theorem regions_onIface : (m.onIface i f).regions = m.regions := rfl
@[simp] theorem cores_onIface : (m.onIface i f).cores = m.cores := rfl
@[simp] theorem mesh_onIface : (m.onIface i f).mesh = m.mesh := rfl
@[simp] theorem ports_onIface : (m.onIface i f).ports = m.ports := rfl
@[simp] theorem desc_onIface : (m.onIface i f).desc = m.desc := rfl
@[simp] theorem topo_onIface : (m.onIface i f).topo = m.topo := rfl
@[simp] theorem settings_onIface : (m.onIface i f).settings = m.settings := rfl
@[simp] theorem mailboxes_onIface : (m.onIface i f).mailboxes = m.mailboxes := rfl
@[simp] theorem sessions_onIface : (m.onIface i f).sessions = m.sessions := rfl
@[simp] theorem nextSession_onIface : (m.onIface i f).nextSession = m.nextSession := rfl
@[simp] theorem jobs_onIface : (m.onIface i f).jobs = m.jobs := rfl
@[simp] theorem images_onIface : (m.onIface i f).images = m.images := rfl
@[simp] theorem nextImage_onIface : (m.onIface i f).nextImage = m.nextImage := rfl
@[simp] theorem placements_onIface : (m.onIface i f).placements = m.placements := rfl
@[simp] theorem nextGang_onIface : (m.onIface i f).nextGang = m.nextGang := rfl
@[simp] theorem alloc_onIface : (m.onIface i f).alloc = m.alloc := rfl
@[simp] theorem events_onIface : (m.onIface i f).events = m.events := rfl
@[simp] theorem log_onIface : (m.onIface i f).log = m.log := rfl
@[simp] theorem logTotal_onIface : (m.onIface i f).logTotal = m.logTotal := rfl
@[simp] theorem ident_onIface : (m.onIface i f).ident = m.ident := rfl
@[simp] theorem power_onIface : (m.onIface i f).power = m.power := rfl
@[simp] theorem bringup_onIface : (m.onIface i f).bringup = m.bringup := rfl
@[simp] theorem host_onIface : (m.onIface i f).host = m.host := rfl
@[simp] theorem region_onIface_same (j : Nat) : (m.onIface i f).region j = m.region j := rfl
@[simp] theorem port_onIface_same (j : Nat) : (m.onIface i f).port j = m.port j := rfl
@[simp] theorem mailbox_onIface_same (j : Nat) : (m.onIface i f).mailbox j = m.mailbox j := rfl
@[simp] theorem placement_onIface_same (j : Nat) : (m.onIface i f).placement j = m.placement j := rfl
@[simp] theorem placementOf_onIface_same (j : Nat) : (m.onIface i f).placementOf j = m.placementOf j := rfl
@[simp] theorem image_onIface_same (j : Nat) : (m.onIface i f).image j = m.image j := rfl
@[simp] theorem emerg_onIface_same (j : Nat) : (m.onIface i f).emerg j = m.emerg j := rfl
@[simp] theorem sessionOn_onIface_same (j : Nat) : (m.onIface i f).sessionOn j = m.sessionOn j := rfl

end

/-! ### Mod.setPlacement -/

section
variable (m : Mod) (p : Placement)

@[simp] theorem b0_setPlacement : (m.setPlacement p).b0 = m.b0 := rfl
@[simp] theorem freeCtr_setPlacement : (m.setPlacement p).freeCtr = m.freeCtr := rfl
@[simp] theorem aon_setPlacement : (m.setPlacement p).aon = m.aon := rfl
@[simp] theorem regions_setPlacement : (m.setPlacement p).regions = m.regions := rfl
@[simp] theorem cores_setPlacement : (m.setPlacement p).cores = m.cores := rfl
@[simp] theorem mesh_setPlacement : (m.setPlacement p).mesh = m.mesh := rfl
@[simp] theorem ports_setPlacement : (m.setPlacement p).ports = m.ports := rfl
@[simp] theorem stock_setPlacement : (m.setPlacement p).stock = m.stock := rfl
@[simp] theorem desc_setPlacement : (m.setPlacement p).desc = m.desc := rfl
@[simp] theorem topo_setPlacement : (m.setPlacement p).topo = m.topo := rfl
@[simp] theorem settings_setPlacement : (m.setPlacement p).settings = m.settings := rfl
@[simp] theorem mailboxes_setPlacement : (m.setPlacement p).mailboxes = m.mailboxes := rfl
@[simp] theorem sessions_setPlacement : (m.setPlacement p).sessions = m.sessions := rfl
@[simp] theorem nextSession_setPlacement : (m.setPlacement p).nextSession = m.nextSession := rfl
@[simp] theorem jobs_setPlacement : (m.setPlacement p).jobs = m.jobs := rfl
@[simp] theorem images_setPlacement : (m.setPlacement p).images = m.images := rfl
@[simp] theorem nextImage_setPlacement : (m.setPlacement p).nextImage = m.nextImage := rfl
@[simp] theorem nextGang_setPlacement : (m.setPlacement p).nextGang = m.nextGang := rfl
@[simp] theorem alloc_setPlacement : (m.setPlacement p).alloc = m.alloc := rfl
@[simp] theorem events_setPlacement : (m.setPlacement p).events = m.events := rfl
@[simp] theorem log_setPlacement : (m.setPlacement p).log = m.log := rfl
@[simp] theorem logTotal_setPlacement : (m.setPlacement p).logTotal = m.logTotal := rfl
@[simp] theorem ident_setPlacement : (m.setPlacement p).ident = m.ident := rfl
@[simp] theorem power_setPlacement : (m.setPlacement p).power = m.power := rfl
@[simp] theorem bringup_setPlacement : (m.setPlacement p).bringup = m.bringup := rfl
@[simp] theorem host_setPlacement : (m.setPlacement p).host = m.host := rfl
@[simp] theorem region_setPlacement_same (j : Nat) : (m.setPlacement p).region j = m.region j := rfl
@[simp] theorem port_setPlacement_same (j : Nat) : (m.setPlacement p).port j = m.port j := rfl
@[simp] theorem mailbox_setPlacement_same (j : Nat) : (m.setPlacement p).mailbox j = m.mailbox j := rfl
@[simp] theorem iface_setPlacement_same (j : Nat) : (m.setPlacement p).iface j = m.iface j := rfl
@[simp] theorem image_setPlacement_same (j : Nat) : (m.setPlacement p).image j = m.image j := rfl
@[simp] theorem emerg_setPlacement_same (j : Nat) : (m.setPlacement p).emerg j = m.emerg j := rfl
@[simp] theorem sessionOn_setPlacement_same (j : Nat) : (m.setPlacement p).sessionOn j = m.sessionOn j := rfl

end

/-! ### Mod.onGang -/

section
variable (m : Mod) (g : Nat) (f : Gang → Gang)

@[simp] theorem b0_onGang : (m.onGang g f).b0 = m.b0 := rfl
@[simp] theorem freeCtr_onGang : (m.onGang g f).freeCtr = m.freeCtr := rfl
@[simp] theorem aon_onGang : (m.onGang g f).aon = m.aon := rfl
@[simp] theorem regions_onGang : (m.onGang g f).regions = m.regions := rfl
@[simp] theorem cores_onGang : (m.onGang g f).cores = m.cores := rfl
@[simp] theorem mesh_onGang : (m.onGang g f).mesh = m.mesh := rfl
@[simp] theorem ports_onGang : (m.onGang g f).ports = m.ports := rfl
@[simp] theorem stock_onGang : (m.onGang g f).stock = m.stock := rfl
@[simp] theorem desc_onGang : (m.onGang g f).desc = m.desc := rfl
@[simp] theorem topo_onGang : (m.onGang g f).topo = m.topo := rfl
@[simp] theorem settings_onGang : (m.onGang g f).settings = m.settings := rfl
@[simp] theorem mailboxes_onGang : (m.onGang g f).mailboxes = m.mailboxes := rfl
@[simp] theorem sessions_onGang : (m.onGang g f).sessions = m.sessions := rfl
@[simp] theorem nextSession_onGang : (m.onGang g f).nextSession = m.nextSession := rfl
@[simp] theorem jobs_onGang : (m.onGang g f).jobs = m.jobs := rfl
@[simp] theorem images_onGang : (m.onGang g f).images = m.images := rfl
@[simp] theorem nextImage_onGang : (m.onGang g f).nextImage = m.nextImage := rfl
@[simp] theorem nextGang_onGang : (m.onGang g f).nextGang = m.nextGang := rfl
@[simp] theorem alloc_onGang : (m.onGang g f).alloc = m.alloc := rfl
@[simp] theorem events_onGang : (m.onGang g f).events = m.events := rfl
@[simp] theorem log_onGang : (m.onGang g f).log = m.log := rfl
@[simp] theorem logTotal_onGang : (m.onGang g f).logTotal = m.logTotal := rfl
@[simp] theorem ident_onGang : (m.onGang g f).ident = m.ident := rfl
@[simp] theorem power_onGang : (m.onGang g f).power = m.power := rfl
@[simp] theorem bringup_onGang : (m.onGang g f).bringup = m.bringup := rfl
@[simp] theorem host_onGang : (m.onGang g f).host = m.host := rfl
@[simp] theorem region_onGang_same (j : Nat) : (m.onGang g f).region j = m.region j := rfl
@[simp] theorem port_onGang_same (j : Nat) : (m.onGang g f).port j = m.port j := rfl
@[simp] theorem mailbox_onGang_same (j : Nat) : (m.onGang g f).mailbox j = m.mailbox j := rfl
@[simp] theorem iface_onGang_same (j : Nat) : (m.onGang g f).iface j = m.iface j := rfl
@[simp] theorem image_onGang_same (j : Nat) : (m.onGang g f).image j = m.image j := rfl
@[simp] theorem emerg_onGang_same (j : Nat) : (m.onGang g f).emerg j = m.emerg j := rfl
@[simp] theorem sessionOn_onGang_same (j : Nat) : (m.onGang g f).sessionOn j = m.sessionOn j := rfl

end

/-! ### Mod.onPins -/

section
variable (m : Mod) (f : Pins → Pins)

@[simp] theorem b0_onPins : (m.onPins f).b0 = m.b0 := rfl
@[simp] theorem freeCtr_onPins : (m.onPins f).freeCtr = m.freeCtr := rfl
@[simp] theorem regions_onPins : (m.onPins f).regions = m.regions := rfl
@[simp] theorem cores_onPins : (m.onPins f).cores = m.cores := rfl
@[simp] theorem mesh_onPins : (m.onPins f).mesh = m.mesh := rfl
@[simp] theorem ports_onPins : (m.onPins f).ports = m.ports := rfl
@[simp] theorem stock_onPins : (m.onPins f).stock = m.stock := rfl
@[simp] theorem desc_onPins : (m.onPins f).desc = m.desc := rfl
@[simp] theorem topo_onPins : (m.onPins f).topo = m.topo := rfl
@[simp] theorem settings_onPins : (m.onPins f).settings = m.settings := rfl
@[simp] theorem mailboxes_onPins : (m.onPins f).mailboxes = m.mailboxes := rfl
@[simp] theorem sessions_onPins : (m.onPins f).sessions = m.sessions := rfl
@[simp] theorem nextSession_onPins : (m.onPins f).nextSession = m.nextSession := rfl
@[simp] theorem jobs_onPins : (m.onPins f).jobs = m.jobs := rfl
@[simp] theorem images_onPins : (m.onPins f).images = m.images := rfl
@[simp] theorem nextImage_onPins : (m.onPins f).nextImage = m.nextImage := rfl
@[simp] theorem placements_onPins : (m.onPins f).placements = m.placements := rfl
@[simp] theorem nextGang_onPins : (m.onPins f).nextGang = m.nextGang := rfl
@[simp] theorem alloc_onPins : (m.onPins f).alloc = m.alloc := rfl
@[simp] theorem events_onPins : (m.onPins f).events = m.events := rfl
@[simp] theorem log_onPins : (m.onPins f).log = m.log := rfl
@[simp] theorem logTotal_onPins : (m.onPins f).logTotal = m.logTotal := rfl
@[simp] theorem ident_onPins : (m.onPins f).ident = m.ident := rfl
@[simp] theorem power_onPins : (m.onPins f).power = m.power := rfl
@[simp] theorem bringup_onPins : (m.onPins f).bringup = m.bringup := rfl
@[simp] theorem host_onPins : (m.onPins f).host = m.host := rfl
@[simp] theorem region_onPins_same (j : Nat) : (m.onPins f).region j = m.region j := rfl
@[simp] theorem port_onPins_same (j : Nat) : (m.onPins f).port j = m.port j := rfl
@[simp] theorem mailbox_onPins_same (j : Nat) : (m.onPins f).mailbox j = m.mailbox j := rfl
@[simp] theorem iface_onPins_same (j : Nat) : (m.onPins f).iface j = m.iface j := rfl
@[simp] theorem placement_onPins_same (j : Nat) : (m.onPins f).placement j = m.placement j := rfl
@[simp] theorem placementOf_onPins_same (j : Nat) : (m.onPins f).placementOf j = m.placementOf j := rfl
@[simp] theorem image_onPins_same (j : Nat) : (m.onPins f).image j = m.image j := rfl
@[simp] theorem emerg_onPins_same (j : Nat) : (m.onPins f).emerg j = m.emerg j := rfl
@[simp] theorem sessionOn_onPins_same (j : Nat) : (m.onPins f).sessionOn j = m.sessionOn j := rfl

end

/-! ### Mod.onEmerg -/

section
variable (m : Mod) (r : Nat) (f : Emerg → Emerg)

@[simp] theorem b0_onEmerg : (m.onEmerg r f).b0 = m.b0 := rfl
@[simp] theorem freeCtr_onEmerg : (m.onEmerg r f).freeCtr = m.freeCtr := rfl
@[simp] theorem aon_onEmerg : (m.onEmerg r f).aon = m.aon := rfl
@[simp] theorem regions_onEmerg : (m.onEmerg r f).regions = m.regions := rfl
@[simp] theorem cores_onEmerg : (m.onEmerg r f).cores = m.cores := rfl
@[simp] theorem mesh_onEmerg : (m.onEmerg r f).mesh = m.mesh := rfl
@[simp] theorem ports_onEmerg : (m.onEmerg r f).ports = m.ports := rfl
@[simp] theorem stock_onEmerg : (m.onEmerg r f).stock = m.stock := rfl
@[simp] theorem desc_onEmerg : (m.onEmerg r f).desc = m.desc := rfl
@[simp] theorem topo_onEmerg : (m.onEmerg r f).topo = m.topo := rfl
@[simp] theorem settings_onEmerg : (m.onEmerg r f).settings = m.settings := rfl
@[simp] theorem mailboxes_onEmerg : (m.onEmerg r f).mailboxes = m.mailboxes := rfl
@[simp] theorem sessions_onEmerg : (m.onEmerg r f).sessions = m.sessions := rfl
@[simp] theorem nextSession_onEmerg : (m.onEmerg r f).nextSession = m.nextSession := rfl
@[simp] theorem jobs_onEmerg : (m.onEmerg r f).jobs = m.jobs := rfl
@[simp] theorem images_onEmerg : (m.onEmerg r f).images = m.images := rfl
@[simp] theorem nextImage_onEmerg : (m.onEmerg r f).nextImage = m.nextImage := rfl
@[simp] theorem placements_onEmerg : (m.onEmerg r f).placements = m.placements := rfl
@[simp] theorem nextGang_onEmerg : (m.onEmerg r f).nextGang = m.nextGang := rfl
@[simp] theorem alloc_onEmerg : (m.onEmerg r f).alloc = m.alloc := rfl
@[simp] theorem events_onEmerg : (m.onEmerg r f).events = m.events := rfl
@[simp] theorem log_onEmerg : (m.onEmerg r f).log = m.log := rfl
@[simp] theorem logTotal_onEmerg : (m.onEmerg r f).logTotal = m.logTotal := rfl
@[simp] theorem ident_onEmerg : (m.onEmerg r f).ident = m.ident := rfl
@[simp] theorem bringup_onEmerg : (m.onEmerg r f).bringup = m.bringup := rfl
@[simp] theorem host_onEmerg : (m.onEmerg r f).host = m.host := rfl
@[simp] theorem region_onEmerg_same (j : Nat) : (m.onEmerg r f).region j = m.region j := rfl
@[simp] theorem port_onEmerg_same (j : Nat) : (m.onEmerg r f).port j = m.port j := rfl
@[simp] theorem mailbox_onEmerg_same (j : Nat) : (m.onEmerg r f).mailbox j = m.mailbox j := rfl
@[simp] theorem iface_onEmerg_same (j : Nat) : (m.onEmerg r f).iface j = m.iface j := rfl
@[simp] theorem placement_onEmerg_same (j : Nat) : (m.onEmerg r f).placement j = m.placement j := rfl
@[simp] theorem placementOf_onEmerg_same (j : Nat) : (m.onEmerg r f).placementOf j = m.placementOf j := rfl
@[simp] theorem image_onEmerg_same (j : Nat) : (m.onEmerg r f).image j = m.image j := rfl
@[simp] theorem sessionOn_onEmerg_same (j : Nat) : (m.onEmerg r f).sessionOn j = m.sessionOn j := rfl

end

/-! ### Mod.setPte -/

section
variable (m : Mod) (s p : Nat) (e : W64)

@[simp] theorem b0_setPte : (m.setPte s p e).b0 = m.b0 := rfl
@[simp] theorem freeCtr_setPte : (m.setPte s p e).freeCtr = m.freeCtr := rfl
@[simp] theorem aon_setPte : (m.setPte s p e).aon = m.aon := rfl
@[simp] theorem regions_setPte : (m.setPte s p e).regions = m.regions := rfl
@[simp] theorem cores_setPte : (m.setPte s p e).cores = m.cores := rfl
@[simp] theorem mesh_setPte : (m.setPte s p e).mesh = m.mesh := rfl
@[simp] theorem ports_setPte : (m.setPte s p e).ports = m.ports := rfl
@[simp] theorem stock_setPte : (m.setPte s p e).stock = m.stock := rfl
@[simp] theorem desc_setPte : (m.setPte s p e).desc = m.desc := rfl
@[simp] theorem topo_setPte : (m.setPte s p e).topo = m.topo := rfl
@[simp] theorem settings_setPte : (m.setPte s p e).settings = m.settings := rfl
@[simp] theorem mailboxes_setPte : (m.setPte s p e).mailboxes = m.mailboxes := rfl
@[simp] theorem sessions_setPte : (m.setPte s p e).sessions = m.sessions := rfl
@[simp] theorem nextSession_setPte : (m.setPte s p e).nextSession = m.nextSession := rfl
@[simp] theorem jobs_setPte : (m.setPte s p e).jobs = m.jobs := rfl
@[simp] theorem images_setPte : (m.setPte s p e).images = m.images := rfl
@[simp] theorem nextImage_setPte : (m.setPte s p e).nextImage = m.nextImage := rfl
@[simp] theorem placements_setPte : (m.setPte s p e).placements = m.placements := rfl
@[simp] theorem nextGang_setPte : (m.setPte s p e).nextGang = m.nextGang := rfl
@[simp] theorem events_setPte : (m.setPte s p e).events = m.events := rfl
@[simp] theorem log_setPte : (m.setPte s p e).log = m.log := rfl
@[simp] theorem logTotal_setPte : (m.setPte s p e).logTotal = m.logTotal := rfl
@[simp] theorem ident_setPte : (m.setPte s p e).ident = m.ident := rfl
@[simp] theorem power_setPte : (m.setPte s p e).power = m.power := rfl
@[simp] theorem bringup_setPte : (m.setPte s p e).bringup = m.bringup := rfl
@[simp] theorem host_setPte : (m.setPte s p e).host = m.host := rfl
@[simp] theorem region_setPte_same (j : Nat) : (m.setPte s p e).region j = m.region j := rfl
@[simp] theorem port_setPte_same (j : Nat) : (m.setPte s p e).port j = m.port j := rfl
@[simp] theorem mailbox_setPte_same (j : Nat) : (m.setPte s p e).mailbox j = m.mailbox j := rfl
@[simp] theorem iface_setPte_same (j : Nat) : (m.setPte s p e).iface j = m.iface j := rfl
@[simp] theorem placement_setPte_same (j : Nat) : (m.setPte s p e).placement j = m.placement j := rfl
@[simp] theorem placementOf_setPte_same (j : Nat) : (m.setPte s p e).placementOf j = m.placementOf j := rfl
@[simp] theorem image_setPte_same (j : Nat) : (m.setPte s p e).image j = m.image j := rfl
@[simp] theorem emerg_setPte_same (j : Nat) : (m.setPte s p e).emerg j = m.emerg j := rfl
@[simp] theorem sessionOn_setPte_same (j : Nat) : (m.setPte s p e).sessionOn j = m.sessionOn j := rfl

end

/-! ### Mod.setChunk -/

section
variable (m : Mod) (k : Nat) (v : Vec)

@[simp] theorem b0_setChunk : (m.setChunk k v).b0 = m.b0 := rfl
@[simp] theorem freeCtr_setChunk : (m.setChunk k v).freeCtr = m.freeCtr := rfl
@[simp] theorem aon_setChunk : (m.setChunk k v).aon = m.aon := rfl
@[simp] theorem regions_setChunk : (m.setChunk k v).regions = m.regions := rfl
@[simp] theorem cores_setChunk : (m.setChunk k v).cores = m.cores := rfl
@[simp] theorem mesh_setChunk : (m.setChunk k v).mesh = m.mesh := rfl
@[simp] theorem ports_setChunk : (m.setChunk k v).ports = m.ports := rfl
@[simp] theorem desc_setChunk : (m.setChunk k v).desc = m.desc := rfl
@[simp] theorem topo_setChunk : (m.setChunk k v).topo = m.topo := rfl
@[simp] theorem settings_setChunk : (m.setChunk k v).settings = m.settings := rfl
@[simp] theorem mailboxes_setChunk : (m.setChunk k v).mailboxes = m.mailboxes := rfl
@[simp] theorem sessions_setChunk : (m.setChunk k v).sessions = m.sessions := rfl
@[simp] theorem nextSession_setChunk : (m.setChunk k v).nextSession = m.nextSession := rfl
@[simp] theorem jobs_setChunk : (m.setChunk k v).jobs = m.jobs := rfl
@[simp] theorem images_setChunk : (m.setChunk k v).images = m.images := rfl
@[simp] theorem nextImage_setChunk : (m.setChunk k v).nextImage = m.nextImage := rfl
@[simp] theorem placements_setChunk : (m.setChunk k v).placements = m.placements := rfl
@[simp] theorem nextGang_setChunk : (m.setChunk k v).nextGang = m.nextGang := rfl
@[simp] theorem alloc_setChunk : (m.setChunk k v).alloc = m.alloc := rfl
@[simp] theorem events_setChunk : (m.setChunk k v).events = m.events := rfl
@[simp] theorem log_setChunk : (m.setChunk k v).log = m.log := rfl
@[simp] theorem logTotal_setChunk : (m.setChunk k v).logTotal = m.logTotal := rfl
@[simp] theorem ident_setChunk : (m.setChunk k v).ident = m.ident := rfl
@[simp] theorem power_setChunk : (m.setChunk k v).power = m.power := rfl
@[simp] theorem bringup_setChunk : (m.setChunk k v).bringup = m.bringup := rfl
@[simp] theorem host_setChunk : (m.setChunk k v).host = m.host := rfl
@[simp] theorem region_setChunk_same (j : Nat) : (m.setChunk k v).region j = m.region j := rfl
@[simp] theorem port_setChunk_same (j : Nat) : (m.setChunk k v).port j = m.port j := rfl
@[simp] theorem mailbox_setChunk_same (j : Nat) : (m.setChunk k v).mailbox j = m.mailbox j := rfl
@[simp] theorem placement_setChunk_same (j : Nat) : (m.setChunk k v).placement j = m.placement j := rfl
@[simp] theorem placementOf_setChunk_same (j : Nat) : (m.setChunk k v).placementOf j = m.placementOf j := rfl
@[simp] theorem image_setChunk_same (j : Nat) : (m.setChunk k v).image j = m.image j := rfl
@[simp] theorem emerg_setChunk_same (j : Nat) : (m.setChunk k v).emerg j = m.emerg j := rfl
@[simp] theorem sessionOn_setChunk_same (j : Nat) : (m.setChunk k v).sessionOn j = m.sessionOn j := rfl

end

/-! ### What the changed part reads -/

@[simp] theorem region_setRegion (m : Mod) (r : Nat) (x : Region) : (m.setRegion r x).region r = x := by
  simp only [Mod.setRegion, Mod.region, get_set, ite_true]

theorem region_setRegion_other (m : Mod) (r j : Nat) (x : Region) (h : j ≠ r) : (m.setRegion r x).region j = m.region j := by
  simp only [Mod.setRegion, Mod.region, get_set, if_neg h]

@[simp] theorem region_onRegion (m : Mod) (r : Nat) (f : Region → Region) : (m.onRegion r f).region r = f (m.region r) := region_setRegion ..

theorem region_onRegion_other (m : Mod) (r j : Nat) (f : Region → Region) (h : j ≠ r) : (m.onRegion r f).region j = m.region j :=
  region_setRegion_other _ _ _ _ h

theorem region_onRegion_ite (m : Mod) (r j : Nat) (f : Region → Region) :
    (m.onRegion r f).region j = if j = r then f (m.region r) else m.region j := by
  simp only [Mod.onRegion, Mod.setRegion, Mod.region, get_set]

@[simp] theorem setRegion_setRegion (m : Mod) (r : Nat) (x y : Region) : (m.setRegion r x).setRegion r y = m.setRegion r y := by
  simp only [Mod.setRegion, set_set]

@[simp] theorem onRegion_onRegion (m : Mod) (r : Nat) (f g : Region → Region) :
    (m.onRegion r f).onRegion r g = m.onRegion r (fun x => g (f x)) := by
  simp only [Mod.onRegion, region_setRegion, setRegion_setRegion]

@[simp] theorem core_setCore (m : Mod) (k : Nat) (c : Core) : (m.setCore k c).core k = c := by
  simp only [Mod.setCore, Mod.core, find_set_same]

theorem core_setCore_other (m : Mod) (k j : Nat) (c : Core) (h : j ≠ k) : (m.setCore k c).core j = m.core j := by
  simp only [Mod.setCore, Mod.core, find_set, if_neg h]
  rfl

@[simp] theorem core_onCore (m : Mod) (k : Nat) (f : Core → Core) : (m.onCore k f).core k = f (m.core k) := core_setCore ..

theorem core_onCore_other (m : Mod) (k j : Nat) (f : Core → Core) (h : j ≠ k) : (m.onCore k f).core j = m.core j :=
  core_setCore_other _ _ _ _ h

@[simp] theorem port_onPort (m : Mod) (p : Nat) (f : Port → Port) : (m.onPort p f).port p = f (m.port p) := by
  simp only [Mod.onPort, Mod.port, get_set, ite_true]

theorem port_onPort_other (m : Mod) (p j : Nat) (f : Port → Port) (h : j ≠ p) : (m.onPort p f).port j = m.port j := by
  simp only [Mod.onPort, Mod.port, get_set, if_neg h]

@[simp] theorem iface_onIface (m : Mod) (i : Nat) (f : Iface → Iface) : (m.onIface i f).iface i = f (m.iface i) := by
  simp only [Mod.onIface, Mod.iface, get_set, ite_true]

theorem iface_onIface_other (m : Mod) (i j : Nat) (f : Iface → Iface) (h : j ≠ i) : (m.onIface i f).iface j = m.iface j := by
  simp only [Mod.onIface, Mod.iface, get_set, if_neg h]

@[simp] theorem emerg_onEmerg (m : Mod) (r : Nat) (f : Emerg → Emerg) : (m.onEmerg r f).emerg r = f (m.emerg r) := by
  simp only [Mod.onEmerg, Mod.emerg, get_set, ite_true]

/-- A chunk written is read back, and no other changes; stock keeps its canonical form. -/
theorem mem_setChunk (m : Mod) (k j : Nat) (v : Vec) : (m.setChunk k v).stock.mem.get j = if j = k then v else m.stock.mem.get j :=
  mem_get_set ..

theorem wf_setChunk (m : Mod) (k : Nat) (v : Vec) (h : m.stock.mem.wf = true) : (m.setChunk k v).stock.mem.wf = true :=
  mem_wf_set _ _ _ h

/-- Both memories of the module after reset hold their canonical form. -/
theorem reset_memories : Mem.wf State.reset.m.stock.mem = true ∧ Mem.wf State.reset.m.host.mem = true := ⟨rfl, rfl⟩

end Sys2Proof.Laws
end

