-- ==== Sys2Proof/Laws/Regions.lean ====
section
/-!
SUPPORT. Laws/Regions.lean: what a header command does once its region may issue.
-/

namespace Sys2Proof.Laws

open Sys2Proof Sys2Proof.Machine

/-- Two changes that agree on a region change the module alike. -/
theorem onRegion_congr (m : Mod) (r : Nat) (f g : Region → Region) (h : f (m.region r) = g (m.region r)) : m.onRegion r f = m.onRegion r g := by
  simp only [Mod.onRegion, h]

/-- A region that may issue passes the model's own check. -/
theorem mayIssue_open {g : Region} (h : MayIssue g) : canIssue g = true ∧ waitOpen g.seq.wait = true := by
  obtain ⟨h1,h2,h3,h4,h5,h6,h7,h8⟩ := h
  constructor
  · simp only [canIssue, seqRuns, h1, Region.clocked, h2, h3, h4, h5, h6]
    cases hp : g.seq.pipe.getLast? with
    | none => rfl
    | some b => simp [h7 b hp]
  · rcases h8 with h | h | h | h <;> simp [h, waitOpen]

/-- A header row of a region that may issue: its operation's effect, and the issue of the bundle that follows it. -/
theorem header_issues {s : State} {r : Fin 25} {i : Instr} {so sc sa ta} (h : MayIssue (s.m.region r)) (hw : Instr.wf i = true)
   (he : exec i s = s.runIf (Instr.wf i) (headerRow r so sc sa ta)) :
   exec i s = .next { s with m := match headerOp r so sc sa ta s.m with
     | (m, none) => m
     | (m, some next) => m.onRegion r (fun g => { g with seq := { g.seq with addr := next, wait := .none } }) } := by
  rw [he, runIf_wf hw]
  simp only [headerRow, (mayIssue_open h).1, (mayIssue_open h).2]; rfl

end Sys2Proof.Laws
end

