-- ==== Sys2Proof/Laws/Shared.lean ====
section
/-!
SUPPORT. Laws/Shared.lean: what each operation shared by many commands changes, said as the one part of the module that differs
afterwards, and that stock keeps its canonical form.
-/

namespace Sys2Proof.Laws

open Sys2Proof Sys2Proof.Machine

/-- A fold whose every step keeps a relation to the start keeps it. -/
theorem foldl_keeps {α β : Type} {R : β → β → Prop} (refl : ∀ b, R b b) (trans : ∀ a b c, R a b → R b c → R a c) {f : β → α → β}
    (h : ∀ b a, R b (f b a)) (l : List α) (b : β) : R b (l.foldl f b) := by
  induction l generalizing b with
  | nil => exact refl b
  | cons a t ih => exact trans _ _ _ (h b a) (ih (f b a))

/-! ### Events, the log and notices -/

/-- An MSI-X message changes the host's side alone. -/
theorem sendMsix_host (v : Nat) (m : Mod) : ∃ h, sendMsix v m = { m with host := h } := by
  unfold sendMsix
  split
  · exact ⟨m.host, rfl⟩
  · exact ⟨_, rfl⟩

/-- It leaves host memory as it was. -/
theorem sendMsix_mem (v : Nat) (m : Mod) : (sendMsix v m).host.mem = m.host.mem := by
  unfold sendMsix
  split <;> rfl

/-- A record delivered changes the event ring, its backlog and its counters. -/
theorem recordEvent_events (x : EvRec) (m : Mod) : recordEvent x m = { m with events := (recordEvent x m).events } := rfl

/-- With a free slot, no backlog and outside safe hold, it is the ring's next record; the backlog keeps what does not fit, up to 1,024
records, and any more is counted as lost. -/
theorem recordEvent_cases (x : EvRec) (m : Mod) :
    (m.aon.state ≠ .safeHold ∧ m.events.backlog = [] ∧ m.events.room = true ∧ recordEvent x m = { m with events := m.events.write x }) ∨
    (m.events.backlog.length < 1024 ∧ recordEvent x m = { m with events := { m.events with backlog := m.events.backlog ++ [x] } }) ∨
    (1024 ≤ m.events.backlog.length ∧ recordEvent x m = { m with events := { m.events with lost := m.events.lost + 1 } }) := by
  simp only [recordEvent]
  split
  · rename_i h
    exact .inl ⟨h.1, h.2.1, h.2.2, rfl⟩
  · split
    · rename_i h
      exact .inr (.inl ⟨h, rfl⟩)
    · rename_i h
      exact .inr (.inr ⟨by omega, rfl⟩)

/-- A change logged changes the log and its count, which rises by one; the log keeps at most 512 entries. -/
theorem logChange_log (cmd sess item target : Nat) (failed : Bool) (old new : Nat) (m : Mod) :
    ∃ l, logChange cmd sess item target failed old new m = { m with log := l, logTotal := m.logTotal + 1 } ∧ l.length ≤ 512 :=
  ⟨_, rfl, by simp; omega⟩

/-- A notice flooded changes the ports alone. -/
theorem floodNotice_ports (n : NoticeIn) (except : Option Nat) (m : Mod) : ∃ p, floodNotice n except m = { m with ports := p } := by
  unfold floodNotice
  refine foldl_keeps (R := fun a b => ∃ p, b = { a with ports := p }) (fun a => ⟨a.ports, rfl⟩) ?_ ?_ _ m
  · rintro a _ _ ⟨p, rfl⟩ ⟨q, rfl⟩
    exact ⟨q, rfl⟩
  · intro a p
    dsimp only
    split
    · exact ⟨_, rfl⟩
    · exact ⟨a.ports, rfl⟩

/-! ### Mailboxes -/

/-- An answer changes its mailbox and the host's side. -/
theorem answerPosted_boxes (mb status : Nat) (body : List Byte) (m : Mod) :
    ∃ b h, answerPosted mb status body m = { m with mailboxes := b, host := h } := by
  unfold answerPosted
  dsimp only
  split
  · obtain ⟨h, e⟩ := sendMsix_host mb (m.onMailbox mb (fun b => { b with
      rspCommand := b.reqCommand, rspStatus := BitVec.ofNat 16 status, rspLength := BitVec.ofNat 32 body.length
      rspTag := b.reqTag, rspBody := body, status := BitVec.ofNat 32 status, ack := b.seq }))
    exact ⟨_, h, e⟩
  · exact ⟨_, m.host, rfl⟩

/-- A completion changes the jobs, its mailbox and the host's side. -/
theorem completeJob_jobs (j : Job) (status : Nat) (body : List Byte) (m : Mod) :
    ∃ l b h, completeJob j status body m = { m with jobs := l, mailboxes := b, host := h } := by
  unfold completeJob
  dsimp only
  split
  · exact ⟨_, m.mailboxes, m.host, rfl⟩
  · split
    · obtain ⟨h, e⟩ := sendMsix_host j.mb (Mod.onMailbox
        { m with jobs := m.jobs.filter (fun x => !(x.mb == j.mb && x.seq == j.seq && x.command == j.command)) } j.mb (fun b => { b with
          cCommand := j.command, cStatus := BitVec.ofNat 16 status, cLength := BitVec.ofNat 32 body.length
          cTag := j.tag, cBody := body, cSeq := j.seq }))
      exact ⟨_, _, h, e⟩
    · exact ⟨_, _, m.host, rfl⟩

/-! ### Stock -/

/-- A page-table mark changes the allocation alone. -/
theorem touchPage_alloc (m : Mod) (sess page : Nat) (write : Bool) : ∃ a, m.touchPage sess page write = { m with alloc := a } := ⟨_, rfl⟩

theorem freePage_alloc (m : Mod) (sess page : Nat) : ∃ a, m.freePage sess page = { m with alloc := a } := by
  unfold Mod.freePage
  split <;> exact ⟨_, rfl⟩

theorem freeDeferred_alloc (m : Mod) : ∃ a, m.freeDeferred = { m with alloc := a } := by
  unfold Mod.freeDeferred
  dsimp only
  obtain ⟨a, e⟩ := foldl_keeps (R := fun a b : Mod => ∃ x, b = { a with alloc := x }) (fun a => ⟨a.alloc, rfl⟩)
    (by rintro a _ _ ⟨p, rfl⟩ ⟨q, rfl⟩; exact ⟨q, rfl⟩) (f := fun m k => m.setPte (k / 2 ^ 27) (k % 2 ^ 27) 0) (fun b k => ⟨_, rfl⟩)
    (m.alloc.defer.filter (fun k => !m.pageHeld (k / 2 ^ 27) (k % 2 ^ 27)))
    { m with alloc := { m.alloc with defer := m.alloc.defer.filter (fun k =>
      !(m.alloc.defer.filter (fun k => !m.pageHeld (k / 2 ^ 27) (k % 2 ^ 27))).contains k) } }
  exact ⟨a, e⟩

/-- Stock changed, its canonical form kept, and nothing beside stock and the allocation's marks. -/
def StockOnly (m t : Mod) : Prop := (∃ s a, t = { m with stock := s, alloc := a }) ∧ (m.stock.mem.wf = true → t.stock.mem.wf = true)

theorem StockOnly.refl (m : Mod) : StockOnly m m := ⟨⟨m.stock, m.alloc, rfl⟩, fun h => h⟩

theorem StockOnly.trans (a b c : Mod) (h : StockOnly a b) (h' : StockOnly b c) : StockOnly a c := by
  obtain ⟨⟨s, x, rfl⟩, h1⟩ := h
  obtain ⟨⟨s', x', rfl⟩, h2⟩ := h'
  exact ⟨⟨s', x', rfl⟩, fun h => h2 (h1 h)⟩

theorem setChunk_stockOnly (m : Mod) (k : Nat) (v : Vec) : StockOnly m (m.setChunk k v) :=
  ⟨⟨_, m.alloc, rfl⟩, wf_setChunk m k v⟩

theorem stockWrite_stockOnly (sess : Nat) (bs : List Byte) (m : Mod) (sa : Nat) : StockOnly m (m.stockWrite sess sa bs) := by
  induction bs generalizing m sa with
  | nil => exact StockOnly.refl m
  | cons b t ih => exact StockOnly.trans _ _ _ (setChunk_stockOnly ..) (ih ..)

theorem zeroPage_stockOnly (m : Mod) (p : Nat) : StockOnly m (m.zeroPage p) := by
  unfold Mod.zeroPage
  split
  · refine ⟨⟨_, m.alloc, rfl⟩, fun h => ?_⟩
    simp only [Mem.wf, Bool.and_eq_true] at h ⊢
    refine ⟨sorted_filter _ _ h.1, ?_⟩
    have h2 := h.2
    simp only [Bool.or_eq_true, List.all_eq_true] at h2 ⊢
    exact h2.imp id (fun h x hx => h x (List.mem_of_mem_filter hx))
  · exact foldl_keeps StockOnly.refl StockOnly.trans (fun b j => setChunk_stockOnly ..) _ m

theorem storeChunk_stockOnly (m : Mod) (q : ChunkReq) : StockOnly m (m.storeChunk q) :=
  ⟨⟨_, _, rfl⟩, fun h => wf_setChunk _ _ _ h⟩

end Sys2Proof.Laws
end

