-- ==== Sys2Proof/Laws/Slots.lean ====
section
/-!
SUPPORT. Laws/Slots.lean: what a slot's command does once its slot executes, is disabled or waits.
-/

namespace Sys2Proof.Laws

open Sys2Proof Sys2Proof.Machine

theorem bundleCtx_pos (g : Region) (c : Core) (op : SlotOp) (ctx : Ctx) : (bundleCtx g c op ctx).pos = ctx.pos := by
  unfold bundleCtx; split <;> rfl

theorem bundleCtx_cycle (g : Region) (c : Core) (op : SlotOp) (ctx : Ctx) : (bundleCtx g c op ctx).cycle = ctx.cycle := by
  unfold bundleCtx; split <;> rfl

theorem siteCtx_pos {m : Mod} {site pos addr : Nat} {x : Ctx} (h : m.siteCtx site pos addr = some x) : x.pos = pos := by
  dsimp only [Mod.siteCtx] at h
  split at h
  · split at h
    · cases h; rfl
    · cases h
  · cases h

theorem slotAround_pos {m : Mod} {op : SlotOp} {ctx : Ctx} (h : SlotAround m op ctx) : ctx.pos = op.pos.toNat := by
  obtain ⟨x, hx, rfl⟩ := h
  rw [bundleCtx_pos, siteCtx_pos hx]

/-- A slot command's effect, by what its slot leaves. -/
theorem coreSlot_of_around {m : Mod} {op : SlotOp} {ctx : Ctx} (h : SlotAround m op ctx) (f : Ctx → SlotOp → Core → Eff) :
    coreSlot f op m = m.applyEff op.site (runSlot ctx op (f ctx op) (slotCore m op)) := by
  obtain ⟨x, hx, rfl⟩ := h
  simp only [coreSlot, hx, slotCore]

/-- What a slot that is not a scratchpad port leaves when it executes, given what its memory check leaves. -/
theorem runSlot_runs {ctx : Ctx} {op : SlotOp} {c c1 : Core} (f : Core → Eff)
    (he : slotEnabled c op.unit.val ctx.pos op.word = true) (hm : slotHolds ctx true op.unit.val op.rider op.word c = [])
    (hs : slotSram ctx op c = { core := c1 }) (hu : op.unit.val ≠ 0 ∧ op.unit.val ≠ 1 ∧ op.unit.val ≠ 7) :
    runSlot ctx op f c = { f c1 with core := passed ctx (f c1).core } := by
  obtain ⟨h0, h1, h7⟩ := hu
  simp [runSlot, he, hm, hs, Eff.bind, h0, h1, h7, passed]

/-- A slot that is not a scratchpad port and executes: the core it leaves and the events of its mark. -/
theorem coreSlot_runs {m : Mod} {op : SlotOp} {ctx : Ctx} {c1 : Core} (h : SlotRuns m op ctx) (f : Ctx → SlotOp → Core → Eff)
    (hs : slotSram ctx op (slotCore m op) = { core := c1 })
    (hu : op.unit.val ≠ 0 ∧ op.unit.val ≠ 1 ∧ op.unit.val ≠ 7) :
    coreSlot f op m = m.applyEff op.site { f ctx op c1 with core := passed ctx (f ctx op c1).core } := by
  rw [coreSlot_of_around h.around, runSlot_runs _ h.enabled h.met hs hu]

/-- An operation that raises no event leaves the module with its core changed and nothing else. -/
theorem applyEff_core (m : Mod) (site : Nat) (c : Core) : m.applyEff site { core := c } = m.setCore site c := by
  simp [Mod.applyEff]

/-- The memory check of a slot that reads no accumulator row and has no uncorrectable error changes nothing. -/
theorem slotSram_quiet {ctx : Ctx} {op : SlotOp} {c : Core} (h : op.err ≠ .uncorrectable)
    (ho : ¬ (op.unit.val = 4 ∧ op.op = 1)) : slotSram ctx op c = { core := c } := by
  cases he : op.err with
  | uncorrectable => exact absurd he h
  | ok =>
    simp only [slotSram, he]
    split
    · rfl
    · split <;> rfl
  | corrected n =>
    simp only [SlotOp.op] at ho
    simp only [slotSram, he]
    split
    · rfl
    · split
      · simp_all
      · rfl

/-- A slot with a false predicate: nothing but the words due by its position. -/
theorem runSlot_disabled {ctx : Ctx} {op : SlotOp} {c : Core} (f : Core → Eff)
    (he : slotEnabled c op.unit.val ctx.pos op.word = false) : runSlot ctx op f c = { core := c } := by
  simp [runSlot, he]

end Sys2Proof.Laws
end

