-- ==== Sys2Proof/Laws/SlotFrames.lean ====
section
/-!
SUPPORT. Laws/SlotFrames.lean: what popping, tracing and event counting change, and the form of every slot command's effect.
-/

namespace Sys2Proof.Laws

open Sys2Proof Sys2Proof.Machine

/-- Reading a queue with a pop changes the queues alone. -/
theorem pop_queues (c : Core) (q b) : ∃ qs, c.pop q b = { c with queues := qs } := by
  simp only [Core.pop]; split
  · exact ⟨_, rfl⟩
  · exact ⟨c.queues, rfl⟩

theorem srcPop_queues (x : VSrc) (c : Core) : ∃ qs, srcPop c x = { c with queues := qs } := by
  cases x <;> simp only [srcPop]
  · exact pop_queues _ _ _
  · exact pop_queues _ _ _
  · exact pop_queues _ _ _
  · exact ⟨c.queues, rfl⟩
  · exact ⟨c.queues, rfl⟩

theorem foldPop_queues (l : List VSrc) : ∀ (c : Core), ∃ qs, l.foldl srcPop c = { c with queues := qs } := by
  induction l with
  | nil => intro c; exact ⟨c.queues, rfl⟩
  | cons a t ih =>
    intro c
    obtain ⟨q1, h1⟩ := srcPop_queues a c
    simp only [List.foldl, h1]
    obtain ⟨q2, h2⟩ := ih { c with queues := q1 }
    exact ⟨q2, by rw [h2]⟩

/-- A sticky bit set reads set. -/
theorem bit_sticky (x : W32) (i : Nat) (h : i < 32) : bit (sticky x i) i = true := by
  have : (i : Nat) < 32 := h
  simp [sticky, bit, BitVec.getLsbD]; right; rw [show (4294967296:Nat) = 2^32 from rfl, Nat.testBit_mod_two_pow]; simp [h]

/-- One counted event: the core and its region's count change. -/
theorem applyEff_event (m : Mod) (site : Nat) (c : Core) (x : EvOut) (hx : x.code ≠ 8) : m.applyEff site { core := c, ev := [x] } = (m.setCore site c).onRegion (siteRegion site) (fun g => countEv g x) := by
  simp [Mod.applyEff, hx]

/-- A slot of RD0, RD1 or WR that executes also marks its bank as served early. -/
theorem runSlot_port {ctx : Ctx} {op : SlotOp} {c : Core} (f : Core → Eff)
    (he : slotEnabled c op.unit.val ctx.pos op.word = true) (hm : slotHolds ctx true op.unit.val op.rider op.word c = [])
    (hs : slotSram ctx op c = { core := c }) (hu : op.unit.val = 0 ∨ op.unit.val = 1 ∨ op.unit.val = 7) :
    runSlot ctx op f c = { f c with core := { (f c).core with sp := { (f c).core.sp with early := (f c).core.sp.early ++
      [(op.unit.val, ((f c).core.sp.progBanks.take ((f c).core.sp.progBanks.length - c.sp.progBanks.length)).getLast?.getD (32 + op.unit.val))] } } } := by
  rcases hu with hu | hu | hu <;> simp [hu] at he hm <;> simp [runSlot, he, hm, hs, Eff.bind, hu]

/-- The core a slot finds has its earlier word writes settled. -/
theorem settleSlot {s : State} {op : SlotOp} {ctx : Ctx} (h : SlotRuns s.m op ctx) : settleWords (slotCore s.m op) ctx.pos = slotCore s.m op := by
  rw [slotAround_pos h.around]; exact settleWords_twice _ _

/-- A slot command leaves one core. -/
theorem slotLeaves_unique {s : State} {op : SlotOp} {i : Instr} {c c' : Core} (h : SlotLeaves i s op c) (h' : SlotLeaves i s op c') : c = c' := by
  unfold SlotLeaves at h h'
  rw [h] at h'
  injection h' with h'
  have := congrArg (fun (t : State) => Tab.find t.m.cores op.site) h'
  simpa [Mod.setCore, find_set] using this

/-- Bytes written to stock change stock alone. -/
theorem stockWrite_stock (bs : List Byte) : ∀ (m : Mod) (a b), ∃ x, m.stockWrite a b bs = { m with stock := x } := by
  induction bs with
  | nil => intro m a b; exact ⟨m.stock, rfl⟩
  | cons x t ih =>
    intro m a b
    simp only [Mod.stockWrite]
    obtain ⟨y, hy⟩ := ih (m.setChunk (saChunk (m.pte a (b / 2 ^ 21)) b) (put (m.chunk (saChunk (m.pte a (b / 2 ^ 21)) b)) (8 * (b % 1024) + 7) (8 * (b % 1024)) x.toNat)) a (b+1)
    rw [hy]
    exact ⟨y, rfl⟩

/-- A trace record changes stock and its region's trace. -/
theorem traceRecord_trace (r pos row slot last : Nat) (m : Mod) : ∃ st rg, traceRecord r pos row slot last m = { m with stock := st, regions := rg } ∧ ∀ j, (traceRecord r pos row slot last m).region j = { m.region j with trace := ((traceRecord r pos row slot last m).region j).trace } := by
  simp only [traceRecord]
  split
  · exact ⟨m.stock, m.regions, rfl, fun _ => rfl⟩
  · obtain ⟨x, hx⟩ := stockWrite_stock (le 8 pos ++ le 8 (m.region r).ticks ++ le 8 (row + slot * 2 ^ 32) ++ le 8 last) m (m.region r).trace.session ((m.region r).trace.ring + (m.region r).trace.written % (m.region r).trace.bytes)
    rw [hx]
    refine ⟨x, _, rfl, fun j => ?_⟩
    rw [region_onRegion_ite]
    split
    · subst j; rfl
    · rfl

/-- The WR tap changes stock and its region's trace. -/
theorem traceWr_trace (op : SlotOp) (m : Mod) : ∃ st rg, traceWr op m = { m with stock := st, regions := rg } ∧ ∀ r, (traceWr op m).region r = { m.region r with trace := ((traceWr op m).region r).trace } := by
  have base : ∃ st rg, m = { m with stock := st, regions := rg } ∧ ∀ r, (m).region r = { m.region r with trace := ((m).region r).trace } := ⟨m.stock, m.regions, rfl, fun _ => rfl⟩
  simp only [traceWr]
  split
  · exact base
  · split
    · exact base
    · split
      · exact base
      · rename_i x _ _
        generalize (List.zipIdx _) = l
        revert base
        generalize hmm : m = m0
        rw [show (∃ st rg, m0 = { m0 with stock := st, regions := rg } ∧ ∀ r, (m0).region r = { m0.region r with trace := ((m0).region r).trace }) = (∃ st rg, m0 = { m with stock := st, regions := rg } ∧ ∀ r, (m0).region r = { m.region r with trace := ((m0).region r).trace }) by rw [hmm]]
        have key : ∀ (g : Row × Nat → Nat × Nat × Nat × Nat × Nat) (l : List (Row × Nat)) (y : Mod), (∃ st rg, y = { m with stock := st, regions := rg } ∧ ∀ r, (y).region r = { m.region r with trace := ((y).region r).trace }) →
           ∃ st rg, l.foldl (fun m x => traceRecord (g x).1 (g x).2.1 (g x).2.2.1 (g x).2.2.2.1 (g x).2.2.2.2 m) y = { m with stock := st, regions := rg } ∧ ∀ r, (l.foldl (fun m x => traceRecord (g x).1 (g x).2.1 (g x).2.2.1 (g x).2.2.2.1 (g x).2.2.2.2 m) y).region r = { m.region r with trace := ((l.foldl (fun m x => traceRecord (g x).1 (g x).2.1 (g x).2.2.1 (g x).2.2.2.1 (g x).2.2.2.2 m) y).region r).trace } := by
          intro g l
          induction l with
          | nil => intro y hy; exact hy
          | cons a t ih =>
            intro y hy
            simp only [List.foldl]
            apply ih
            obtain ⟨st, rg, h1, h2⟩ := traceRecord_trace (g a).1 (g a).2.1 (g a).2.2.1 (g a).2.2.2.1 (g a).2.2.2.2 y
            obtain ⟨st', rg', h3, h4⟩ := hy
            refine ⟨st, rg, ?_, ?_⟩
            · rw [h1, h3]
            · intro r; rw [h2, h4]
        intro base
        subst hmm
        exact key (fun x => (_, _, _, _, _)) l m base

theorem slot_exec_plain {i : Instr} {op : SlotOp} (h : slotRow i = some op) (hn : i ≠ .wr op) : ∃ f, ∀ s, exec i s = s.runIf (Instr.wf i) (coreSlot f op) := by
  cases i <;> simp only [slotRow, Option.some.injEq, reduceCtorEq] at h
  all_goals subst h
  all_goals first | exact absurd rfl hn | exact ⟨_, fun s => rfl⟩

/-- Every slot command is one effect on its core, WR after its tap. -/
theorem slot_exec {i : Instr} {op : SlotOp} (h : slotRow i = some op) : ∃ f, ∀ s, exec i s = s.runIf (Instr.wf i) (fun m => coreSlot f op (if i = .wr op then traceWr op m else m)) := by
  by_cases hn : i = .wr op
  · subst hn
    refine ⟨fun ctx op c => wrExec ctx op c, fun s => ?_⟩
    simp only [if_true]; rfl
  · obtain ⟨f, hf⟩ := slot_exec_plain h hn
    refine ⟨f, fun s => ?_⟩
    simp only [hn, if_false]
    exact hf s

/-- The WR tap leaves a slot's surroundings and core as they were. -/
theorem around_traceWr {op : SlotOp} {m : Mod} {ctx : Ctx} (h : SlotAround m op ctx) : SlotAround (traceWr op m) op ctx ∧ slotCore (traceWr op m) op = slotCore m op := by
  obtain ⟨st, rg, h1, h2⟩ := traceWr_trace op m
  have hr : ∀ r, (traceWr op m).region r = { m.region r with trace := ((traceWr op m).region r).trace } := h2
  have hcore : (traceWr op m).core op.site = m.core op.site := by
    simp only [Mod.core]
    have : (traceWr op m).cores = m.cores := by rw [h1]
    rw [this, hr]
  have hsc : slotCore (traceWr op m) op = slotCore m op := by simp only [slotCore, hcore]
  refine ⟨?_, hsc⟩
  obtain ⟨x, hx, hc⟩ := h
  refine ⟨x, ?_, ?_⟩
  · rw [← hx]
    have hb : (traceWr op m).b0 = m.b0 ∧ (traceWr op m).topo = m.topo ∧ (traceWr op m).placements = m.placements ∧ (traceWr op m).images = m.images := by
      rw [h1]; exact ⟨rfl, rfl, rfl, rfl⟩
    have e1 : ∀ g, (traceWr op m).partCores g = m.partCores g := by
      intro g; simp only [Mod.partCores, Mod.placementOf, Mod.image]; rw [hb.2.2.1, hb.2.2.2]
    simp only [Mod.siteCtx, Mod.ctx, e1]
    rw [hr, hb.1, hb.2.1]
    rfl
  · rw [hc, hsc]; simp only [bundleCtx]; rw [hr]

/-- Every slot command, well formed, in its surroundings: the state it answers. -/
theorem slot_effect {i : Instr} {op : SlotOp} (h : slotRow i = some op) (hw : Instr.wf i) : ∃ f : Ctx → SlotOp → Core → Eff, ∀ s ctx, SlotAround s.m op ctx → exec i s = .next { s with m := (if i = .wr op then traceWr op s.m else s.m).applyEff op.site (runSlot ctx op (f ctx op) (slotCore s.m op)) } := by
  obtain ⟨f, hf⟩ := slot_exec h
  refine ⟨f, fun s ctx ha => ?_⟩
  rw [hf, runIf_wf hw]
  split
  · obtain ⟨h1, h2⟩ := around_traceWr ha
    rw [coreSlot_of_around h1, h2]
  · rw [coreSlot_of_around ha]

/-- A WR that is disabled or waits is not traced. -/
theorem traceWr_quiet {op : SlotOp} {m : Mod} {ctx : Ctx} (ha : SlotAround m op ctx) (_ : op.unit.val = 7)
   (hd : slotEnabled (slotCore m op) 7 ctx.pos op.word = false ∨ wrHolds ctx true 7 op.word (slotCore m op) ≠ []) : traceWr op m = m := by
  simp only [traceWr]
  split
  · rfl
  · obtain ⟨x, hx, hc⟩ := ha
    simp only [hx]
    have e : bundleCtx (m.region (siteRegion op.site)) (settleWords (m.core op.site) op.pos.toNat) op x = ctx := hc.symm
    simp only [e]
    rw [if_pos]
    rcases hd with hd | hd
    · have : slotEnabled (settleWords (m.core op.site) op.pos.toNat) 7 ctx.pos op.word = false := hd
      rw [this]; rfl
    · have : (wrHolds ctx true 7 op.word (settleWords (m.core op.site) op.pos.toNat)).isEmpty = false := by
        simpa [slotCore] using hd
      rw [this]; simp

end Sys2Proof.Laws
end

