-- ==== Sys2Proof/Laws/Vectors.lean ====
section
/-!
SUPPORT. Laws/Vectors.lean: folds over lanes and elements: flags gathered, segment starts, best elements.
-/

namespace Sys2Proof.Laws

open Sys2Proof Sys2Proof.Machine

theorem foldFlags (l : List (W32 × VFlags)) : ∀ (x : VFlags),
   ((l.foldl (fun a r => a.or r.2) x).nan = true ↔ x.nan = true ∨ ∃ r ∈ l, r.2.nan = true) ∧
   ((l.foldl (fun a r => a.or r.2) x).inf = true ↔ x.inf = true ∨ ∃ r ∈ l, r.2.inf = true) ∧
   ((l.foldl (fun a r => a.or r.2) x).cvt = true ↔ x.cvt = true ∨ ∃ r ∈ l, r.2.cvt = true) ∧
   ((l.foldl (fun a r => a.or r.2) x).wrap = true ↔ x.wrap = true ∨ ∃ r ∈ l, r.2.wrap = true) ∧
   ((l.foldl (fun a r => a.or r.2) x).sat = true ↔ x.sat = true ∨ ∃ r ∈ l, r.2.sat = true) := by
  induction l with
  | nil => intro x; simp
  | cons a t ih =>
    intro x
    simp only [List.foldl]
    obtain ⟨h1, h2, h3, h4, h5⟩ := ih (x.or a.2)
    refine ⟨?_, ?_, ?_, ?_, ?_⟩
    · rw [h1]; simp [VFlags.or, or_assoc]
    · rw [h2]; simp [VFlags.or, or_assoc]
    · rw [h3]; simp [VFlags.or, or_assoc]
    · rw [h4]; simp [VFlags.or, or_assoc]
    · rw [h5]; simp [VFlags.or, or_assoc]

/-- An integer result, saturating or wrapping. -/
theorem intRes_eq (sat : Bool) (z : Int) : intRes sat z = (if sat then BitVec.ofInt 32 (max (-2 ^ 31) (min (2 ^ 31 - 1) z)) else BitVec.ofInt 32 z, if sat then { sat := !(decide (-2 ^ 31 ≤ z) && decide (z ≤ 2 ^ 31 - 1)) } else { wrap := !(decide (-2 ^ 31 ≤ z) && decide (z ≤ 2 ^ 31 - 1)) }) := by
  have e : (decide (z < -((2 ^ 31 : Nat) : Int)) || decide (((2 ^ 31 : Nat) : Int) - 1 < z)) = !(decide (-2 ^ 31 ≤ z) && decide (z ≤ 2 ^ 31 - 1)) := by
    by_cases h1 : (-2 ^ 31 ≤ z) <;> by_cases h2 : (z ≤ 2 ^ 31 - 1) <;> norm_num at h1 h2 ⊢ <;> simp [h1, h2]
  simp only [intRes]
  cases sat
  · simp only [Bool.false_eq_true, if_false]; rw [e]
  · simp only [if_true]; rw [e]; rfl

theorem clampTo_nat (x : Nat) : (clampTo 0 255 8 (x : Int)).1 = min 255 x := by
  simp only [clampTo]
  have : max (0:Int) (min 255 (x:Int)) = ((min 255 x : Nat) : Int) := by omega
  rw [this]
  have h : (min 255 x) % 2^8 = min 255 x := Nat.mod_eq_of_lt (by omega)
  change (((min 255 x : Nat) : Int) % ((2^8 : Nat) : Int)).toNat = _
  rw [← Int.natCast_mod, h]; rfl

theorem scanSum_total (ty : Nat) (ts : List W32) : (scanSum ty ts).1 = (let z := ts.foldl (fun z t => z + t.toInt) 0
      if ty = 0 then sumF ts else if ty = 2 then BitVec.ofInt 32 (max (-2 ^ 31) (min (2 ^ 31 - 1) z)) else BitVec.ofInt 32 z) := by
  simp only [scanSum]
  split
  · rfl
  · rw [intRes_eq]
    split <;> simp_all

theorem lanes_take (f : Nat → W32) (b n : Nat) (hn : n ≤ 256) : (((List.range 256).map f).take n).drop b = ((List.range n).drop b).map f := by
  rw [← List.map_take, List.take_range, ← List.map_drop, min_eq_left hn]

/-- The start of a lane's segment is the nearest lane at or below it whose flag is set. -/
theorem segStart_some (s : Vec) : ∀ (j b : Nat), b ≤ j → lane s b ≠ 0 → (∀ i, b < i → i ≤ j → lane s i = 0) → segStart s j = some b := by
  intro j
  induction j with
  | zero => intro b hb h1 h2; have : b = 0 := by omega
            subst this; simp only [segStart]; exact if_pos h1
  | succ j ih =>
    intro b hb h1 h2
    by_cases hbj : b = j + 1
    · subst hbj; simp only [segStart]; exact if_pos h1
    · have : lane s (j+1) = 0 := h2 _ (by omega) (by omega)
      simp only [segStart, this]
      simpa using ih b (by omega) h1 (fun i hi hi2 => h2 i hi (by omega))

theorem segStart_none (s : Vec) : ∀ (j : Nat), (∀ i, i ≤ j → lane s i = 0) → segStart s j = none := by
  intro j
  induction j with
  | zero => intro h; simp [segStart, h 0]
  | succ j ih => intro h; simp [segStart, h (j+1), ih (fun i hi => h i (by omega))]

end Sys2Proof.Laws
end

