-- ==== Sys2Proof/Tests/Slice0.lean ====
section
/-!
SUPPORT. Tests/Slice0.lean: ill-formed commands refused, and for each statement with hypotheses states and operands that meet
them, clause by clause.
-/

open Sys2Proof Sys2Proof.Machine

set_option Elab.async false

namespace Sys2Proof.Tests

/-! ### Slots: a core of a running gang in region 0, every queue holding one entry -/

/-- Drawer 1 with DRAIN_READS 1, drawer 2 with DRAIN_READS 0 and its digest kept; a window on drawer 1, a ring, an update
entry; bank group 7 and the high accumulator half gated. -/
def wDecl : PartDecl :=
  { cores := 1, gateHi := true, gateGroups := 0x80
    drawers := [(1, { base := 0, slotRows := 2, slotCount := 2, drainReads := 1 }),
                (2, { base := 64, slotRows := 2, slotCount := 1, digest := true })]
    tags := [(1, { kind := 1, targ0 := 1 }), (2, { kind := 2 }), (4, { kind := 4 })] }

/-- What each queue holds: rows of ones, descriptors of a one-row write to core 0 of part 0, handles of drawer 1, then of drawer 9,
which is undeclared, of a later generation, and of drawer 2. -/
def wEntry (q : Nat) : Vec :=
  if q < 8 then vecOf (fun _ => 0x3F803F80#32) else if q < 16 then vecOf (fun _ => 0x3F800000#32)
  else if q < 24 then BitVec.ofNat 8192 (q - 16)
  else if q = 24 then BitVec.ofNat 8192 (2 ^ 125 + 2 ^ 57) else if q = 25 then BitVec.ofNat 8192 (2 * 2 ^ 125 + 2 ^ 57)
  else if q = 26 then BitVec.ofNat 8192 (2 ^ 125 + 65 * 2 ^ 57) else if q = 27 then BitVec.ofNat 8192 (2 ^ 125 + 2 ^ 57 + 2 ^ 95)
  else (mkHandle ([1, 9, 1, 2].getD (q - 28) 0) 0 (if q = 30 then 40000 else 0)).setWidth 8192

def wQueues : Tab Queue := (List.range 32).map (fun q => (q, { entries := [{ data := wEntry q, vis := true }] }))

/-- A core with those queues, the first row of drawer 1's and drawer 2's slot 0 written, and a token for each handle. -/
def wCore : Core :=
  { queues := wQueues
    sp := { slots := [(slotKey 1 0, { fill := 2, written := 3 }), (slotKey 2 0, { fill := 2, written := 3 })] }
    ni := { tokens := [mkToken 1 2 1 0 0 (mkHandle 1 0 0), mkToken 1 0 1 0 0 (mkHandle 2 0 0)] }
    cc := { hist := [(3, { ctr := (Vector.replicate 8 0).set 1 5, pred := 4 })] } }

/-- A module with such a core at site 0 of a running gang, which a part of two cores reaches, at position 40. -/
def wMod (c : Core) : Mod :=
  { regions := [(0, { dom := .awake, step := 8, viewValid := true, cycle := 100, decl := wDecl, site := [0]
                      run := { gang := 1, running := true }, seq := { pos := 41 } })]
    cores := [(0, c)]
    images := [{ id := 1, session := 1, interlocked := false, table := 0, rough := false, seed := 0, gstep := 0, parts := [wDecl], pages := [] }]
    placements := [{ g0 := 1, session := 1, image := 1, gangs := [{ id := 1, part := 0, region := 0, sites := [0], running := true }]
                     sigs := [], partners := [], savePages := [] }]
    desc := { fence := [(0, 0), (32, 0)] }
    nextGang := 2 }

def wState (c : Core) : State := { m := wMod c, pending := [] }

/-- A slot of a unit at position 40. -/
def slot (u : Fin 10) (w : Nat) : SlotOp :=
  { site := 0, unit := u, pos := 40, addr := 7, rider := 0, word := BitVec.ofNat 44 w, err := .ok }

/-- A slot word from its OP and the places of its other fields. -/
def word (o : Nat) (fs : List (Nat × Nat)) : Nat := o * 2 ^ 34 + (fs.map (fun f => f.2 * 2 ^ f.1)).sum

def ctxOf (m : Mod) (op : SlotOp) : Ctx :=
  match m.siteCtx op.site op.pos.toNat op.addr.toNat with
  | some x => bundleCtx (m.region (siteRegion op.site)) (slotCore m op) op x
  | none => m.ctx 0 0 0 0

def runsB (m : Mod) (op : SlotOp) : Bool :=
  (m.siteCtx op.site op.pos.toNat op.addr.toNat).isSome && slotEnabled (slotCore m op) op.unit.val (ctxOf m op).pos op.word &&
    slotHolds (ctxOf m op) true op.unit.val op.rider op.word (slotCore m op) == [] && op.err != .uncorrectable

theorem slotAround_ctxOf {m : Mod} {op : SlotOp} (h : (m.siteCtx op.site op.pos.toNat op.addr.toNat).isSome = true) :
    SlotAround m op (ctxOf m op) := by
  obtain ⟨x, hx⟩ := Option.isSome_iff_exists.1 h
  exact ⟨x, hx, by simp [ctxOf, hx]⟩

theorem slotRuns_ctxOf {m : Mod} {op : SlotOp} (h : runsB m op = true) : SlotRuns m op (ctxOf m op) := by
  simp only [runsB, Bool.and_eq_true, beq_iff_eq, bne_iff_ne] at h
  exact ⟨slotAround_ctxOf h.1.1.1, h.1.1.2, h.1.2, h.2⟩

/-- A slot command of `wMod c` executes, is well formed, and meets what else a clause asks of its core, surroundings and word. -/
def met (c : Core) (i : Instr) (p : Core → Ctx → SlotWord → Bool := fun _ _ _ => true) : Bool :=
  match slotRow i with
  | some op => runsB (wMod c) op && i.wf && p (slotCore (wMod c) op) (ctxOf (wMod c) op) op.word
  | none => false

theorem met_spec {c : Core} {i : Instr} {p : Core → Ctx → SlotWord → Bool} (h : met c i p = true) :
    ∃ op, slotRow i = some op ∧ SlotRuns (wMod c) op (ctxOf (wMod c) op) ∧ i.wf = true ∧
      p (slotCore (wMod c) op) (ctxOf (wMod c) op) op.word = true := by
  unfold met at h
  cases hr : slotRow i with
  | none => rw [hr] at h; cases h
  | some op =>
    simp only [hr, Bool.and_eq_true] at h
    exact ⟨op, rfl, slotRuns_ctxOf h.1.1, h.1.2, h.2⟩

/-- Every case of a list of hypotheses is met. -/
abbrev Cases (l : List Bool) : Prop := ∀ b ∈ l, b = true

/-! ### Ill-formed commands -/

/-- Slot commands with their unit and a word of their row: rows and the array. -/
def rowWords : List ((SlotOp → Instr) × Fin 10 × Nat) :=
  [(.rd, 0, word 1 []), (.rd, 1, word 1 []), (.wload, 2, word 1 [(26, 1)]), (.wloadt, 2, word 2 [(26, 10)]), (.wloadS, 2, word 3 [(26, 3)]),
   (.wswap, 2, word 4 []), (.mmul, 3, word 1 [(30, 1)]), (.acc, 4, word 1 []), (.accz, 4, word 2 []), (.accDrain, 4, word 5 []),
   (.accDrainz, 4, word 6 []), (.acczDrain, 4, word 7 []), (.acczDrainz, 4, word 8 []), (.drain, 4, word 3 []), (.drainz, 4, word 4 [])]

/-- Slot commands with their unit and a word: vector lanes. -/
def laneWords : List ((SlotOp → Instr) × Fin 10 × Nat) :=
  [(.vadd, 5, word 1 []), (.vsub, 6, word 2 []), (.vmul, 5, word 3 []), (.vfma, 6, word 4 []), (.vfma, 5, word 6 []), (.vmax, 5, word 7 []),
   (.vmin, 6, word 8 []), (.vcmp, 5, word 9 []), (.vsel, 6, word 0xA []), (.vcvt, 5, word 0xB []), (.vcvtMx, 6, word 0x33 []),
   (.vcvtMx, 5, word 0x3E []), (.vexp2, 5, word 0xC []), (.vlog2, 6, word 0xD []), (.vrsq, 5, word 0xE []), (.vrcp, 6, word 0xF []),
   (.vtanh, 5, word 0x10 []), (.vsig, 6, word 0x11 [])]

/-- Slot commands with their unit and a word: vector scans, reductions and permutations. -/
def crossWords : List ((SlotOp → Instr) × Fin 10 × Nat) :=
  [(.vscan, 5, word 0x12 []), (.vsegscan, 6, word 0x13 []), (.vargmax, 5, word 0x14 [(8, 16)]), (.vargmin, 6, word 0x15 [(8, 16)]),
   (.vmaxr, 5, word 0x16 []), (.vcompact, 6, word 0x17 []), (.vpermRot, 5, word 0x18 [(13, 1)]), (.vpermRev, 6, word 0x19 []),
   (.vpermXchg, 5, word 0x1A []), (.vpermBcast, 6, word 0x1B []), (.vpermZip, 5, word 0x1C []), (.vpermUnzip, 6, word 0x1D []),
   (.vpermFunnel, 5, word 0x20 [(29, 1)]), (.vpermFunneld, 6, word 0x2F []), (.vsrGet, 5, word 0x1E [(8, 16)]),
   (.vsrPut, 6, word 0x1F [(21, 32), (8, 28)]), (.vsrSum, 5, word 0x30 [(8, 16)]), (.vsrMax, 6, word 0x31 [(8, 16)]),
   (.vsrMin, 5, word 0x32 [(8, 16)])]

/-- Slot commands with their unit and a word: messages. -/
def netWords : List ((SlotOp → Instr) × Fin 10 × Nat) :=
  [(.wr, 7, word 1 []), (.send, 8, word 1 []), (.dowel, 8, word 2 []), (.recv, 8, word 3 []), (.wopen, 8, word 4 []), (.wclose, 8, word 5 []),
   (.upd, 8, word 6 [])]

/-- Slot commands with their unit and a word: the CC. -/
def ccWords : List ((SlotOp → Instr) × Fin 10 × Nat) :=
  [(.csetCounter, 9, word 1 []), (.csetComparator, 9, word 1 [(33, 1)]), (.cinc, 9, word 2 []), (.cloadCounterFromQueue, 9, word 3 []),
   (.cloadCounterFromWord, 9, word 3 [(31, 1)]), (.cloadPredicates, 9, word 3 [(31, 2)]), (.cloadPushWord, 9, word 3 [(31, 3)]),
   (.cloadPushHandle, 9, word 3 [(31, 4)]), (.cloadPushDescriptor, 9, word 3 [(31, 5)]), (.cloadWriteWord, 9, word 3 [(31, 6)]),
   (.cmpCounter, 9, word 4 []), (.cmpPredicate, 9, word 4 [(33, 1)]), (.waitwMonitor, 9, word 5 []), (.waitwPoll, 9, word 5 [(31, 1)]),
   (.incw, 9, word 6 [(0, 1)]), (.decw, 9, word 7 [(0, 1)]), (.waitl, 9, word 8 [])]

def slotWords : List ((SlotOp → Instr) × Fin 10 × Nat) := [rowWords, laneWords, crossWords, netWords, ccWords].flatten

/-- Every slot command accepts its own word and refuses another unit, another OP and an encoding fault (PRED 1). -/
theorem test_wf_slots : (slotWords.all (fun x =>
    (x.1 (slot x.2.1 x.2.2)).wf && !(x.1 (slot (if x.2.1 = 4 then 3 else 4) x.2.2)).wf &&
      !(x.1 (slot x.2.1 (x.2.2 % 2 ^ 34))).wf && !(x.1 (slot x.2.1 (x.2.2 + 2 ^ 40))).wf)) = true := by decide +kernel

/-- The selector that tells two rows of one OP apart. -/
theorem test_wf_selectors : ([
    Instr.csetCounter (slot 9 (word 1 [(33, 1)])), .csetComparator (slot 9 (word 1 [])), .cloadCounterFromQueue (slot 9 (word 3 [(31, 1)])),
    .cloadCounterFromWord (slot 9 (word 3 [])), .cloadPredicates (slot 9 (word 3 [])), .cloadPushWord (slot 9 (word 3 [])),
    .cloadPushHandle (slot 9 (word 3 [])), .cloadPushDescriptor (slot 9 (word 3 [])), .cloadWriteWord (slot 9 (word 3 [])),
    .cmpCounter (slot 9 (word 4 [(33, 1)])), .cmpPredicate (slot 9 (word 4 [])), .waitwMonitor (slot 9 (word 5 [(31, 1)])),
    .waitwPoll (slot 9 (word 5 [])), .loopSet 0 7 0 0, .loop 0 8 0 0].all (fun i => !i.wf)) = true := by decide +kernel

/-- A request to mailbox `b` with a body. -/
def req (b : Fin 32) (body : List Byte) : Req := { mb := b, flags := 0, tag := 7, body := body }

/-- A body longer than a mailbox's. -/
def long : Req := req 0 (List.replicate 2017 0)

/-- Every mailbox command refuses a body longer than 2,016 bytes. -/
theorem test_wf_bodies : ([Instr.hello long, .openSession long, .closeSession long, .installOwner long, .ownerProveNonce long,
    .ownerProveProof long, .supplyPufHelper long, .supplyIdentityCert long, .getDescriptor long, .getTopology long, .setPartition long,
    .linkDisable long, .linkEnable long, .linkChallenge long, .requireVerified long, .trustAnchor long, .stockAlloc long, .stockFree long,
    .stockMapHost long, .stockPin long, .stockUnpin long, .stockFill long, .wheelSet long, .programLoad long, .programUnload long,
    .gangPlace long, .gangPlaceRelease long, .gangStart long, .gangStop long, .gangPreempt long, .gangResume long, .gangStatus long,
    .clampRead long, .clampSetWord long, .clampSetRing long, .countersRead long, .traceConfig long, .digestRead long, .corePeek long,
    .stepStage long, .modeCommit long, .modeCommitWithdraw long, .envelopeSet long, .ceilingSet long, .telemetryRead long, .eventAck long,
    .logRead long, .fenceCore long, .safeHoldClear long, .eventPolicy long, .progressMarks long, .syncIo long, .bar2Window long,
    .getVersion (.attest long), .getCapabilities (.attest long), .negotiateAlgorithms (.attest long), .getDigests (.attest long),
    .getCertificate (.attest long) 0 0, .challenge (.attest long) (zeros 32), .getMeasurements (.attest long) (zeros 32) false 0,
    .spdmUnsupportedRequest (.attest long), .mailboxUnknownCommand 0 long].all (fun i => !i.wf)) = true := by decide +kernel

/-- The selector bytes that tell the rows of one command code apart. -/
theorem test_wf_bytes : ([Instr.ownerProveNonce (req 0 [1]), .ownerProveProof (req 0 [0]), .linkDisable (req 0 [1]), .linkEnable (req 0 [0]),
    .linkChallenge (req 0 [1]), .requireVerified (req 0 [4]), .trustAnchor (req 0 [3]), .stockPin (req 0 (zeros 13)),
    .stockUnpin (req 0 (zeros 12 ++ [1])), .gangPlace (req 0 [0, 0, 1]), .gangPlaceRelease (req 0 []), .clampSetWord (req 0 [1]),
    .clampSetRing (req 0 [0]), .modeCommit (req 0 (zeros 8 ++ [128])), .modeCommitWithdraw (req 0 (zeros 8 ++ [127])),
    .eventPolicy (req 0 [2]), .eventPolicy (req 0 [4]), .progressMarks (req 0 [1]), .syncIo (req 0 [2]), .bar2Window (req 0 [3]),
    .mailboxUnknownCommand 0x0001 (req 0 [])].all (fun i => !i.wf)) = true := by decide +kernel

/-- The lengths of the other commands' operands. -/
theorem test_wf_lengths : ([Instr.pufRegenerationDone 0 (zeros 63), .challenge .doe (zeros 31), .getMeasurements .mctp (zeros 33) false 0,
    .registerWrite 0 [], .registerWrite 0 (zeros 65), .registerWrite 4093 (zeros 4), .bar2Read 0 0, .bar2Read 4095 2, .bar2Write 0 [],
    .bar2Write 4095 (zeros 2), .sensorSample 0 (List.replicate 15 0) 0, .helloReceived 0 (zeros 127), .flitReceive 0 (zeros 255) false,
    .challengeReceived 0 (zeros 31) 0, .plugInsert 0 26, .safeHoldEntry 0, .safeHoldEntry 9].all (fun i => !i.wf)) = true := by decide +kernel

/-! ### Slots -/

def byHandle (x : Ctx) (c : Core) (w : SlotWord) (hq lo : Nat) : Nat × Nat :=
  checkHandle x.decl c ((c.head hq).setWidth 32) (sel w 26 lo)

theorem witness_CcCommandsComplete : Cases [
    met wCore (.csetCounter (slot 9 (word 1 [(30, 7), (0, 2 ^ 30 - 1)]))), met wCore (.csetComparator (slot 9 (word 1 [(33, 1), (31, 3), (28, 5)]))),
    met wCore (.cinc (slot 9 (word 2 [(30, 7), (0, 2 ^ 29)]))), met wCore (.cloadCounterFromQueue (slot 9 (word 3 [(28, 7), (27, 1), (9, 7)]))),
    met wCore (.cloadCounterFromWord (slot 9 (word 3 [(31, 1), (28, 7), (16, 2047)]))), met wCore (.cloadPredicates (slot 9 (word 3 [(31, 2)]))),
    met wCore (.cmpCounter (slot 9 (word 4 [(30, 7), (25, 3)]))), met wCore (.cmpPredicate (slot 9 (word 4 [(33, 1), (28, 2)]))),
    met wCore (.cloadPushWord (slot 9 (word 3 [(31, 3), (28, 7), (16, 2047)]))),
    met wCore (.cloadPushHandle (slot 9 (word 3 [(31, 4), (28, 3), (16, 0x780)]))) (fun _ x _ => (Tab.find x.decl.drawers 0).isNone),
    met wCore (.cloadPushHandle (slot 9 (word 3 [(31, 4), (16, 0x781)]))) (fun _ x _ => (Tab.find x.decl.drawers 1).isSome),
    met wCore (.cloadPushDescriptor (slot 9 (word 3 [(31, 5), (16, 2047)]))), met wCore (.cloadWriteWord (slot 9 (word 3 [(31, 6), (27, 1), (16, 0x781)])))] := by
  decide +kernel

/-- The core that a slot command leaves, when nothing else of the module changes. -/
def leavesB (c : Core) (i : Instr) : Bool :=
  match slotRow i, exec i (wState c) with
  | some op, .next t => decide (t = { wState c with m := (wMod c).setCore op.site (t.m.core op.site) })
  | _, _ => false

theorem witness_CcWritesSeenNextByCcAndSevenLaterByOthers : Cases ([
    Instr.csetCounter (slot 9 (word 1 [(30, 7)])), .csetComparator (slot 9 (word 1 [(33, 1)])), .cinc (slot 9 (word 2 [])),
    .cloadCounterFromQueue (slot 9 (word 3 [(27, 1)])), .cloadCounterFromWord (slot 9 (word 3 [(31, 1)])),
    .cloadPredicates (slot 9 (word 3 [(31, 2)])), .cmpCounter (slot 9 (word 4 [])), .cmpPredicate (slot 9 (word 4 [(33, 1)]))].map
      (fun i => met wCore i && leavesB wCore i)) := by decide +kernel

/-- The core with a monitor wait released, on a word armed. -/
def wReleased : Core := { wCore with ni := { wCore.ni with monitor := some { word := 5, rel := 0, val := 1, released := some true } } }

theorem witness_ClampOperations : Cases [
    met wCore (.incw (slot 9 (word 6 [(23, 0x780), (0, 1)]))) (fun _ x _ => !isCursor x.decl 0x780),
    met wCore (.decw (slot 9 (word 7 [(23, 2047), (0, 2 ^ 19 - 1)]))) (fun _ x _ => !isCursor x.decl 2047),
    met wCore (.waitwPoll (slot 9 (word 5 [(31, 1), (17, 5), (0, 4095)]))) (fun _ x _ => !isCursor x.decl 5),
    met wCore (.waitwMonitor (slot 9 (word 5 [(17, 5)]))) (fun c x _ => !isCursor x.decl 5 && c.ni.monitor.isNone),
    met wReleased (.waitwMonitor (slot 9 (word 5 [(17, 5), (0, 1)]))) (fun c x _ => !isCursor x.decl 5 && c.ni.monitor.isSome)] := by
  decide +kernel

theorem witness_ClampCountStaysInRange : ((0 : Int) ≤ clampCount (BitVec.ofNat 64 (2 ^ 47 - 2)) + 1 ∧
    (clampCount (BitVec.ofNat 64 (2 ^ 47 - 2)) : Int) + 1 ≤ 2 ^ 47 - 1) ∧ (clampCount (0 : W64) : Int) + -1 < 0 ∧
    (2 : Int) ^ 47 - 1 < clampCount (BitVec.ofNat 64 (2 ^ 47 - 1)) + 1 := by decide +kernel

theorem witness_CursorWordRefusesClampOperations : Cases [
    met wCore (.incw (slot 9 (word 6 [(23, 0x781), (0, 1)]))) (fun _ x _ => isCursor x.decl 0x781),
    met wCore (.decw (slot 9 (word 7 [(23, 0x782), (0, 1)]))) (fun _ x _ => isCursor x.decl 0x782),
    met wCore (.waitwMonitor (slot 9 (word 5 [(17, 0x781), (0, 4095)]))) (fun _ x _ => isCursor x.decl 0x781),
    met wCore (.waitwPoll (slot 9 (word 5 [(31, 1), (17, 0x782)]))) (fun _ x _ => isCursor x.decl 0x782)] := by decide +kernel

theorem witness_WaitlConsumesOldestToken : Cases [
    met wCore (.waitl (slot 9 (word 8 [(31, 1), (30, 1), (27, 7)]))), met wCore (.waitl (slot 9 (word 8 [(32, 3)])))] := by decide +kernel

theorem witness_ReadsAndWritesMoveRows : Cases [
    met wCore (.rd (slot 0 (word 1 [(16, 14335)]))) (fun _ x _ => !rowGated x.decl 14335),
    met wCore (.rd (slot 1 (word 1 [(16, 14336)]))) (fun _ x _ => rowGated x.decl 14336),
    met wCore (.rd (slot 0 (word 1 [(30, 1), (27, 1), (16, 1)]))) (fun c x w => byHandle x c w 28 16 == (0, 1)),
    met wCore (.rd (slot 0 (word 1 [(30, 1), (28, 3)]))) (fun c x w => byHandle x c w 31 16 == (0, 64)),
    met wCore (.rd (slot 0 (word 1 [(30, 1), (28, 1)]))) (fun c x w => (byHandle x c w 29 16).1 == 1),
    met wCore (.rd (slot 0 (word 1 [(30, 1), (16, 2)]))) (fun c x w => (byHandle x c w 28 16).1 == 2),
    met wCore (.rd (slot 0 (word 1 [(30, 1), (28, 2)]))) (fun c x w => (byHandle x c w 30 16).1 == 3),
    met wCore (.wr (slot 7 (word 1 [(29, 1), (14, 14335)]))) (fun _ x _ => !rowGated x.decl 14335),
    met wCore (.wr (slot 7 (word 1 [(30, 15), (14, 14334)]))) (fun _ x _ => !rowGated x.decl 14334 && !rowGated x.decl 14335),
    met wCore (.wr (slot 7 (word 1 [(30, 8), (28, 1)]))) (fun c x w => byHandle x c w 28 14 == (0, 0)),
    met wCore (.wr (slot 7 (word 1 [(30, 8), (28, 1), (14, 1)]))) (fun c x w => (byHandle x c w 28 14).1 == 0),
    met wCore (.wr (slot 7 (word 1 [(28, 1), (26, 1)]))) (fun c x w => (byHandle x c w 29 14).1 == 1)] := by decide +kernel

theorem witness_GatedWriteDiscarded : Cases [
    met wCore (.wr (slot 7 (word 1 [(14, 14336)]))) (fun _ x _ => rowGated x.decl 14336)] := by decide +kernel

/-- A slot of a running gang's core, enabled or not, whose conditions are met or not. -/
def around (c : Core) (i : Instr) (enabled held : Bool) : Bool :=
  match slotRow i with
  | some op =>
    let m := wMod c
    let x := ctxOf m op
    (m.siteCtx op.site op.pos.toNat op.addr.toNat).isSome && i.wf && (slotEnabled (slotCore m op) op.unit.val x.pos op.word == enabled) &&
      ((slotHolds x true op.unit.val op.rider op.word (slotCore m op) != []) == held)
  | none => false

theorem witness_DisabledSlotPerformsNothing :
    Cases (slotWords.map (fun x => around {} (x.1 (slot x.2.1 (x.2.2 + 8 * 2 ^ 40))) false false)) := by decide +kernel

theorem witness_HeldSlotPerformsNothing : Cases [
    around {} (.rd (slot 0 (word 1 [(30, 1)]))) true true, around {} (.vadd (slot 5 (word 1 []))) true true,
    around {} (.waitwMonitor (slot 9 (word 5 [(17, 5), (0, 1)]))) true true,
    around { ni := { monitor := some { word := 5, rel := 0, val := 1 } } } (.waitwMonitor (slot 9 (word 5 [(17, 5), (0, 1)]))) true true] := by
  decide +kernel

/-! ### Vector slots -/

/-- Every vector command, each type and form that a statement treats apart. -/
def laneForms : List (Instr × Nat) :=
  [(.vadd (slot 5 (word 1 [])), 0), (.vsub (slot 5 (word 2 [])), 0), (.vmul (slot 6 (word 3 [])), 0), (.vadd (slot 5 (word 1 [(32, 2)])), 2),
   (.vsub (slot 5 (word 2 [(32, 1)])), 1), (.vmul (slot 6 (word 3 [(32, 2)])), 2), (.vmax (slot 5 (word 7 [])), 0), (.vmin (slot 5 (word 8 [])), 0),
   (.vmax (slot 5 (word 7 [(32, 3)])), 3), (.vmin (slot 6 (word 8 [(32, 1)])), 1), (.vcmp (slot 5 (word 9 [(29, 5)])), 0),
   (.vsel (slot 5 (word 0xA [])), 0), (.vfma (slot 5 (word 4 [])), 0), (.vfma (slot 5 (word 5 [])), 0), (.vfma (slot 6 (word 6 [])), 0)]

theorem witness_VectorLaneResults : Cases (
    laneForms.map (fun p => met wCore p.1 (fun _ _ w => p.2 == 0 || (vslot w).type == p.2)) ++
    [Instr.vexp2 (slot 5 (word 0xC [])), .vlog2 (slot 6 (word 0xD [])), .vrsq (slot 5 (word 0xE [])), .vrcp (slot 6 (word 0xF [])),
      .vtanh (slot 5 (word 0x10 [])), .vsig (slot 6 (word 0x11 []))].map (fun i => met wCore i)) := by decide +kernel

theorem witness_VectorPermutationsAndScalars : Cases (
    [Instr.vpermRot (slot 5 (word 0x18 [(13, 255)])), .vpermRev (slot 5 (word 0x19 [])), .vpermXchg (slot 5 (word 0x1A [(13, 7)])),
      .vpermBcast (slot 5 (word 0x1B [(13, 255)])), .vpermZip (slot 5 (word 0x1C [(29, 1)])), .vpermUnzip (slot 5 (word 0x1D [(29, 1)])),
      .vpermFunnel (slot 5 (word 0x27 [(32, 3), (29, 7)])), .vpermFunneld (slot 5 (word 0x28 [(29, 1)])), .vcompact (slot 5 (word 0x17 [])),
      .vsrSum (slot 5 (word 0x30 [(8, 16)])), .vsrSum (slot 5 (word 0x30 [(32, 1), (8, 16)])), .vsrMax (slot 5 (word 0x31 [(8, 17)])),
      .vsrMin (slot 5 (word 0x32 [(8, 23)])), .vsrGet (slot 5 (word 0x1E [(8, 16), (0, 3)]))].map (fun i => met wCore i) ++
    [met wCore (.vsrPut (slot 5 (word 0x1F [(21, 62), (8, 28)]))) (fun _ _ w => decAB (vslot w).a == some (.scal 23 true))]) := by decide +kernel

/-- A VCVT word for a target of Table 5.4, with a destination that the target takes. -/
def cvtWord (t : Nat) : Nat :=
  word 0xB [(32, t / 8), (29, t % 8), (8, if t ≤ 2 || (7 ≤ t && t ≤ 11) then 0 else if t = 5 then 28 else 8)]

theorem witness_VectorConversionResults : Cases (
    (List.range 22).map (fun t => met wCore (.vcvt (slot 5 (cvtWord t))) (fun _ _ w => 8 * (vslot w).type + (vslot w).var == t)) ++
    (List.range 12).map (fun k => met wCore (.vcvtMx (slot 6 (word (0x33 + k) [(8, if k % 6 = 4 then 12 else 0)])))
      (fun _ _ w => (vslot w).vop == 0x33 + k))) := by decide +kernel

theorem witness_VectorScansAndReductions : Cases (
    [Instr.vscan (slot 5 (word 0x12 [(0, 3)])), .vscan (slot 5 (word 0x12 [(32, 2), (29, 5)])), .vsegscan (slot 6 (word 0x13 [])),
      .vsegscan (slot 6 (word 0x13 [(13, 96)])), .vargmax (slot 5 (word 0x14 [(8, 16)])), .vargmin (slot 5 (word 0x15 [(29, 4), (8, 16)])),
      .vmaxr (slot 5 (word 0x16 [])), .vmaxr (slot 5 (word 0x16 [(29, 4)]))].map (fun i => met wCore i)) := by decide +kernel

theorem witness_VectorResultsDelivered :
    (let x := vslot (BitVec.ofNat 44 (word 1 [(8, 24)])); vopScalarOut x.vop = false ∧ vdst x = .tile 0) ∧
    (let x := vslot (BitVec.ofNat 44 (word 1 []))
     riderOf 0 5 = none ∧ vscalarDst x = none ∧ vdst x = .queue 8 ∧ vopScalarOut x.vop = false) ∧
    (let x := vslot (BitVec.ofNat 44 (word 0x31 [(8, 17)])); vscalarDst x = none ∧ vdst x = .queue 17 ∧ vopScalarOut x.vop = true) := by
  decide +kernel

/-! ### The array -/

/-- The core with a plane in the shadow and a load in progress. -/
def wLoading (fmt : Nat) (trans : Bool) (l : Option PlaneLoad) : Core :=
  { wCore with arr := { plane1 := { fmt := fmt, trans := trans }, load := l, complete := l.isNone } }

/-- A load of format 1 with every index but the first written. -/
def wAlmost : PlaneLoad := { fmt := 1, trans := some false, idx := BitVec.ofNat 256 (2 ^ 128 - 2), parts := 0 }

def wDue : Core := { wCore with arr := { complete := false, completeDue := some 100 } }

theorem witness_PlaneLoads : Cases [
    met (wLoading 8 false none) (.wload (slot 2 (word 1 [(26, 8), (18, 63)]))), met (wLoading 9 true none) (.wloadt (slot 2 (word 2 [(26, 9), (18, 64)]))),
    met (wLoading 7 false none) (.wload (slot 2 (word 1 [(26, 7), (18, 128)]))), met (wLoading 10 true none) (.wloadt (slot 2 (word 2 [(26, 10), (18, 255)]))),
    met (wLoading 3 false none) (.wloadS (slot 2 (word 3 [(26, 3), (18, 3), (30, 1)]))), met wCore (.wload (slot 2 (word 1 [(26, 1)]))),
    met (wLoading 1 false (some wAlmost)) (.wload (slot 2 (word 1 [(26, 1)]))), met (wLoading 1 false (some wAlmost)) (.wloadt (slot 2 (word 2 [(26, 1)]))),
    met (wLoading 1 false (some wAlmost)) (.wload (slot 2 (word 1 [(26, 8)]))), met (wLoading 1 false (some wAlmost)) (.wloadS (slot 2 (word 3 [(26, 3)]))),
    ((wMod wDue).core 0).arr.completeDue == some 100 && decide (100 ≤ ((wMod wDue).region 0).cycle)] := by decide +kernel

theorem witness_SwapExchangesPlanes : Cases [
    met wCore (.wswap (slot 2 (word 4 []))) (fun c x _ => c.arr.swapCycle != some x.cycle)] := by decide +kernel

/-- The core with BF16 ones in the first two rows of a plane in use of a format, and a row of BF16 elements at the head of Q0. -/
def wMul (fmt : Nat) (x : Nat) : Core :=
  { wCore with
    queues := Tab.set wQueues 0 { entries := [{ data := BitVec.ofNat 8192 x, vis := true }] }
    arr := { plane0 := { fmt := fmt, rows := { cells := [(0, (wEntry 0).setWidth 4096), (1, (wEntry 0).setWidth 4096)] } } } }

/-- The products of column 0 for a row of BF16 elements. -/
def wProd (c : Core) (k : Nat) : Fv :=
  ((decBF16 (elem 16 ((c.head 0).setWidth 4096 : Row) k).toNat).mul (planeAt c.arr.plane0 k 0)).mul
    ((Fv.fin false 1 0).mul (planeScale c.arr.plane0 (k / 32) 0))

theorem witness_MultiplyLeavesExactSlices : Cases [
    met (wMul 0 0) (.mmul (slot 3 (word 1 [(30, 10)]))), met (wMul 1 0) (.mmul (slot 3 (word 1 [(30, 10)]))),
    met (wMul 8 0) (.mmul (slot 3 (word 1 [(30, 8), (27, 1), (25, 1)]))),
    met (wMul 10 0x7FC0) (.mmul (slot 3 (word 1 [(30, 10)]))) (fun c _ _ => wProd c 0 == .nan),
    met (wMul 10 0xFF807F80) (.mmul (slot 3 (word 1 [(30, 10)]))) (fun c _ _ => wProd c 0 == .inf false && wProd c 1 == .inf true),
    met (wMul 10 0xFF80) (.mmul (slot 3 (word 1 [(30, 10)]))) (fun c _ _ => wProd c 0 == .inf true &&
      (List.range 256).all (fun k => wProd c k != .nan && wProd c k != .inf false)),
    met (wMul 10 (2 ^ 4096 - 1 - 0x7FFF)) (.mmul (slot 3 (word 1 [(30, 10)]))),
    met (wMul 10 0x80008000) (.mmul (slot 3 (word 1 [(30, 10)]))) (fun c _ _ => (List.range 256).all (fun k => (wProd c k).isFin))] := by
  decide +kernel

/-- A column list whose first value is finite or infinite. -/
def wCols (inf : Bool) : List Fv := (if inf then .inf false else .fin true 3 (-1)) :: List.replicate 255 (.fin false 1 0)

/-- The core with an accumulation due and one that is not. -/
def wAcc (half replace : Bool) : Mod :=
  let p (due : Nat) : PendAcc := { due := due, row := 5, vals := wEntry 8, replace := replace, sumSr := false, seed := 0, slice := 0 }
  let m := wMod { wCore with arr := { pend := [p 101, p 100] } }
  m.onRegion 0 (fun g => { g with decl := { g.decl with halfWidth := half } })

theorem witness_AccumulationsBeginAndWrite : Cases ([
    (List.range 256).any (fun n => !isFinF (encF32 .rne ((wCols true).getD n .nan))),
    (List.range 256).all (fun n => isFinF (encF32 .rne ((wCols false).getD n .nan))),
    !accGated wDecl 511, accGated wDecl 512] ++
    [wAcc false false, wAcc false true, wAcc true false].map (fun m => (m.region 0).coreOf 0 == some 0 &&
      match (m.core 0).arr.pend with
      | [q, p] => decide (p.due ≤ (m.region 0).cycle) && decide ((m.region 0).cycle < q.due)
      | _ => false)) := by decide +kernel

/-- The core with an MMUL's slices of the bundle. -/
def wLatch (n : Nat) : Core := { wCore with arr := { latch := some { cols := List.replicate n (wCols false), bf16 := false } } }

theorem witness_AccumulateAndRider : Cases ([1, 2].flatMap (fun n => [
    met (wLatch n) (.acc (slot 4 (word 1 []))) (fun c _ _ => c.arr.latch.any (fun l => l.cols.length == n)), met (wLatch n) (.accz (slot 4 (word 2 []))),
    met (wLatch n) (.accDrain (slot 4 (word 5 [(7, 9)]))), met (wLatch n) (.accDrainz (slot 4 (word 6 [(7, 9)]))),
    met (wLatch n) (.acczDrain (slot 4 (word 7 [(7, 9)]))), met (wLatch n) (.acczDrainz (slot 4 (word 8 [(7, 9)])))]) ++
    [met wCore (.acc (slot 4 (word 1 [(33, 1), (31, 3), (30, 1)]))), met wCore (.drain (slot 4 (word 3 [(7, 512)]))),
     met wCore (.drainz (slot 4 (word 4 [(7, 511), (5, 3)])))]) := by decide +kernel

/-! ### Messages -/

/-- The core with 64 tokens. -/
def wFull : Core := { wCore with ni := { tokens := List.replicate 64 0 } }

/-- The core with a DOWEL to a core that no part has. -/
def wFar : Core := { wCore with queues := Tab.set wQueues 25 { entries := [{ data := BitVec.ofNat 8192 (2 * 2 ^ 125 + 2 ^ 95), vis := true }] } }

/-- What SEND and DOWEL check of the descriptor at a queue, for a handle or a row: form, length, destination, source, generation. -/
def checks (x : Ctx) (c : Core) (dowel sk : Bool) (nq sq : Nat) : Nat × Nat :=
  sendCheck x c dowel sk ((c.head nq).setWidth 128) ((c.head sq).setWidth 32)

theorem witness_SendsEnterTransmitList : Cases [
    met wCore (.send (slot 8 (word 1 [(32, 1)]))) (fun c x _ => checks x c false false 25 0 == (1, 6)),
    met wCore (.send (slot 8 (word 1 [(32, 1), (30, 1)]))) (fun c _ _ => decide (c.ni.tokens.length < 64) && c.ni.tokWait.isEmpty),
    met wFull (.send (slot 8 (word 1 [(32, 1), (30, 1)]))) (fun c _ _ => decide (64 ≤ c.ni.tokens.length)),
    met wCore (.send (slot 8 (word 1 [(32, 2)]))) (fun c x _ => checks x c false false 26 0 == (2, 1)),
    met wCore (.send (slot 8 (word 1 [(32, 3)]))) (fun c x _ => checks x c false false 27 0 == (3, 2)),
    met wCore (.send (slot 8 (word 1 [(30, 1), (27, 1)]))) (fun c x _ => checks x c false true 24 29 == (4, 2)),
    met wCore (.send (slot 8 (word 1 [(30, 1), (27, 2)]))) (fun c x _ => checks x c false true 24 30 == (4, 4)),
    met wCore (.send (slot 8 (word 1 [(31, 1), (26, 1)]))) (fun c x _ => checks x c false false 24 0 == (0, 0)),
    met wCore (.send (slot 8 (word 1 [(30, 1)]))) (fun c x _ => checks x c false true 24 28 == (0, 0)),
    met wCore (.dowel (slot 8 (word 2 []))) (fun c x _ => checks x c true false 24 0 == (1, 6)),
    met wFar (.dowel (slot 8 (word 2 [(32, 1)]))) (fun c x _ => checks x c true false 25 0 == (3, 2)),
    met wCore (.dowel (slot 8 (word 2 [(32, 1), (31, 1), (28, 7)]))) (fun c x _ => checks x c true false 25 0 == (0, 0))] := by
  decide +kernel

theorem witness_WindowsRequestsAndUpdates : Cases [
    met wCore (.recv (slot 8 (word 3 [(26, 2), (20, 3)]))) (fun _ x _ => (Tab.find x.decl.tags 2).any (·.kind == 2)),
    met wCore (.recv (slot 8 (word 3 [(26, 1)]))) (fun _ x _ => (Tab.find x.decl.tags 1).any (·.kind == 1)),
    met wCore (.wopen (slot 8 (word 4 [(26, 1), (23, 1)]))) (fun c x _ => wopenOk x c 1 ((c.head 28).setWidth 32)),
    met wCore (.wopen (slot 8 (word 4 [(26, 1), (24, 1)]))) (fun c x _ => !wopenOk x c 1 ((c.head 29).setWidth 32)),
    met wCore (.wopen (slot 8 (word 4 [(26, 1), (24, 2)]))) (fun c x _ => !wopenOk x c 1 ((c.head 30).setWidth 32)),
    met wCore (.wopen (slot 8 (word 4 [(26, 3)]))) (fun _ x _ => (Tab.find x.decl.tags 3).isNone),
    met wCore (.wclose (slot 8 (word 5 [(26, 1)]))), met wCore (.wclose (slot 8 (word 5 [(26, 255)]))),
    met wCore (.upd (slot 8 (word 6 [(30, 1)]))) (fun c x _ => (handleDecl x.decl ((c.head 28).setWidth 32)).any (fun d => decide (2 ≤ d.slotRows))),
    met wCore (.upd (slot 8 (word 6 [(28, 1)]))) (fun c x _ => (handleDecl x.decl ((c.head 29).setWidth 32)).isNone)] := by decide +kernel

/-! ### The sequencer -/

/-- The state of the slot tests with its region changed. -/
def wRun (f : Region → Region) (c : Core := wCore) : State := { m := (wMod c).onRegion 0 f, pending := [] }

def mayIssueB (g : Region) : Bool :=
  g.run.running && g.dom == .awake && g.viewValid && g.switching == 0 && g.seq.stopping.isNone && !seqHeld g &&
    (match g.seq.pipe.getLast? with
      | some b => decide (b.sched < g.cycle + 12)
      | none => true) && [Wait.none, .ready, .stock, .digest].contains g.seq.wait

theorem mayIssue_of {g : Region} (h : mayIssueB g = true) : MayIssue g := by
  simp only [mayIssueB, Bool.and_eq_true, beq_iff_eq, List.contains_iff_mem, List.mem_cons, List.not_mem_nil, or_false,
    Bool.not_eq_true', Option.isNone_iff_eq_none] at h
  obtain ⟨⟨⟨⟨⟨⟨⟨h1, h2⟩, h3⟩, h4⟩, h5⟩, h6⟩, h7⟩, h8⟩ := h
  refine ⟨h1, h2, h3, h4, h5, h6, fun b hb => ?_, h8⟩
  rw [hb] at h7
  simpa using h7

/-- A header command whose region may issue, well formed, with what else a clause asks of its region. -/
def issues (s : State) (i : Instr) (p : Region → Bool := fun _ => true) : Bool := mayIssueB (s.m.region 0) && i.wf && p (s.m.region 0)

/-- The region with loop register 7 holding a number, at position 41. -/
def wLoop (n : W32) : State := wRun (fun g => { g with seq := { g.seq with loops := g.seq.loops.set 7 n } })

/-- Predicate 2 of the one core is set at position 3, predicate 1 is not. -/
def wPred (n : Nat) (s : State) : Bool := bit (regsAt (s.m.core 0).cc.hist ((s.m.region 0).seq.pos - 32)).pred n

theorem witness_SequencerControl : Cases [
    issues (wLoop 0) (.loopSet 0 15 9 0), issues (wLoop 1) (.loop 0 7 0 0x7FFF) (fun g => (g.seq.loops[7]?.getD 0) - 1 == 0),
    issues (wLoop 0) (.loop 0 7 0 0x7FFF) (fun g => (g.seq.loops[7]?.getD 0) - 1 != 0), issues (wLoop 0) (.br 0 3 0 5),
    issues (wLoop 0) (.br 0 4 2 5) && wPred 2 (wLoop 0), issues (wLoop 0) (.br 0 8 1 5) && !wPred 1 (wLoop 0),
    issues (wLoop 0) (.br 0 12 1 5) && !wPred 1 (wLoop 0), issues (wLoop 0) (.br 0 12 2 5) && wPred 2 (wLoop 0),
    issues (wLoop 0) (.step 0 0 0 0), issues (wLoop 0) (.step 0 1 0xFFFFFFFF 0), issues (wLoop 0) (.curve 0 0 0x02010000 0)] := by decide +kernel

/-- A kerf interval with a target. -/
def wKerf (target : Nat) (f : Region → Region := id) : State :=
  wRun (fun g => f { g with view := 1000 * 65536, seq := { g.seq with interval := some { ticks := true, len := 10, target := target, eclass := 0 } } })

def wPreempting (g : Region) : Region := { g with run := { g.run with preempting := true } }

def wResuming (g : Region) : Region := { g with seq := { g.seq with resumeIssue := true } }

theorem witness_KerfHoldsAndBegins : Cases [
    issues (wKerf 999) (.kerf 0 1 10 0) (fun g => g.seq.interval.isSome), issues (wKerf 1000) (.kerf 0 1 10 0) (fun g => g.seq.interval.isSome),
    issues (wKerf 1001) (.preemptPoint 0 1 10 0) (fun g => g.seq.interval.isSome && !g.seq.resumeIssue && !g.run.preempting),
    issues (wRun wPreempting) (.preemptPoint 0 1 10 0) (fun g => g.run.preempting && !g.seq.resumeIssue),
    issues (wRun id) (.kerf 0 1 10 0) (fun g => g.seq.interval.isNone && g.dig.pending.length == 0), issues (wRun id) (.kerf 0 0 0 0),
    issues (wKerf 1001 wResuming) (.preemptPoint 0 1 10 0) (fun g => g.seq.resumeIssue),
    issues (wRun id) (.preemptPoint 0 0 10 0) (fun g => !g.run.preempting && g.seq.interval.isNone)] := by decide +kernel

/-- A region that runs, and waits. -/
def waits (s : State) (w : Wait) (p : Region → Bool := fun _ => true) : Bool :=
  let g := s.m.region 0
  g.run.running && g.dom == .awake && g.viewValid && g.switching == 0 && g.seq.stopping.isNone && g.seq.wait == w && p g

/-- Held at a kerf end, with the highest temperature and the warnings of the interval. -/
def wHeld (target temp warns : Nat) : State :=
  wKerf target (fun g => { g with seq := { g.seq with wait := .kerf }, step := 4, run := { g.run with admitted := 5 }
                                  tmaxInterval := temp, warnInterval := warns, cyclesInterval := 1024 })

def wWait (w : Wait) (base : Nat) : State :=
  wRun (fun g => { g with view := 1000 * 65536, seq := { g.seq with wait := w, kerfBase := base } })

/-- The queue to the stock engine with a number of descriptors. -/
def wQueued (n : Nat) : State := wRun (fun g => { g with eng := { g.eng with queue := List.replicate n { addr := 0, desc := 0, v := 0, exec := 0 } } })

theorem witness_ReleasesAndLaunches : Cases ([(9500, 0), (8999, 0), (8999, 1), (8999, 2)].map (fun p =>
      waits (wHeld 1000 p.1 p.2) .kerf (fun g => g.seq.interval.any (fun v => decide (v.target ≤ g.ticks)) && !g.pendingChange && !g.reprMode)) ++ [
    waits (wWait .first 1000) .first (fun g => decide (g.seq.kerfBase ≤ g.ticks)), waits (wWait .first 1001) .first (fun g => decide (g.ticks < g.seq.kerfBase)),
    waits (wWait (.launch 1000) 0) (.launch 1000) (fun g => decide (1000 ≤ g.ticks)), issues (wWait .none 990) (.launch 0 0 11 0) (fun g => decide (g.ticks < 1001)),
    issues (wWait .ready 900) (.launch 0 0 11 0), issues (wWait .none 990) (.launch 0 0 10 0) (fun g => g.ticks == 1000),
    issues (wWait .none 989) (.launch 0 0 10 0) (fun g => decide (999 < g.ticks)),
    issues (wQueued 2047) (.stock 0 1 0 0) (fun g => decide (g.eng.queue.length + 1 ≤ 2048)),
    issues (wQueued 2047) (.stock 0 0 512 0) (fun g => decide (2048 < g.eng.queue.length + 2))]) := by decide +kernel

/-- The region with a bundle at its address, a store of one bundle. -/
def wBundle (b : Nat) (f : Region → Region := id) : State :=
  wRun (fun g => f { g with decl := { g.decl with bundleCount := 1, bundles := { cells := [(0, BitVec.ofNat 512 b)] } } })

/-- A bundle whose CC slot sets a counter, repeated once, one whose MX slot multiplies, and one with a WAITW that must wait. -/
def wSet : Nat := 2 ^ (72 + 44 * 9 + 34) + 2 ^ 9
def wMx : Nat := 2 ^ (72 + 44 * 3 + 34) + 2 ^ (72 + 44 * 3 + 30)
def wMonitor : Nat := 2 ^ (72 + 44 * 9) * word 5 [(17, 5), (0, 1)]
def wEmpty : Nat := 2 ^ (72 + 34) + 2 ^ (72 + 30)

/-- A bundle issued and not executed. -/
def wIssued (b : Nat) (sched : Nat) (ready : Option (Option Nat)) : State := wRun (fun g => { g with seq := { g.seq with
  pipe := [{ addr := 0, pos := 40, bundle := BitVec.ofNat 512 b, sched := sched, ready := ready }] } }) {}

theorem witness_BundlesIssueAndCheck : Cases ([
    issues (wBundle wSet) (.bundleIssue 0 .ok) (fun g => !bundleBad g.decl 0 (g.decl.bundles.get 0) && bSop (g.decl.bundles.get 0) == 0 && !g.run.stalled && !g.trace.on),
    issues (wBundle wSet (fun g => { g with seq := { g.seq with repDone := 1 } })) (.bundleIssue 0 (.corrected 1)),
    issues (wBundle (10 * 2 ^ 68)) (.bundleIssue 0 .ok) (fun g => bundleBad g.decl 0 (g.decl.bundles.get 0)),
    issues (wBundle wMx (fun g => { g with seq := { g.seq with lastMmulBf16 := some 38 } })) (.bundleIssue 0 .ok)
      (fun g => decide (g.seq.pos ≤ 41) && bundleMmul (g.decl.bundles.get 0)), issues (wBundle wSet) (.bundleIssue 0 .uncorrectable)] ++
    [(wIssued wSet 106 none, true, true), (wIssued wMonitor 106 none, false, false), (wIssued wMonitor 100 (some none), false, false),
     (wIssued wSet 100 (some none), true, true)].map (fun p =>
      let g := p.1.m.region 0
      match g.seq.pipe with
      | [b] =>
        let hs := p.1.m.checkAll 0 (if b.ready = none then max b.sched g.cycle else max b.sched (g.cycle + 6)) [] b
        g.run.running && (b.ready != none || decide (max b.sched g.cycle ≤ g.cycle + 6)) && (hs.all (fun h => !h.external) == p.2.1) &&
          (hs.all (fun h => h.ready != none) == p.2.2)
      | _ => false)) := by decide +kernel

/-! ### Ends and pre-emptions -/

/-- A gang whose issue has stopped with a status. -/
def wStopping (st : Nat) : State := wRun (fun g => { g with seq := { g.seq with stopping := some st } })

def wUnsettled : State := wRun (fun g => { g with run := { g.run with running := false, ended := true, settled := false, status := 3 } })

/-- A job of mailbox 3, and a gang waiting at its PREEMPT_POINT or resumed. -/
def wJob (k : JobKind) (f : Region → Region) (running : Bool) : State :=
  let s := wRun f
  { s with m := { s.m with
      placements := s.m.placements.map (fun p => { p with gangs := p.gangs.map (fun g => { g with running := running }) })
      jobs := [{ mb := 3, session := 1, seq := 9, command := 0x35, tag := 7, quiet := false, kind := k }] } }

def wAtPoint : State := wJob (.preempt 1) (fun g => { g with run := { g.run with preempting := true }, seq := { g.seq with wait := .preempt } }) true

def resumeOf (s : State) : Option Job := s.m.jobs.find? (fun x => x.mb == 3 && (match x.kind with
  | .resume .. => true
  | _ => false))

theorem witness_GangsEndAndPreempt : Cases ([
    issues (wRun id) (.endOp 0 0 0 0) (fun g => decide (g.dig.pending.length < 4)),
    !(wUnsettled.m.region 0).run.running && !(wUnsettled.m.region 0).run.settled && workSettled 0 wUnsettled.m,
    match wAtPoint.m.placement 1 with
      | some p => p.gangs.all (partQuiescent wAtPoint.m) && p.gangs.length == 1 && wAtPoint.m.jobs.any (fun j => j.kind == .preempt 1)
      | none => false] ++
    [0, 1].map (fun st => let g := (wStopping st).m.region 0
      g.run.running && g.seq.stopping == some st && g.seq.pipe.isEmpty && g.site.all (fun x => coreIdle ((wStopping st).m.core x))) ++
    [(wJob (.resume 1 5) id true, true, false), (wJob (.resume 1 5) id false, false, false), (wJob (.resume 1 5) wResuming true, true, true)].map (fun p =>
      (resumeOf p.1).any (fun j => j.kind == .resume 1 5) && match p.1.m.placement 1 with
        | some q => q.gangs.all (fun x => x.running == p.2.1 && (p.1.m.region x.region).seq.resumeIssue == p.2.2)
        | none => false)) := by decide +kernel

/-! ### Stock -/

/-- A descriptor from the places of its fields, in bytes. -/
def desc (fs : List (Nat × Nat)) : Bundle := BitVec.ofNat 512 (fs.map (fun f => f.2 * 2 ^ (8 * f.1))).sum

/-- The region's engine changed, page 0 of its session valid, resident and writable, page 1 valid and pageable with a host backing. -/
def wEng (f : Engine → Engine) (c : Core := wCore) : State :=
  let s := wRun (fun g => { g with eng := f g.eng }) c
  { s with m := { s.m with alloc := { pt := [(pteKey 0 0, 0xC800000000000000#64), (pteKey 0 1, 0xA800000000000000#64)], hostMap := [(0, 0x1000)] } } }

/-- A row descriptor for the one core: LOAD, with fields replaced. -/
def wDesc (d : Bundle) : State := wEng (fun e => { e with queue := [{ addr := 3, desc := d, v := 2, exec := 40 }] })

def load (len count sa : Nat) : List (Nat × Nat) := [(0, 1), (2, len), (6, count), (8, sa)]

theorem witness_DescriptorsTaken : Cases (
    [(desc [(0, 3)], 6), (desc (load 0 1 0), 1), (desc (load 1 2 0), 2), (desc (load 16385 1 0), 2), (desc (load 3 1 0 ++ [(1, 1), (32, 2 ^ 26)]), 2),
     (desc (load 1 1 256), 3), (desc (load 1 1 (2 ^ 22)), 3), (desc (load 129 1 0), 0), (desc (load 1 1 512 ++ [(1, 3), (32, 2 ^ 26)]), 0),
     (desc ([(0, 2), (2, 4096), (6, 1), (0x10, 512)]), 0)].map (fun p =>
      let s := wDesc p.1
      match (s.m.region 0).eng.queue with
      | [x] => descCheck s.m 0 x == p.2 && (s.m.region 0).eng.xfers.isEmpty && s.m.aon.state != .safeHold
      | _ => false)) := by decide +kernel

/-- A transfer of one descriptor's rows to or from core 0. -/
def wXfer (id : Nat) (store tagged : Bool) (sa rows : Nat) : Xfer :=
  { id := id, store := store, sa := sa, cstride := 0, left := rows, tagged := tagged
    pieces := [{ desc := 9, core := 0, count := 1, row := 0, rows := rows }] }

/-- The descriptor job of those transfers, loose from row 100 on, or through drawer 1's slot. -/
def wDescJob (store tmode : Bool) (left : Nat) : DescJob :=
  { id := 9, addr := 3, store := store, tmode := tmode, row0 := if tmode then 0 else 100, handle := mkHandle 1 0 0, key := mkHandle 1 0 0
    exec := 30, left := [(0, left)], pending := [0] }

def wIssue : State := wEng (fun e => { e with xfers := [wXfer 1 true true 4096 2, wXfer 2 false false 512 3], jobs := [wDescJob false false 3] })

/-- An interface with requests waiting, started or held. -/
def wIface (s : State) (i : Nat) (x : Iface) : State := { s with m := { s.m with stock := { s.m.stock with ifaces := [(i, x)] } } }

def wAsk (store : Bool) (chunk : Nat) : ChunkReq := { region := 0, xfer := 2, chunk := chunk, store := store }

def wPeriod : State := wIface (wEng id) 255 { pos := 24, waiting := [wAsk false 255] }

theorem witness_StockTransfersBegin : Cases [
    (let g := wIssue.m.region 0
     g.eng.xfers.find? (fun z => !z.tagged) == some (wXfer 2 false false 512 3) && decide ((g.eng.xfers.filter (·.tagged)).length < 512) &&
       (wXfer 1 true true 4096 2).chunks.all (fun k => !(wXfer 2 false false 512 3).chunks.contains k)),
    (let x := wPeriod.m.iface 255
     let w := wPeriod.m.stock.wheel
     !wPeriod.m.stock.selfRefresh && w != [] && (hostWaiting wPeriod.m 255).isNone && w.getD ((x.pos % w.length + 1) % w.length) 9 == 0 &&
       w.getD (x.pos % w.length) 9 == 24 && x.waiting.all (fun z => z.region != 24))] := by decide +kernel

/-- A request for a chunk started at interface 1, of a LOAD or a STORE whose rows are read, on a resident page or not. -/
def wStarted (store : Bool) (page : Nat) : State :=
  let sa := page * 2 ^ 21 + 1024
  wIface (wEng (fun e => { e with
    xfers := [wXfer 2 store true sa 2], jobs := [wDescJob store false 2]
    stores := if store then [{ xfer := 2, sa := sa, val := 5 }, { xfer := 2, sa := sa + 512, val := 6 }] else [] })) 1
    { started := [wAsk store (2048 * page + 1)] }

theorem witness_ChunksAndPagesMove : Cases ([(false, 0, true), (true, 0, true), (false, 1, false)].map (fun p =>
      let s := wStarted p.1 p.2.1
      match (s.m.iface 1).started with
      | [q] => !s.m.stock.selfRefresh && ((s.m.region q.region).eng.xfer q.xfer).isSome && pteResident (s.m.reqPte q) == p.2.2 && q.store == p.1
      | _ => false) ++
    [let s := wEng id
     let e := s.m.pte 0 1
     pteValid e && !pteResident e && ptePageable e && pageFor s.m e == some 1 && s.m.backing 0 e == some 0x1000]) := by decide +kernel

def wLand (tmode : Bool) : State := wEng (fun e => { e with
  xfers := [wXfer 2 false true 512 2], jobs := [wDescJob false tmode 2], landing := [{ desc := 9, xfer := 2, core := 0, idx := 1, val := 5 }] })

def wPort : State := wEng id { wCore with sp := { wCore.sp with landing := [{ row := 100, val := 5, mark := none }], landUsed := 2, landBanks := [5, 6] } }

def wReads (tmode : Bool) : State := wEng (fun e => { e with xfers := [wXfer 2 true true 512 2], jobs := [wDescJob true tmode 2] })

def wToken : State := wEng (fun e => { e with jobs := [wDescJob false true 0] })

theorem witness_LandingAndTokens : Cases [
    (let c := (wLand true).m.core 0
     (nextLand ((wLand true).m.region 0) 0 c).any (fun p => p.2.tmode && (checkHandle wDecl c p.2.handle (p.2.row0 + p.1.idx)).1 == 0 && genDist c p.2.handle == 0)),
    (nextLand ((wLand false).m.region 0) 0 ((wLand false).m.core 0)).any (fun p => !p.2.tmode),
    (let c := wPort.m.core 0
     match c.sp.landing with
      | [q] => decide (c.sp.landUsed < 3) && !c.sp.progBanks.contains (bankOf q.row) && !c.sp.landBanks.contains (bankOf q.row) && !rowGated wDecl q.row
      | _ => false),
    (nextStoreRow ((wReads true).m.region 0)).any (fun p => p.2.2.2.tmode && genDist ((wReads true).m.core 0) p.2.2.2.handle == 0),
    (nextStoreRow ((wReads false).m.region 0)).any (fun p => !p.2.2.2.tmode), (nextToken wToken.m 0).isSome && (wToken.m.region 0).run.running] := by
  decide +kernel

/-! ### The mesh and the landing port -/

/-- The region with tags 10, 20, 30 and 40 for a window, a ring of 8 rows at row 256, clamp word 5 and the update unit. -/
def wNet (c : Core) (n : Mesh := {}) : State :=
  let s := wRun (fun g => { g with decl := { wDecl with tags := [(1, { kind := 1, tag := 10, targ0 := 1 }),
    (2, { kind := 2, tag := 20, targ0 := 256, targ1 := 8 }), (3, { kind := 3, tag := 30, targ0 := 5 }), (4, { kind := 4, tag := 40 })] } }) c
  { s with m := { s.m with mesh := n } }

/-- A header of the places of its fields. -/
def hdr (fs : List (Nat × Nat)) : W128 := BitVec.ofNat 128 (fs.map (fun f => f.2 * 2 ^ f.1)).sum

def wTx (h : W128) (row : Option Row) (handle : Option W32) : State :=
  wNet { wCore with ni := { tx := [{ hdr := h, row := row, rows := [5, 6], handle := handle, addr := 3, due := 100 }] } }

theorem witness_MessageEntersMesh : Cases ([
    (hdr [(125, 1), (123, 3), (57, 1)], some 5, none), (hdr [(125, 1), (57, 2)], none, some (mkHandle 1 0 0)), (hdr [(125, 1), (57, 2)], none, none)].map (fun p =>
      let s := wTx p.1 p.2.1 p.2.2
      let g := s.m.region 0
      match (s.m.core 0).ni.tx with
      | t :: _ => !t.leaving && g.dom == .awake && decide (t.due ≤ g.cycle) &&
        (if p.2.2.isSome then decide ((s.m.core 0).ni.tokens.length < 64) && (s.m.core 0).ni.tokWait.isEmpty else true) &&
        (s.m.target g.run.gang t.hdr).isSome
      | [] => false)) := by decide +kernel

/-- A flit at a router's input on a channel, of a message to a site. -/
def wFlit (x i c dst : Nat) (more : Mesh → Mesh := id) : State :=
  wNet wCore (more { msgs := [(7, { hdr := hdr [(125, 1), (123, c)], rows := [], dst := dst })]
                     bufs := [(bufKey x i c, [{ msg := 7, idx := 0, last := true }])] })

/-- Two headers at one router for one output. -/
def wTwo : State :=
  wNet wCore { msgs := [(7, { hdr := hdr [(125, 1)], rows := [], dst := 3 }), (8, { hdr := hdr [(125, 1), (123, 3)], rows := [], dst := 3 })]
               bufs := [(bufKey 0 4 0, [{ msg := 7, idx := 0, last := true }]), (bufKey 0 4 3, [{ msg := 8, idx := 0, last := true }])] }

def hops (s : State) (x o i c lost : Nat) : Bool :=
  (s.m.region (siteRegion x)).dom == .awake && !s.m.mesh.removed.contains x && (neighbour x o).isSome &&
    s.m.mesh.bufs.all (fun b => b.2.all (fun f => f.idx != 0 || (s.m.wants x f).isSome)) &&
    (match s.m.readyFlits x o with
      | (i', c', _) :: l => i' == i && c' == c && l.length == lost
      | [] => false)

def crosses (s : State) (x y o c : Nat) : Bool :=
  neighbour x o == some y && (s.m.region (siteRegion y)).dom == .awake && decide ((s.m.mesh.buf y (opposite o) c).length < 4) &&
    (match s.m.mesh.spline x o with
      | (c', _) :: _ => c' == c
      | [] => false)

theorem witness_FlitsMove : Cases ([
    hops (wFlit 0 4 0 3) 0 1 4 0 0, hops wTwo 0 1 4 3 1, hops (wFlit 31 0 2 40) 31 1 0 2 0 && siteRegion 31 != siteRegion 32,
    crosses (wNet wCore { splines := [(linkKey 32 0, [(1, { msg := 7, idx := 0, last := true })])] }) 32 31 0 1] ++
    [(0, 5), (5, 0), (5, 325), (325, 5), (7, 7), (0, 25599)].map (fun p =>
      let z : MeshMsg := { hdr := 0, rows := [], dst := p.2 }
      z.ring.isEmpty && (wFlit 0 4 0 3).m.mesh.removed.isEmpty && (wFlit 0 4 0 3).m.mesh.removing.isEmpty && decide (z.dst < 25600) &&
        (headerOut {} p.1 z).isSome)) := by decide +kernel

/-- A message whole at the NI, undecided. -/
def wRx (h : W128) (rows gang : Nat) (open' : Bool := true) : State :=
  wNet { wCore with ni := { windows := if open' then [(1, mkHandle 1 0 0)] else []
                            rx := [{ msg := 7, gang := gang, hdr := h, rows := List.replicate rows 5, complete := true }] } }

theorem witness_ArrivalDecidedByHeader : Cases ([
    (wRx (hdr [(125, 1), (79, 10)]) 1 0, RxDest.error 0xA), (wRx (hdr [(125, 1), (79, 10)]) 1 9, .stray 3), (wRx (hdr [(125, 1), (79, 11)]) 1 1, .stray 2),
    (wRx (hdr [(125, 1), (79, 10)]) 1 1 false, .stray 1), (wRx (hdr [(125, 1), (79, 10), (46, 1)]) 2 1, .error 5),
    (wRx (hdr [(125, 1), (79, 10), (46, 1)]) 1 1, .window (mkHandle 1 0 0)), (wRx (hdr [(125, 1), (79, 20)]) 8 1, .error 7),
    (wRx (hdr [(125, 1), (79, 20)]) 7 1, .ring 2), (wRx (hdr [(125, 2), (79, 20)]) 0 1, .ring 2), (wRx (hdr [(125, 2), (79, 30)]) 0 1, .clamp 5),
    (wRx (hdr [(125, 1), (79, 30)]) 1 1, .error 6), (wRx (hdr [(125, 2), (79, 30), (47, 1)]) 0 1, .error 6),
    (wRx (hdr [(125, 1), (79, 40)]) 1 1, .update 4), (wRx (hdr [(125, 2), (79, 40)]) 0 1, .error 6)].map (fun p =>
      let c := p.1.m.core 0
      match c.ni.rx with
      | [x] => x.dest == .undecided && arrivalDest p.1.m 0 c x == p.2
      | _ => false)) := by decide +kernel

/-- The ring with a message of `n` payload rows to place, and a request on it. -/
def wRing (q : Ring) (n : Nat) (c : Core := wCore) : State :=
  wNet { c with ni := { rings := [(2, q)], recvs := [{ entry := 2, rq := 23, hen := true, nq := 7 }]
                        rx := [{ msg := 7, gang := 1, hdr := hdr [(125, 1), (57, n)], rows := List.replicate n 5, complete := true, dest := .ring 2 }] } }

def wRecv (q : Ring) (h : W128) (begun : Bool) (sent : Nat) (c : Core := wCore) : State :=
  wNet { c with sp := { c.sp with rows := (Mem.zero.set 256 (h.setWidth 4096)).set 260 ((hdr [(125, 7)]).setWidth 4096) }
                ni := { rings := [(2, q)], recvs := [{ entry := 2, rq := 23, hen := true, nq := 7, begun := begun, sent := sent }] } }

def wPushes : Core := { wCore with queues := (List.range 23).map (fun q => (q, { entries := [{ data := 5, vis := true }] })) }

theorem witness_RingsKeepMessages : Cases (
    [(({ w := 0, r := 0, m := 0 } : Ring), 7, some (0, false)), ({ w := 5, r := 3, m := 1 }, 2, some (5, false)), ({ w := 1, r := 3, m := 1 }, 1, some (1, false)),
     ({ w := 6, r := 3, m := 1 }, 2, some (0, true)), ({ w := 6, r := 2, m := 1 }, 2, none), ({ w := 2, r := 3, m := 2 }, 1, none)].map (fun p =>
      let c := (wRing p.1 p.2.1).m.core 0
      (c.ni.rx.findSome? (fun y => match y.dest with
        | .ring k => if y.complete then some (y.msg, k) else none
        | _ => none)) == some (7, 2) && ringPlaceAt (Tab.get c.ni.rings 2 {}) 8 (1 + p.2.1) == p.2.2) ++
    [(wRecv { w := 3, r := 0, m := 1 } (hdr [(125, 1), (57, 2)]) false 0 wPushes, true, 2, true), (wRecv { w := 3, r := 0, m := 2 } (hdr [(125, 1), (57, 2)]) true 1 wPushes, false, 2, true),
     (wRecv { w := 3, r := 0, m := 1 } (hdr [(125, 2)]) true 0 wPushes, false, 0, true), (wRecv { w := 3, r := 4, m := 1 } (hdr [(125, 2)]) false 0 wPushes, true, 0, true),
     (wRecv { w := 3, r := 0, m := 1 } (hdr [(125, 1), (57, 2)]) false 0 { wCore with queues := [(31, { entries := List.replicate 64 { data := 5, vis := true } })] }, true, 2, false)].map (fun p =>
      let g := p.1.m.region 0
      let c := p.1.m.core 0
      match c.ni.recvs with
      | [req] => g.run.running && (Tab.get c.ni.rings 2 {}).m != 0 && (req.hen && !req.begun) == p.2.1 &&
        (p.2.2.1 == 0 || hasSpace c (if p.2.1 then 31 else 23) [] == p.2.2.2)
      | _ => false)) := by decide +kernel

/-! ### Updates -/

/-- A core with one update job for entry 4, its sampled CONTROL given. -/
def wUpd (control : W64) (f : UpdJob → UpdJob := id) (c : Core := wCore) : State :=
  let x : UpdSample := { eta := 0x3C000000, beta := one32, lambda := 0x3D000000, clip := one32, control := control, copyHandle := mkHandle 1 0 0
                         tmpl0 := BitVec.ofNat 128 (2 ^ 125), tmpl1 := 0, step := 3, seed := 5 }
  let j : UpdJob := { upd := false, entry := 4, handle := 0, group := 0, arg := 0, rows := List.replicate 4 (row32 (fun _ => one32))
                      pos := 0, begun := true, sample := some x, narrow := [7] }
  wRun (fun g => { g with decl := { wDecl with tags := [(4, { kind := 4, targ0 := 0x4040, tparam := 0x3D00000000000000 })] } })
    { c with upd := { jobs := [f j] } }

def atJob (s : State) (p : Region → Core → UpdJob → Bool) : Bool :=
  match (s.m.core 0).upd.jobs with
  | [j] => (s.m.region 0).dom == .awake && p (s.m.region 0) (s.m.core 0) j
  | _ => false

def copying (j : UpdJob) : UpdJob := { j with next := 4 }
def sending (j : UpdJob) : UpdJob := { j with next := 4, fin := true, acked := true }
def acking (j : UpdJob) : UpdJob := { j with next := 4, fin := true }

/-- A job whose CONTROL, as sampled from the words, makes it a lazy one of four rows; or one that Table 11.6 refuses. -/
def wBegin (control : W64) (f : UpdJob → UpdJob := id) : State :=
  wUpd 0 (fun j => f { j with begun := false, sample := none }) { wCore with cc := { words := Mem.zero.set 1 control } }

theorem witness_UpdatesApplied : Cases [
    atJob (wUpd 0) (fun g c j => c.ni.rx.isEmpty && !j.fin && (Tab.find g.decl.tags j.entry).isSome && !j.upd && j.begun && updRefusal g.decl j == 0 &&
      decide (j.next < j.rows.length) && !kLazy j.smp.control && !rowGated g.decl 64 && !rowGated g.decl 65),
    atJob (wUpd (0x8004000000000000)) (fun g _ j => j.begun && updRefusal g.decl j == 0 && kLazy j.smp.control && decide (j.next + 1 < j.rows.length)),
    atJob (wBegin 0x8004000000000000) (fun g c j => (Tab.find g.decl.tags 4).any (fun t =>
      let x := updSample t j.group (settleWords c c.pos)
      !j.begun && kLazy x.control && updRefusal g.decl { j with sample := some x, begun := true } == 0 && !rowGated g.decl 0)),
    atJob (wBegin 0x8003000000000000) (fun g c j => (Tab.find g.decl.tags 4).any (fun t =>
      updRefusal g.decl { j with sample := some (updSample t j.group (settleWords c c.pos)), begun := true } == 1 && !j.begun)),
    atJob (wUpd 0x4100000000000000 copying) (fun g c j => kCopyLocal j.smp.control && kCfmt j.smp.control != 3 &&
      (checkHandle g.decl c j.smp.copyHandle 0).1 == 0 && genDist c j.smp.copyHandle == 0 && decide ((j.copied + 1) * j.block ≤ j.next)),
    atJob (wUpd 0x1100000000000000 sending) (fun _ c j => j.fin && j.copied? && decide (j.replicas < j.nrep) && decide (c.ni.tx.length < 16) &&
      decide (0 < j.rows.length / j.block) && (sendCheck ((wUpd 0x1100000000000000 sending).m.portCtx 0) c false false
        (put (stampHdr ((wUpd 0x1100000000000000 sending).m.portCtx 0) (put (put (put j.smp.tmpl0 63 57 1) 56 46 0) 45 40 0)) 63 57 1) 0).1 == 0),
    atJob (wUpd 0x0000000000F00000 acking) (fun _ c j => j.fin && j.copied? && kAcken j.smp.control && !j.acked && decide (clampCount (c.cc.words.get 7) + 4 < 2 ^ 47))] := by
  decide +kernel

/-! ### Time -/

/-- The module with its always-on part changed, region 0 running, ports UP with twice their θ. -/
def wTime (f : Aon → Aon) (thetas : List Int := []) (g : Region → Region := id) : State :=
  let s := wRun g
  { s with m := { s.m with aon := f { s.m.aon with state := .full, tirixRunning := true }, ports := thetas.zipIdx.map (fun x => (x.2, { state := .up, theta := some x.1 })) } }

def wIdle (g : Region) : Region := { g with run := { g.run with running := false } }

/-- 1,024 cycles after the last mark, at the values the statement names. -/
def wMark (io : SyncMode) (thetas : List Int) (g : Region → Region := id) : State :=
  wTime (fun a => { a with syncIo := io, refCycles := 1024, stick := 46080, pins := { a.pins with syncEdge := true } }) thetas g

def markHyps (s : State) (running jumps near : Bool) : Bool :=
  let a := s.m.aon
  let trimmed : Int := a.stickAtMark.toNat + 45 * a.refCycles + a.trim
  let twice := s.m.thetas
  a.state != .off && decide (1024 ≤ a.refCycles) && decide (a.stick.toNat ≤ trimmed) && decide (trimmed + 2 ^ 40 < 2 ^ 64) &&
    s.m.anyRunning == running && twice.all (fun x => decide (x ≤ 2 ^ 40)) && twice.any (fun x => decide (92160 < x)) == jumps &&
    (twice.filter (fun t => decide (-92160 ≤ t) && decide (t ≤ 92160)) != []) == near && (s.m.region 0).dom == .awake

def edge (io : SyncMode) (n : Nat) (acq : Bool) (g : Region → Region := id) : State :=
  wTime (fun a => { a with syncIo := io, refCycles := n, acquiring := acq, pins := { a.pins with syncEdge := true } }) [] g

theorem witness_StickAndMarks : Cases ([0, 1023].map (fun n =>
      let a := (wTime (fun a => { a with refCycles := n, stick := BitVec.ofNat 64 (45 * n) })).m.aon
      a.state != .off && decide (a.refCycles < 1024) && a.stick.toNat == a.stickAtMark.toNat + 45 * a.refCycles && decide (a.stick.toNat + 45 < 2 ^ 64)) ++
    [markHyps (wMark .off [7, -92160, 92160, 92161]) true true true, markHyps (wMark .off [] wIdle) false false false,
     markHyps (wMark .markIn [2 ^ 40] wIdle) false true false] ++
    [(SyncMode.off, 9, false, true), (.markOut, 9, false, true), (.trigger, 9, false, true), (.markIn, 1024, false, true), (.markIn, 16, true, false),
     (.markIn, 1023, true, true), (.markIn, 1023, false, true)].map (fun p =>
      let s := edge p.1 p.2.1 p.2.2.1 (if p.2.2.2 then id else wIdle)
      s.m.aon.state != .off && s.m.aon.pins.syncEdge && s.m.aon.syncIo == p.1 && s.m.anyRunning == p.2.2.2)) := by decide +kernel

/-- A bundle in flight, scheduled for a cycle, which waits for word 2047 or not. -/
def wFlight (sched : Nat) (held : Bool) : State :=
  wRun (fun g => { g with seq := { g.seq with pipe := [{ addr := 3, pos := 40, bundle := if held then BitVec.ofNat 512 wMonitor else 0, sched := sched, ready := if held then some none else none }] } })

theorem witness_CyclesAndVisibility : Cases ([(100, false), (101, false), (100, true)].map (fun p =>
      let s := wFlight p.1 p.2
      let g := s.m.region 0
      g.dom == .awake && g.switching == 0 && s.m.aon.state != .safeHold && decide (1 ≤ g.step) && decide (g.step ≤ 8) && seqHeld g == p.2 &&
        (p.2 || decide (g.cycle < 101)) && g.site.all (fun x => !s.m.gated x)) ++
    [(let g := (wRun id).m.region 0
      g.seq.pipe == [] && decide (0 ≤ g.gaugeStretch)),
     (let c := (wEng id { wCore with sp := { wCore.sp with pend := [{ row := 9, val := some 1, due := 100, mark := none }, { row := 9, val := some 2, due := 101, mark := none }] }
                                     v0 := { pend := [{ key := 3, val := 1, due := 100, img := 0, exec := 90 }] } }).m.core 0
      c.sp.pend.length == 2 && c.v0.pend.length == 1)]) := by decide +kernel

theorem witness_StickNeverDecreases :
    let s := { wMark .markIn [2 ^ 40] wIdle with pending := [.mark] }
    (match step s with
      | .next t => decide (s.m.aon.stick.toNat ≤ t.m.aon.stick.toNat)
      | _ => false) = true ∧ s.pending.head? ≠ some .auxPowerLoss ∧ (∀ x, s.pending.head? ≠ some (.auxEntry x)) ∧ s.m.aon.refCycles ≤ 1024 ∧
      s.m.aon.stick.toNat < 2 ^ 62 ∧ s.m.aon.stickAtMark.toNat < 2 ^ 62 ∧ |s.m.aon.trim| ≤ 32 ∧ ∀ x ∈ s.m.thetas, x < 2 ^ 62 := by
  refine ⟨by decide +kernel, by decide +kernel, by intro x; simp, by decide +kernel, by decide +kernel, by decide +kernel, by decide +kernel, by decide +kernel⟩

theorem witness_IntervalAndTrimStayBounded :
    let s := { wMark .markIn [2 ^ 40] wIdle with pending := [.mark] }
    (match step s with
      | .next t => decide (t.m.aon.refCycles = 0)
      | _ => false) = true ∧ s.m.aon.refCycles ≤ 1024 ∧ |s.m.aon.trim| ≤ 32 := by
  refine ⟨by decide +kernel, by decide +kernel, by decide +kernel⟩

/-! ### Modes and monitors -/

/-- Region 0 with a change committed for mark 0 and acknowledged, held at a kerf end or without a gang. -/
def wChange (f : Region → Region) (a : Aon → Aon := id) : State :=
  wTime (fun x => a { x with inFlight := true, appliedMask := 0x1FFFFFE }) [] (fun g => f { g with
    pendingChange := true, pendChange := 7, pendValue := 5, ack := true, stagedStep := some 12, seq := { g.seq with wait := .kerf } })

/-- The module with its power state changed. -/
def wEmerg (f : Power → Power) (a : Aon → Aon := id) : State :=
  let s := wTime a
  { s with m := { s.m with power := f s.m.power } }

def wStepDue : State := wEmerg (fun p => { p with emerg := [(0, { due := 0xF, lowered := some 3 })] })

theorem witness_ChangesAndMonitors : Cases ([
    (wChange id, false), (wChange (fun g => { g with run := { g.run with running := false, ended := false }, seq := { g.seq with wait := .none } }), false),
    (wChange id (fun a => { a with appliedMask := 0 }), true)].map (fun p =>
      let g := p.1.m.region 0
      let a := p.1.m.aon
      g.dom == .awake && a.state != .safeHold && g.pendingChange && a.inFlight && decide (a.commitMark ≤ a.markNumber) && g.ack && p.1.m.level 0x0C == 1 &&
        (if g.run.running then g.seq.wait == .kerf else !g.run.ended) && (sticky a.appliedMask 0 != 0x1FFFFFF) == p.2) ++ [
    (wTime id).m.aon.state != .off && [0, 9500, 10499, 10500, 11499, 11500].all (fun n => (List.replicate 16 (BitVec.ofNat 16 n)).length == 16),
    (wTime id).m.aon.state != .off && (((wTime id).m.emerg 0).overCurrent).isNone, (wStepDue.m.emerg 0).due != 0 && decide (wStepDue.m.level 0x0D ≤ 1),
    (let s := wEmerg id (fun a => { a with markNumber := 16 })
     s.m.aon.tirixRunning && !s.m.aon.beatStopped && s.m.aon.markNumber.toNat % 16 == 0 && s.m.aon.markNumber.toNat != s.m.power.lastRewrite),
    (let s := wTime id [] (fun g => { g with run := { g.run with heldMarks := 50 } })
     let g := s.m.region 0
     (s.m.placementOf g.run.gang).any (fun p => decide (p.progress ≤ g.run.heldMarks)) && g.run.running && !g.run.stalled &&
       s.m.aon.state != .safeHold && s.m.level 1 == 1)]) := by decide +kernel

/-! ### Records, events and safe hold -/

/-- Two parts of a placement with a digest ring of 4 KiB in page 0, one boundary waiting in region 0, and region records. -/
def wDigest (pending : List Snapshot) (recs : List RegionRec) : State :=
  let s := wEng id
  { s with m := { (s.m.onRegion 0 (fun g => { g with dig := { g.dig with pending := pending } })) with
    placements := s.m.placements.map (fun p => { p with
      gangs := p.gangs ++ [{ id := 2, part := 1, region := 1, sites := [32], running := true }]
      ring := some { session := 0, sa := 512, bytes := 4096 }, regionRecs := recs }) } }

def wSnap : Snapshot := { layer := 3, pos := 41, final := false, g := 5, stick := 6, flags := 1 }

def wRec (l : W64) (part : Nat) : RegionRec := { layer := l, part := part, digest := 7, rows := 8, flags := 2, step := 5, stick := 6 }

def digestHyps (s : State) (rest : Placement → Region → Bool) : Bool :=
  let g := s.m.region 0
  match s.m.placementOf g.run.gang with
  | some p => s.m.placement p.g0 == some p && s.m.aon.state != .safeHold && (match p.ring with
      | some ring => s.m.ringOpen ring && decide (ring.written.toNat % ring.bytes + 128 ≤ ring.bytes)
      | none => false) && rest p g
  | none => false

theorem witness_DigestRecordsWritten : Cases [
    digestHyps (wDigest [wSnap] []) (fun p g => match g.dig.pending with
      | b :: _ => g.seq.pipe.all (fun x => decide (b.pos ≤ x.pos)) &&
        p.gangs.any (fun x => x.running && x.part != g.decl.part && p.regionRecs.all (fun y => y.part != x.part))
      | [] => false),
    digestHyps (wDigest [] [wRec 3 1, wRec 3 0, wRec 4 0]) (fun p g => g.dig.pending == [] && p.gangs.all (fun x => x.status != 6) &&
      p.regionRecs.any (fun y => y.layer == 3) && p.regionRecs.all (fun y => decide (3#64 ≤ y.layer)) &&
      p.gangs.all (fun x => p.regionRecs.any (fun y => y.layer == 3 && y.part == x.part)))] := by decide +kernel

/-- The module with an event code at a level. -/
def wLevel (code level : Nat) : Mod := { (wTime id).m with settings := { (wTime id).m.settings with policy := [(code, level)] } }

theorem witness_EventsEscalate : Cases ([0, 1, 2, 3].map (fun l =>
      let m := wLevel 5 l
      let named (gang source : Nat) : Nat := if gang ≠ 0 then gang else if source < 25 ∧ (m.region source).run.running then (m.region source).run.gang else 0
      Tab.get m.settings.policy 5 1 == l && m.aon.state != .safeHold && m.aon.state != .off && (m.placementOf (named 0 7)).isNone &&
        [named 1 7, named 0 0].all (fun n => match m.placementOf n with
          | some p => m.placement p.g0 == some p && p.gangs.all (fun x => (m.region x.region).run.gang == x.id && (m.region x.region).run.running)
          | none => false))) := by decide +kernel

theorem witness_SafeHoldEntered : Cases ([
    let a := (wTime (fun a => { a with pins := { a.pins with mainSeen := true } })).m.aon
    a.state != .off && a.state != .safeHold && a.pins.mainSeen && a.tirixRunning && !a.beatStopped, !(wTime id).m.aon.pins.mainSeen] ++
    [1, 8].map (fun c : Byte => decide (1 ≤ c) && decide (c ≤ 8))) := by decide +kernel

/-! ### Power and fencing -/

/-- The module with its power state, mesh and one region changed. -/
def wFence (p : Power → Power) (n : Mesh := {}) (r1 : Region := {}) : State :=
  let s := wTime id
  { s with m := { s.m with power := p s.m.power, mesh := n, regions := s.m.regions ++ [(1, r1)] } }

/-- Two word errors of site 0's core in this power-on. -/
def wErrs : State := wFence (fun p => { p with sramErrs := [(0, 2)] })

/-- A stock edge in training, with devices trained and failed. -/
def wTrain (east : Bool) (trained : W32) (fails : Tab Nat) : State :=
  let s := wTime id
  { s with m := { s.m with desc := { s.m.desc with stockTrained := trained }
                           bringup := { west := if east then .on else .training, east := if east then .training else .on, devFails := fails } } }

theorem witness_FencesAndTests : Cases ([
    wErrs.m.fence 0 == 0 && !wErrs.m.mesh.removing.contains 0 && decide (2 ≤ Tab.get wErrs.m.power.sramErrs 0 0) && wErrs.m.level 9 == 1,
    (let g := (wTime id).m.region 0
     g.run.running && (g.coreOf 0).isSome && (wTime id).m.fence 0 == 0 && (wTime id).m.aon.state != .safeHold),
    (let m := (wFence id { parityMark := [(4, 16)] }).m
     neighbour 1 0 == some 0 && decide (16 ≤ Tab.get m.mesh.parityMark (4 * 1 + 0) 0) && !m.fullyFenced 0 && m.fence 0 != 3 && !m.ringBlocked 0),
    (wFence id { removing := [0] }).m.mesh.removing.contains 0, ((wFence id {} { dom := .selfTest }).m.region 1).dom == .selfTest,
    (wTrain true 0 []).m.bringup.west == .on && (wTrain false 0 []).m.bringup.east == .on] ++
    [(true, 31, 0xFFFF, []), (true, 16, 0xFFFEFFFF, []), (true, 16, 0xFFFEFFFF, [(16, 1)]), (false, 15, 0, [(15, 1)]), (true, 31, 0, (List.range 16).map (fun k => (16 + k, if k = 15 then 1 else 2)))].map (fun p =>
      let m := (wTrain p.1 p.2.2.1 p.2.2.2).m
      (if p.1 then m.bringup.east else m.bringup.west) == .training && !bit m.desc.stockTrained p.2.1 && decide (Tab.get m.bringup.devFails p.2.1 0 < 2))) := by
  decide +kernel

/-- The module at a state of its own, with region 0 of a domain state. -/
def wPower (a : Aon) (d : DomState) (run : Bool) (since : Nat := 0) : State :=
  let s := wRun (fun g => { g with dom := d, run := { g.run with running := run } })
  { s with m := { s.m with aon := a, desc := { s.m.desc with tested := 1 }, power := { s.m.power with sleepSince := [(0, since)] }
                           placements := if run then s.m.placements else [] } }

def wAon (st : ModState) (f : Pins → Pins := id) : Aon :=
  { state := st, tirixRunning := !([ModState.off, .aux, .boot, .verify].contains st), pins := f { pwrgdMain := true }, stick := 2250000007 }

/-- A boot window's copy: a header's first words and its length. -/
def wImage (len : Nat) (cells : List (Nat × Byte)) : State :=
  let s := wPower (wAon .verify) .off false
  { s with m := { s.m with bringup := { bootCopy := some (len, { cells := cells }) } } }

def wMagic : List (Nat × Byte) := [(0, 0x57), (1, 0x4B), (2, 0x46), (3, 0x57), (4, 1)]
def wBody : List (Nat × Byte) := [(0x10, 16), (0x14, 8)]

/-- RESULT by the first check of Table 15.6 that fails; which key the ROM takes and what it has signed are the device's own. -/
theorem witness_PowerStates : Cases ([
    (wPower (wAon .full) .awake false).m.maySleep 0, (wPower (wAon .full) .sleep false 7).m.aon.state != .safeHold &&
      decide (Tab.get (wPower (wAon .full) .sleep false 7).m.power.sleepSince 0 0 + 2250000000 ≤ (wAon .full).stick.toNat)] ++
    [(ModState.full, DomState.sleep), (.full, .off), (.standby, .sleep)].map (fun p =>
      let m := (wPower (wAon p.1) p.2 false).m
      m.aon.tirixRunning && m.aon.pins.pwrgdMain && bit m.desc.tested 0 && !(m.region 0).pendingChange && (m.region 0).dom == p.2) ++ [
    (let m := (wPower (wAon .full) .sleep false).m
     m.aon.state == .full && !m.anyRunning && m.placements.isEmpty && m.jobs.isEmpty &&
       (List.range 25).all (fun k => (m.region k).dom == .sleep || (m.region k).dom == .off))] ++
    [ModState.off, .aux, .boot, .verify].map (fun st => (wPower (wAon st) .off false).m.aon.state == st && !(wAon st).tirixRunning) ++
    [(wImage 0x1001 wMagic, 1), (wImage (0x1000 + 16) wBody, 2), (wImage (0x1000 + 16) (wMagic ++ wBody), 3)].map (fun p =>
      match p.1.m.bringup.bootCopy with
      | some (len, img) => verifyResult p.1.m.b0 len img == p.2 && !p.1.m.bringup.verified
      | none => false)) := by decide +kernel

/-! ### Links -/

/-- The module, FULL, in a partition of two, with ports 0 and 1 as given. -/
def wLink (x : Port) (y : Port := {}) (f : Mod → Mod := id) : State :=
  let s := wTime id
  { s with m := f { s.m with bringup := { s.m.bringup with link := true }, ports := [(0, x), (1, y)], topo := { s.m.topo with partition := 5, dims := 1 }
                             desc := { s.m.desc with serial := 9 } } }

def flit (ftype seq lch : Nat) (som eom : Bool) (body : List Byte) : List Byte := mkFlit ftype seq 0 lch som eom false body

/-- A hello record of port 4, serial 8, module 1, with some fields replaced. -/
def hello (fs : List (Nat × List Byte)) : List Byte :=
  fs.foldl (fun h f => h.take f.1 ++ f.2 ++ h.drop (f.1 + f.2.length))
    (le 4 0x4F4C4844 ++ le 2 1 ++ [4, 2] ++ le 8 8 ++ le 8 5 ++ le 2 1 ++ le 2 1 ++ zeros 100)

def strict (m : Mod) : Mod := { m with topo := { m.topo with requireVerified := true } }

def wUp : Port := { state := .up, nserial := 8, nport := 4, retryBuf := [flit 1 0 0 true false [1], flit 1 1 0 false true [2]], txSeq := 2
                    ingress := [{ lch := 2, bytes := [1] }] }

theorem witness_PortsChangeState : Cases ([PortState.training, .down].map (fun st =>
      let m := (wLink { state := st }).m
      m.bringup.link && m.aon.state != .safeHold && (m.port 0).state == st) ++
    [PortState.hello, .up, .isolated].map (fun st => (wLink { state := st }).m.port 0 == { state := st } && (PortState.talks st)) ++
    [(hello [], id, 0), (hello [(8, le 8 9)], id, 1), (hello [(7, [0])], id, 2), (hello [(0x10, le 8 6)], id, 2), (hello [(6, [5])], id, 3),
     (hello [(0x18, le 2 0)], id, 3), (hello [], strict, 4), (hello [(7, [10])], id, 0)].map (fun p =>
      let m := (wLink { state := .hello } {} p.2.1).m
      p.1.length == 128 && m.aon.state != .safeHold && fld p.1 0 4 == 0x4F4C4844 && fld p.1 4 2 == 1 && decide (m.level 0x0A ≤ 1) &&
        decide (m.level 0x0B ≤ 1) && helloReason m 0 0 p.1 == p.2.2) ++
    [((wLink wUp wUp).m, some 1), ((wLink wUp).m, none)].map (fun p => (p.1.port 0).state == .up && p.1.level 0x0B == 1 && p.1.sisterPort 0 == p.2)) := by
  decide +kernel

/-- A message of no rows to module 1 or 0, as a link carries it. -/
def linkBytes (dmod : Nat) : List Byte := bytesOf (hdr [(125, 2), (122, 1), (110, dmod)]) 16

def wGate (dmod : Nat) (x : Port := { state := .up }) : State :=
  wLink x {} (fun m => { m with mesh := { m.mesh with gateways := [(0, [{ hdr := hdr [(125, 2), (122, 1), (110, dmod)], rows := [], dst := 0 }])] } })

/-- A message whole at a port's ingress. -/
def wIngress (dmod : Nat) (abort : Bool) (st : PortState) : State :=
  wLink { state := .up, ingress := [{ lch := 0, bytes := linkBytes dmod, done := true, abort := abort }] } {} (fun m => { m with
    ports := m.ports ++ [(4, { state := st })], topo := { m.topo with dims := 3, coord := 1, links := [(2, 0xFFFFFF)] } })

/-- A flit that passes the check, or not. -/
def Good (f : List Byte) : Prop := f.length = 256 ∧ crc32 (f.take 252) = wordOf 32 (f.drop 252)
def Bad (f : List Byte) : Prop := f.length = 256 ∧ crc32 (f.take 252) ≠ wordOf 32 (f.drop 252)

/-- Flits as a port sends them pass the check, one with another check sequence does not; what some of their headers say. -/
theorem witness_FlitsReceived :
    (∀ ftype seq lch som eom, Good (flit ftype seq lch som eom [7]) ∧ Good (replayFlit 4 (flit ftype seq lch som eom [7]))) ∧
    (∃ f, Bad f) ∧
    Cases ([(flit 1 0 2 true true [7], 1, 0, false), (flit 1 1 0 true true [7], 1, 1, false), (flit 7 0 0 false false [7], 7, 0, false),
      (flit 6 0 0 false false [7], 6, 0, false), (replayFlit 4 (flit 1 1 0 true true [7]), 1, 1, true)].map (fun p =>
        let h := flitHdr p.1
        sel h 63 60 == p.2.1 && sel h 59 48 == p.2.2.1 && bit h 20 == p.2.2.2) ++
      [(let m := (wLink wUp { state := .up, nport := 4 }).m
        (m.port 0).state == .up && m.aon.state != .safeHold && m.failedPort 0 4 == some 1 && m.traffic && (m.port 0).rxSeq == 0 &&
          (m.port 0).ingress.any (fun i => i.lch == 2 && !i.done))]) := by
  refine ⟨fun ftype seq lch som eom => ?_, ⟨_, Laws.framed_bad (zeros 252) List.length_replicate (crc32 (zeros 252) + 1) ?_⟩, by decide +kernel⟩
  · have h := Laws.mkFlit_good ftype seq 0 lch som eom false [7] (by decide)
    exact ⟨h, Laws.replayFlit_good _ _ h.1⟩
  · generalize crc32 (zeros 252) = x
    bv_omega

theorem witness_LinkTraffic : 0 < Config.linkBuffers ∧ Cases [
    wUp.retryBuf.length ≤ 1024 && [0, 1, 2].all (fun k => (wUp.txSeq + 4096 - wUp.retryBuf.length + k) % 4096 == k),
    (wGate 0).m.traffic && (enterDir (wGate 0).m 0).isNone,
    (enterDir (wGate 1 { state := .down }).m 1).any (fun d => ((wGate 1 { state := .down }).m.linePort d (hdr [(110, 1)])).isNone),
    (enterDir (wGate 1).m 1).any (fun d => (wGate 1).m.linePort d (hdr [(110, 1)]) == some 0) && ((wGate 1).m.port 0).credits.isEmpty,
    (let m := (wIngress 2 false .up).m
     m.traffic && match (m.port 0).ingress with
      | [i] => i.done && i.bytes != [] && (forwardDir m 0 i).any (fun d => m.linePort d.1 (hdr [(110, 2)]) == some 4) && i.hdr == hdr [(125, 2), (122, 1), (110, 2)]
      | _ => false)] := by
  refine ⟨Nat.succ_pos _, by decide +kernel⟩

def wNotice (f : Topo → Topo := id) (x : Port := { state := .up }) (g : Mod → Mod := id) : State :=
  wLink x { state := .isolated } (fun m => g { m with topo := f { m.topo with requireVerified := true } })

theorem witness_Notices : Cases ([
    (wNotice id, fun t : Topo => Tab.find t.links 1 != some 3 && t.reach.isEmpty), (wNotice (fun t => { t with links := [(1, 3)] }), fun t => Tab.find t.links 1 == some 3),
    (wNotice id, fun t => !t.remotePreempted.contains (1, 7) && !t.remoteEnded.contains (1, 7)),
    (wNotice (fun t => { t with remotePreempted := [(1, 7)] }), fun t => t.remotePreempted.contains (1, 7))].map (fun p =>
      (p.1.m.port 0).state == .up && p.1.m.selfIndex == 0 && p.2 p.1.m.topo) ++
    [((wNotice id { state := .hello, verif := 1 }).m.port 0).verif == 1 && (zeros 32).length == 32] ++
    [(some (zeros 4), true), (none, true), (some (zeros 4), false)].map (fun p =>
      let m := (wNotice id { state := .up } (fun m => { m with ident := { m.ident with key := p.1 }, aon := { m.aon with identityReady := p.2 } })).m
      m.ident.key == p.1 && m.aon.identityReady == p.2 && (m.port 0).state.talks)) := by decide +kernel

/-! ### The command mailboxes -/

/-- The module, FULL, with a session on a mailbox (none for kind 0), in which every right is held. -/
def wBox (kind mb : Nat) (f : Mod → Mod := id) : State :=
  let s := wEng id
  { s with m := f { s.m with
      aon := { s.m.aon with state := .full, tirixRunning := true }
      sessions := if kind = 0 then [] else [{ id := 1, mb := mb, kind := kind, rights := 0x1F, regions := 0x1FFFFFF, quota := 1000 }] } }

/-- A request of a body of some bytes with fields. -/
def req' (mb : Fin 32) (n : Nat) (fs : List (Nat × Nat × Nat) := []) : Req :=
  { mb := mb, flags := 0, tag := 7, body := le n (fs.map (fun f => f.2.2 % 2 ^ (8 * f.2.1) * 2 ^ (8 * f.1))).sum }

def allowedB (m : Mod) (i : Instr) (q : Req) : Bool :=
  i.wf && m.aon.state != .off && decide (q.no ≤ 30) && (m.aon.state != .safeHold || q.no == 0) &&
    m.aon.tirixRunning && !bit m.aon.heldCauses 7 && !bit m.aon.heldCauses 8 &&
    match mailboxRow i with
    | some (x, q') => q' == q && x.kinds.contains (m.kindOf q.no) && x.states.contains m.aon.state
    | none => false

theorem allowed_of {m : Mod} {i : Instr} {q : Req} (h : allowedB m i q = true) : Allowed m i q := by
  unfold allowedB at h
  cases hr : mailboxRow i with
  | none => simp [hr] at h
  | some p =>
    simp only [hr, Bool.and_eq_true, bne_iff_ne, decide_eq_true_eq, Bool.or_eq_true, beq_iff_eq, Bool.not_eq_true', List.contains_iff_mem] at h
    obtain ⟨⟨⟨⟨⟨⟨⟨h1, h2⟩, h3⟩, h4⟩, h5⟩, h6⟩, h7⟩, h8⟩ := h
    exact ⟨h1, ⟨h2, h3, fun e => h4.resolve_left (fun c => c e)⟩, ⟨h5, h6, h7⟩, p.1, by rw [hr, ← h8.1.1], h8.1.2, h8.2⟩

/-- A request of a mailbox that its checks allow, of a size, with what else a clause asks. -/
def allows (s : State) (c : Req → Instr) (q : Req) (n : Nat) (p : Mod → Bool := fun _ => true) : Bool :=
  allowedB s.m (c q) q && q.body.length == n && p s.m

def fails (s : State) (c : Req → Instr) (q : Req) (takes serves : Bool) (p : CmdRow → Bool := fun _ => true) : Bool :=
  let m := s.m
  (c q).wf && decide (m.aon.state ≠ .off ∧ q.no ≤ 30 ∧ (m.aon.state = .safeHold → q.no = 0)) == takes &&
    (m.aon.tirixRunning && !bit m.aon.heldCauses 7 && !bit m.aon.heldCauses 8) == serves && (match mailboxRow (c q) with
      | some (x, q') => q' == q && p x
      | none => decide (q.body.length ≤ 2016))

def wHold (m : Mod) : Mod := { m with aon := { m.aon with state := .safeHold } }
def wLong (k : JobKind) (m : Mod) : Mod :=
  { m with jobs := [{ mb := 3, session := 1, seq := 9, command := 0x35, tag := 7, quiet := false, kind := k }] }

theorem witness_MailboxChecks : Cases [
    fails (wBox 1 0 wHold) .hello (req' 1 0) false true, fails (wBox 1 0) .hello (req' 31 0) false true,
    fails (wBox 1 0 (fun m => { m with aon := { m.aon with tirixRunning := false } })) .hello (req' 0 0) true false,
    fails (wBox 2 3) .openSession (req' 3 20) true true (fun x => !x.kinds.contains 2),
    fails (wBox 1 0 wHold) .openSession (req' 0 20) true true (fun x => x.kinds.contains 1 && !x.states.contains .safeHold),
    fails (wBox 1 0) .openSession (req' 0 24) true true (fun x => x.kinds.contains 1 && x.states.contains .full && x.size == some 0x14),
    fails (wBox 3 30 (fun m => { m with sessions := m.sessions.map (fun y => { y with rights := 0 }) })) .traceConfig (req' 30 20) true true
      (fun x => x.kinds.contains 3 && x.states.contains .full && x.right == some 3),
    fails (wBox 2 3 (wLong (.preempt 1))) .gangPreempt (req' 3 4) true true (fun x => x.kinds.contains 2 && x.states.contains .full && x.long),
    (wBox 2 3 (wLong (.preempt 1))).m.long 3, fails (wBox 1 0) (.mailboxUnknownCommand 0x7F) (req' 0 0) true true,
    fails (wBox 1 0) (.mailboxUnknownCommand 0x7F) (req' 31 0) false true] := by decide +kernel

/-- Another session on a mailbox, numbered 2. -/
def also (mb : Nat) (m : Mod) : Mod := { m with sessions := m.sessions ++ [{ id := 2, mb := mb, kind := 2, rights := 0, regions := 0, quota := 5 }] }

theorem witness_SessionsOpenAndClose : Cases [
    allows (wBox 0 0) .hello (req' 0 0) 0,
    allows (wBox 1 0) .openSession (req' 0 20 [(0, 1, 29), (1, 1, 2), (16, 4, 1048576)]) 20 (fun m => (m.sessionOn 29).isNone && decide (m.nextSession ≤ 65535)),
    allows (wBox 1 0) .openSession (req' 0 20 [(0, 1, 30), (1, 1, 3)]) 20, allows (wBox 1 0 (also 29)) .openSession (req' 0 20 [(0, 1, 29), (1, 1, 2)]) 20 (fun m => (m.sessionOn 29).isSome),
    allows (wBox 2 3) .closeSession (req' 3 4 [(0, 1, 4)]) 4 (fun m => m.kindOf 3 != 1), allows (wBox 2 3) .closeSession (req' 3 4 [(0, 1, 0xFF)]) 4 (fun m => (m.sessionOn 3).isSome),
    allows (wBox 1 0) .closeSession (req' 0 4 [(0, 1, 30)]) 4 (fun m => m.kindOf 0 == 1 && (m.sessionOn 30).isNone),
    allows (wBox 1 0 (also 4)) .closeSession (req' 0 4 [(0, 1, 4)]) 4 (fun m => (m.sessionOn 4).isSome),
    allows (wBox 0 0) .installOwner (req' 0 0x210 [(0, 4, 3)]) 0x210 (fun m => !m.aon.ownerInstalled),
    allows (wBox 0 0 (fun m => { m with aon := { m.aon with ownerInstalled := true } })) .installOwner (req' 0 0x210 [(0, 4, 3)]) 0x210 (·.aon.ownerInstalled),
    allows (wBox 0 0) .ownerProveNonce (req' 0 4) 4, allows (wBox 0 0) .ownerProveProof (req' 0 0x208 [(0, 1, 1)]) 0x208 (·.ident.nonce.isNone),
    allows (wBox 0 0 (fun m => { m with aon := { m.aon with ownerInstalled := true }, ident := { m.ident with nonce := some (zeros 32, 0) } }))
      .ownerProveProof (req' 0 0x208 [(0, 1, 1)]) 0x208 (fun m => m.ident.nonce == some (zeros 32, 0) && m.aon.ownerInstalled)] := by decide +kernel

/-- A helper of which some bytes have come, and a key. -/
def ident (f : Ident → Ident) (m : Mod) : Mod := { m with ident := f m.ident }
def wPart (n : Nat) : Chunked := { total := 8, got := zeros n }

/-- Port 3 in a state, a hello kept or not. -/
def port3 (st : PortState) (h : List Byte := []) (m : Mod) : Mod := { m with ports := [(3, { state := st, nhello := h, challenge := some 5 })] }

def quietB (m : Mod) : Bool := m.ports.all (fun p => (p.2.state != .up && p.2.state != .isolated) || p.2.nhello == [])

/-- A challenge of port 3 under way, with the port's verification. -/
def challenged (verif : Nat) (st : PortState) (m : Mod) : Mod :=
  { wLong (.challenge 8) m with ports := [(3, { state := st, verif := verif, challenge := some 0 })] }

theorem witness_IdentityAndLinkCommands : Cases ([
    allowedB (wBox 0 0).m (.supplyPufHelper (req' 0 12 [(0, 4, 8), (4, 4, 4)])) (req' 0 12 [(0, 4, 8), (4, 4, 4)]),
    allows (wBox 0 0 (ident (fun d => { d with helper := some (wPart 4) }))) .supplyPufHelper (req' 0 11 [(0, 4, 8), (4, 4, 4)]) 11,
    allows (wBox 0 0 (ident (fun d => { d with helper := some (wPart 4) }))) .supplyPufHelper (req' 0 12 [(0, 4, 8), (4, 4, 4)]) 12 (!·.long 0),
    allows (wBox 0 0) .supplyPufHelper (req' 0 16 [(0, 4, 8)]) 16,
    allows (wBox 0 0 (ident (fun d => { d with key := some (zeros 64), certXfer := some (wPart 4) }))) .supplyIdentityCert (req' 0 11 [(0, 4, 8), (4, 4, 4)]) 11 (·.ident.key.isSome),
    allows (wBox 0 0 (ident (fun d => { d with key := some (zeros 64) }))) .supplyIdentityCert (req' 0 16 [(0, 4, 8)]) 16 (·.ident.cert.isEmpty),
    (wBox 0 0 (wLong (.puf (zeros 64)))).m.jobs.any (fun j => j.kind == .puf (zeros 64) && j.mb == 3) && (zeros 64).length == 64] ++
    [(8191, 1), (8192, 1), (0, 1768), (8192 - 1767, 1768), (1535, 1), (1536, 1)].map (fun p =>
      let q := req' 1 4 [(0, 2, p.1), (2, 2, p.2)]
      allows (wBox 2 1) .getDescriptor q 4 (fun _ => decide (1 ≤ q.fld 2 2 ∧ q.fld 2 2 ≤ 1768)) && allowedB (wBox 2 1).m (.getTopology q) q) ++
    [(0, false), (5, false), (6, false), (0, true)].map (fun p =>
      let q := req' 0 12 [(0, 8, 5), (8, 2, 1), (10, 2, 3)]
      allows (wBox 1 0 (fun m => { (if p.2 then m else { m with regions := [] }) with topo := { m.topo with partition := p.1 } })) .setPartition q 12
        (fun m => q.fld 0 8 != 0 && m.anyRunning == p.2 && m.topo.partition == p.1 && quietB m && m.topo.reach.isEmpty)) ++ [
    allows (wBox 1 0 (port3 .hello)) .linkDisable (req' 0 80 [(4, 4, 8)]) 80 (fun m => (m.port 3).state != .up && m.topo.reach.isEmpty),
    allows (wBox 1 0 (port3 .disabled)) .linkEnable (req' 0 80 [(0, 1, 1), (4, 4, 8)]) 80,
    allows (wBox 1 0 (port3 .isolated)) .linkChallenge (req' 0 80 [(0, 1, 2), (4, 4, 8)]) 80 (!·.long 0),
    allows (wBox 1 0 (port3 .up)) .linkChallenge (req' 0 80 [(0, 1, 2), (4, 4, 8)]) 80 (fun m => (m.port 3).state == .up && m.topo.reach.isEmpty),
    allows (wBox 1 0 (port3 .up)) .requireVerified (req' 0 80 [(0, 1, 3), (8, 4, 1)]) 80 quietB, allows (wBox 1 0) .trustAnchor (req' 0 80 [(0, 1, 4), (16, 1, 5)]) 80] ++
    [(1, PortState.up), (2, .up), (3, .up), (1, .down)].map (fun p =>
      let m := (wBox 1 0 (challenged p.1 p.2)).m
      m.jobs.any (fun j => j.kind == .challenge 8 && j.mb == 3) && (m.port 3).verif == p.1)) := by decide +kernel

/-- Session 1 with page 0 resident and writable and page 1 pageable, both devices' edges trained; another request of the module. -/
def wPages (kind mb : Nat) (f : Mod → Mod := id) : State :=
  wBox kind mb (fun m => f { m with
    alloc := { pt := [(pteKey 1 0, 0xC800000000000005#64), (pteKey 1 1, 0xA800000000000000#64)], hostMap := [] }
    desc := { m.desc with stockTrained := 0xFFFFFFFF } })

def alloc (n flags dev at' host : Nat) : Req := req' 3 20 [(0, 4, n), (4, 2, flags), (6, 1, dev), (8, 8, at'), (16, 4, host)]

/-- A page held by a transfer of the session's gang. -/
def held (page : Nat) (m : Mod) : Mod :=
  m.onRegion 0 (fun g => { g with run := { g.run with session := 1 }, eng := { g.eng with xfers := [wXfer 1 false false (page * 2 ^ 21) 1] } })

def rough (m : Mod) : Mod := { m with aon := { m.aon with state := .roughCut } }

theorem witness_StockCommandsTakeEffect : Cases ([
    allows (wPages 2 3) .stockAlloc (alloc 999 0 0 0 0) 20 (fun m => m.holds 3 1 && decide (m.quotaOf 1 < m.quotaUsed 1 + 999)),
    allows (wPages 2 3) .stockAlloc (alloc 1 0 0 0 0) 20 (fun m => decide (m.quotaUsed 1 + 1 ≤ m.quotaOf 1) && m.freeRun 1 1 == some 2 && m.freeWide 1 == some [1]),
    allows (wPages 2 3) .stockAlloc (alloc 2 0xD 0 (2 ^ 48 - 2 ^ 22) 5) 20 (fun m => (pageRange (2 ^ 27 - 2) 2).all (fun k => !pteValid (m.pte 1 k))),
    allows (wPages 2 3 rough) .stockAlloc (alloc 1 6 0xFF 0 0) 20 (fun m => m.freeNarrow none 1 == some [2 ^ 20]),
    allows (wPages 2 3) .stockAlloc (alloc 1 3 31 0 7) 20 (fun m => m.freeNarrow (some 31) 1 == some [2 ^ 20 + 31 * 256])] ++
    [(0, 1, true), (0, 2, true), (1, 2, false), (2 ^ 27 - 1, 1, false)].map (fun p =>
      allows (wPages 2 3) .stockFree (req' 3 12 [(0, 8, p.1 * 2 ^ 21), (8, 4, p.2.1)]) 12 (fun m =>
        m.holds 3 1 && decide (p.1 + p.2.1 ≤ 2 ^ 27) && m.ownPages 1 p.1 p.2.1 == p.2.2)) ++ [
    allows (wPages 2 3 (held 0)) .stockFree (req' 3 12 [(8, 4, 1)]) 12 (fun m => m.pageHeld 1 0),
    allows (wPages 2 3) .stockMapHost (req' 3 24 [(0, 4, 2 ^ 31 - 2), (4, 4, 2), (8, 8, 2 ^ 21)]) 24, allows (wPages 2 3) .stockPin (req' 3 16 [(8, 4, 1), (12, 1, 1)]) 16 (fun m => m.ownPages 1 0 1 && !m.long 3),
    allows (wPages 2 3) .stockPin (req' 3 16 [(8, 4, 3), (12, 1, 1)]) 16 (fun m => !m.ownPages 1 0 3), allows (wPages 2 3) .stockUnpin (req' 3 16 [(8, 4, 2)]) 16 (fun m => m.ownPages 1 0 2 && m.jobs.isEmpty),
    (wPages 2 3 (wLong (.pin 0 1))).m.jobs.any (fun j => j.mb == 3 && j.kind == .pin 0 1) && pteResident ((wPages 2 3).m.pte 1 0),
    allows (wPages 2 3) .stockFill (req' 3 32 [(0, 8, 2 ^ 48 - 512), (8, 8, 512), (16, 2, 1)]) 32 (fun m => m.aon.state != .standby && !m.long 3),
    (wPages 2 3 (wLong (.fill 512 1024 512 false 3))).m.jobs.any (fun j => j.kind == .fill 512 1024 512 false 3) &&
      (let e := (wPages 2 3).m.pte 1 0; pteValid e && pteWritable e && pteResident e),
    (wPages 2 3 (wLong (.fill (2 ^ 22) 1024 512 false 3))).m.jobs.any (fun j => j.kind == .fill (2 ^ 22) 1024 512 false 3) && !pteValid ((wPages 2 3).m.pte 1 2)] ++
    [false, true].map (fun b => allows (wPages 1 0 (fun m => { m with aon := { m.aon with inFlight := b } })) .wheelSet (req' 0 12 [(0, 1, 2), (8, 2, 0x18E3)]) 12
      (fun m => m.aon.inFlight == b))) := by decide +kernel

/-- The module with each path's connection at a stage, the identity key ready or not. -/
def wPaths (stage : Fin 4) (ready : Bool) : State :=
  wBox 1 0 (fun m => { m with aon := { m.aon with identityReady := ready }
                              ident := { m.ident with doe := { stage := stage }, mctp := { stage := stage }, attest := { stage := stage } } })

theorem witness_AttestationAnswers : Cases ([SpdmVia.doe, .mctp, .attest (req' 0 5)].map (·.ok) ++ [(0, false), (1, false), (2, true), (3, false), (3, true)].flatMap (fun p =>
    let s := wPaths p.1 p.2
    let n := zeros 32
    [Instr.getVersion, .getCapabilities, .negotiateAlgorithms, .getDigests, (.getCertificate · 3 0xFFFF), (.challenge · n), (.getMeasurements · n true 255),
     (.getMeasurements · n false 5), (.getMeasurements · n false 6), .spdmUnsupportedRequest].map (fun c => allows s (fun q => c (.attest q)) (req' 0 5) 5 (fun m =>
        m.aon.state != .off && m.ident.attest.stage == p.1 && m.ident.doe.stage == p.1 && m.aon.identityReady == p.2 && n.length == 32)))) := by decide +kernel

/-- Session 1 with an image of two parts, placed on regions 0 and 1 as gangs 1 and 2, neither running; another state of the module. -/
def wGang (f : Mod → Mod := id) (g : Gang → Gang := id) (x : Placement → Placement := id) : State :=
  wBox 2 3 (fun m => f { (m.setRegion 0 { m.region 0 with run := {}, dom := .off }) with
    desc := { m.desc with tested := 0x1FFFFFF, fence := [(0, 0), (32, 0), (33, 0), (64, 0)] }
    images := m.images.map (fun i => { i with parts := [wDecl, { wDecl with part := 1, cores := 2, drawers := [] }] })
    placements := m.placements.map (fun p => x { p with
      gangs := [g { id := 1, part := 0, region := 0, sites := [0] }, g { id := 2, part := 1, region := 1, sites := [32, 33] }] })
    nextGang := 3 })

/-- Both parts of that placement running. -/
def wBoth (f : Mod → Mod := id) : State :=
  wGang (fun m => f ((m.onRegion 0 (fun y => { y with dom := .awake, step := 8, decl := wDecl, run := { gang := 1, running := true }, site := [0] })).onRegion 1
    (fun y => { y with dom := .awake, step := 8, decl := { wDecl with part := 1 }, run := { gang := 2, running := true }, site := [32, 33] })))
    (fun y => { y with running := true, started := true })

/-- That placement pre-empted. -/
def wSaved (f : Mod → Mod := id) : State :=
  wGang f (fun y => { y with started := true, saved := some { seq := { pos := 9, addr := 3, g := 5 }, dig := { boundaries := 2 }, cores := [wCore] } }) (fun p => { p with preempted := true })

/-- Nothing placed. -/
def wFree (f : Mod → Mod := id) : State := wGang (fun m => f { m with placements := [] })

/-- An image of one part of one core, one bundle and one energy entry, at an address of host memory. -/
def wProgram (a : Nat) (len : Nat) (m : Mod) : Mod :=
  { m with host := { m.host with mem := ([(0, 0x4B), (1, 0x57), (2, 0x49), (3, 0x4D), (4, 1), (6, 0xA1), (8, 1), (12, 1), (0x20, len % 256), (0x21, len / 256), (0x40, 0x80), (0x44, 0xF0),
    (0x82, 1), (0x8A, 1), (0x94, 0x80), (0xA0, 0xC0), (0xA4, 1)] : List (Nat × Nat)).foldl (fun (h : Mem 8) x => h.set (a + x.1) (BitVec.ofNat 8 x.2)) Mem.zero } }

def start (flags base : Nat) : Req := req' 3 0x34 [(0, 2, 1), (2, 2, flags), (8, 8, base), (0x10, 8, 77), (0x18, 8, 88), (0x20, 8, 99)]

def place (want : List Nat) : Req := req' 3 0x328 ([(0, 2, 1), (6, 1, 1), (0x28, 8, 4 * 2 ^ 48 + 5)] ++ want.zipIdx.map (fun x => (8 + x.2, 1, x.1)))

def resume (flags base : Nat) (want : List Nat) : Req := req' 3 0x2C ([(0, 2, 1), (2, 2, flags), (8, 8, base)] ++ want.zipIdx.map (fun x => (0x10 + x.2, 1, x.1)))

def gangReq (n g : Nat) (fs : List (Nat × Nat × Nat) := []) : Req := req' 3 n ((0, 2, g) :: fs)

/-- The clause's hypotheses of a start: the placement and image named, its regions apart, idle and settled, its cores found. -/
def startsB (q : Req) (m : Mod) : Bool :=
  match m.placement 1, m.image 1 with
  | some p, some i => m.holds 3 0 && m.owns 3 p.session && p.image == 1 && !p.preempted && decide ((p.gangs.map (·.region)).Nodup ∧ (p.gangs.map (·.id)).Nodup) &&
      p.gangs.length == i.parts.length && m.regions.all (fun r => !r.2.pendingChange) && p.gangs.all (fun g => !(m.region g.region).run.running && (m.region g.region).run.settled) &&
      (p.gangs.zip i.parts).all (fun x => decide (x.2.cores ≤ (m.usableSites x.1.region).length)) && (q.fld 2 2 % 2 == 0 || decide (m.aon.stick.toNat + 92160 ≤ q.fld 8 8)) && q.fld 2 2 / 8 % 2 == 0
  | _, _ => false

def resumesB (q : Req) (rs : List Nat) (m : Mod) : Bool :=
  match m.placement 1, m.image 1 with
  | some p, some i => m.holds 3 0 && m.owns 3 p.session && p.image == 1 && p.preempted && !m.long 3 && decide ((p.gangs.map (·.region)).Nodup ∧ (p.gangs.map (·.id)).Nodup) &&
      p.gangs.length == i.parts.length && m.regions.all (fun r => !r.2.pendingChange) && p.gangs.all (fun g => g.saved.isSome) &&
      (q.fld 2 2 % 2 == 0 || decide (m.aon.stick.toNat + 92160 ≤ q.fld 8 8)) &&
      chooseRegions (regionFits m (m.maskOf 3)) ((List.range 2).map (fun k => q.byte (0x10 + k))) (i.parts.map (·.cores)) == some rs && decide rs.Nodup &&
      rs.all (fun r => !(m.region r).run.running && (m.region r).run.settled) && (admitParts m rs i.parts).isSome
  | _, _ => false

def partOf (m : Mod) (p : Placement → Bool) : Bool := m.holds 3 0 && (m.placement 1).any (fun x => m.owns 3 x.session && p x)

def wRes (f : Mod → Mod := id) : State := wBoth (fun m => f (wLong (.resume 1 55) m))

theorem witness_GangCommandsTakeEffect_images : Cases [
    allows (wFree) .programLoad (req' 3 16 [(8, 4, 368), (12, 2, 1)]) 16 (fun m => m.holds 3 0 && !m.long 3 && m.aon.state != .standby),
    (wFree (fun m => wProgram 1000 368 (wLong (.load 1000 368 true false) m))).m.jobs.any (fun j => j.mb == 3 && j.kind == .load 1000 368 true false),
    (match loadImage 1 (fun o => (wFree (wProgram 1000 368)).m.host.mem.get (1000 + o)) 368 true (wFree (wProgram 1000 368)).m with
      | .inl _ => true
      | .inr _ => false),
    (match loadImage 1 (fun o => (wFree (wProgram 1000 367)).m.host.mem.get (1000 + o)) 368 true (wFree (wProgram 1000 367)).m with
      | .inl _ => false
      | .inr _ => true),
    allows (wBoth) .programUnload (req' 3 4 [(0, 2, 9)]) 4 (fun m => m.image 9 == none && m.holds 3 0),
    allows (wBoth) .programUnload (req' 3 4 [(0, 2, 1)]) 4 (fun m => (m.image 1).any (fun i => m.owns 3 i.session)),
    allows (wBoth) .gangPlace (place [0, 1]) 0x328 (fun m => (m.image 1).any (fun i => m.owns 3 i.session) && m.placements.any (fun x => x.image == 1)),
    allows (wFree) .gangPlace (place [0xFF, 1]) 0x328 (fun m =>
      m.placements.isEmpty && chooseRegions (regionFits m (m.maskOf 3)) [0xFF, 1] [1, 2] == some [0, 1] && freshIds m.nextGang 2 m.gangIds == some 3 &&
      (placeSigs (place [0xFF, 1])).all (fun x => x.remote || decide (3 ≤ x.gang ∧ x.gang < 5)) && decide (m.quotaUsed 1 + savePagesOf [wDecl, { wDecl with cores := 2 }] ≤ m.quotaOf 1) &&
      (m.tirixPages (savePagesOf [wDecl, { wDecl with cores := 2 }])).isSome && m.aon.state == .full),
    allows (wBoth) .gangPlaceRelease (req' 3 0x328 [(2, 1, 1), (4, 2, 1)]) 0x328 (partOf · (fun x => x.gangs.any (·.running))),
    allows (wGang) .gangPlaceRelease (req' 3 0x328 [(2, 1, 1), (4, 2, 1)]) 0x328 (partOf · (fun x => !x.preempted && x.gangs.all (fun g => !g.running)))] := by decide +kernel

theorem witness_GangCommandsTakeEffect_runs : Cases [
    allows (wGang) .gangStart (start 0 0) 0x34 (fun m => startsB (start 0 0) m && (admitParts m [0, 1] ((m.images.map (·.parts)).getD 0 [])).isSome),
    allows (wGang) .gangStart (start 7 92160) 0x34 (startsB (start 7 92160)),
    allows (wGang (fun m => { m with settings := { m.settings with envelope := 1 } })) .gangStart (start 0 0) 0x34 (fun m =>
      startsB (start 0 0) m && admitParts m [0, 1] ((m.images.map (·.parts)).getD 0 []) == none),
    allows (wGang) .gangStop (gangReq 4 1) 4 (partOf · (fun x => x.gangs.all (fun g => !g.running))),
    allows (wBoth) .gangStop (gangReq 4 1) 4 (fun m => partOf m (fun x => x.gangs.any (·.running) && x.gangs.all (fun g => (m.region g.region).run.gang == g.id))),
    allows (wGang) .gangPreempt (gangReq 4 1) 4 (fun m => partOf m (fun x => x.gangs.any (fun g => !g.running)) && !m.long 3),
    allows (wBoth) .gangPreempt (gangReq 4 1) 4 (fun m => partOf m (fun x => x.gangs.all (·.running)) && !m.long 3),
    allows (wSaved) .gangResume (resume 0 0 [0xFF, 1]) 0x2C (resumesB (resume 0 0 [0xFF, 1]) [0, 1]),
    allows (wSaved) .gangResume (resume 1 92160 [0, 0xFF]) 0x2C (resumesB (resume 1 92160 [0, 0xFF]) [0, 1]),
    (wGang (wLong (.resume 1 55))).m.jobs.any (fun j => j.mb == 3 && j.kind == .resume 1 55) && partOf (wGang).m (fun p => p.gangs.any (fun g => !g.running)),
    (let m := (wRes (fun m => m.onRegion 1 (fun g => { g with seq := { g.seq with resumeIssue := true } }))).m
     partOf m (fun p => p.gangs.all (·.running) && p.gangs.any (fun g => (m.region g.region).seq.resumeIssue))),
    (let m := (wRes).m
     partOf m (fun p => p.gangs.all (·.running) && p.gangs.all (fun g => !(m.region g.region).seq.resumeIssue))),
    allows (wBoth) .gangStatus (gangReq 4 9) 4 (fun m => m.observesGang 3 9 && (m.placementOf 9).isNone),
    allows (wBoth) .gangStatus (gangReq 4 2 [(2, 2, 1)]) 4 (fun m => m.observesGang 3 2 && (m.placementOf 2).any (fun p => (p.gangs.find? (fun x => x.id == 2)).isSome)),
    allows (wGang) .gangStatus (gangReq 4 1) 4 (fun m => m.observesGang 3 1 && (m.placementOf 1).any (fun p => (p.gangs.find? (fun x => x.id == 1)).isSome))] := by decide +kernel

/-- The witness core with entry 2's ring holding a message of one row, and receives begun. -/
def wRinged (n : Nat) (recvs : List RecvReq) (c : Core := wCore) : Core :=
  { c with ni := { c.ni with rings := [(2, { m := n })], recvs := recvs }, cc := { c.cc with words := (c.cc.words.set 9 (2 ^ 60 + 5)).set 0x781 0x4000000 } }

/-- A request of a debug session, on mailbox 30, over gang 1, running or ended, of that core. -/
def wDebug (running : Bool) (n : Nat := 0) (recvs : List RecvReq := []) : State :=
  wBox 3 30 (fun m => (({ m with desc := { m.desc with tested := 1 } }.onGang 1 (fun g => { g with running := running, started := true })).onRegion 0
    (fun g => { g with run := { g.run with running := running, ended := !running } })).setCore 0 (wRinged n recvs))

def viewB (gang n : Nat) (v : Option GangView → Bool) (m : Mod) : Bool :=
  match m.gangView gang with
  | some (g, _, x) => v x && decide (n < g.sites.length)
  | none => false

def debugB (running : Bool) (m : Mod) : Bool :=
  m.holds 30 4 && (m.placementOf 1).any (fun p => m.debugs 30 p.session) && viewB 1 0 (· == some (if running then .running else .ended)) m

def clamp (kind w v : Nat) : Req := req' 30 16 [(0, 1, kind), (2, 2, 1), (6, 2, w), (8, 8, v)]

def ringB (n : Nat) (busy : Bool) (m : Mod) : Bool :=
  let k := ringUnwrap (Tab.get (m.core 0).ni.rings 2 {}) (ringBase { kind := 2 }) (m.core 0)
  debugB true m && siteRegion 0 == 0 && Tab.find (m.region 0).decl.tags 2 == some { kind := 2 } && k.m == n && (m.core 0).ni.recvs.any (fun y => y.entry == 2 && y.begun) == busy

def counters (cls logical r gang at' n : Nat) : Req := req' 3 12 [(0, 1, cls), (1, 1, logical), (2, 1, r), (4, 2, gang), (6, 2, at'), (8, 2, n)]

def countersB (q : Req) (m : Mod) : Bool :=
  let cls := q.byte 0
  classSize cls != 0 && decide (q.byte 2 < 25 ∧ 1 ≤ q.fld 8 2 ∧ q.fld 8 2 * classSize cls ≤ 1768 ∧ q.fld 6 2 + q.fld 8 2 ≤ (if cls = 9 then 24 else if classPerCore cls then 1024 else 25)) &&
    countersRights m q

def trace (tap trigger r core : Nat) (ring bytes : Nat) : Req := req' 3 20 [(0, 1, tap), (1, 1, trigger), (2, 1, r), (4, 2, core), (8, 8, ring), (16, 4, bytes)]

def traceB (q : Req) (m : Mod) : Bool :=
  decide (q.byte 0 ≤ 2 ∧ q.byte 1 ≤ 2 ∧ q.byte 2 < 25 ∧ q.fld 4 2 < 1024) && m.holds 3 3 && m.occupies 3 (q.byte 2) &&
    (q.byte 0 == 0 || decide (q.fld 16 4 % 32 = 0 ∧ q.fld 8 8 + q.fld 16 4 ≤ 2 ^ 48) && m.rangeOk 1 (q.fld 8 8) (q.fld 16 4) false true)

def peek (space byte core at' n : Nat) : Req := req' 3 12 [(0, 1, space), (1, 1, byte), (2, 2, 1), (4, 2, core), (6, 2, at'), (8, 2, n)]

def wTriggered (digest : Bool) (m : Mod) : Mod :=
  { m.onRegion 0 (fun g => { g with digestOn := digest }) with aon := { m.aon with syncIo := if digest then .markOut else .trigger } }

/-- What a request peeks at is there, of a gang running, ended or saved. -/
def peeks (s : State) (q : Req) (v : Option GangView → Bool) : Bool := allows s .corePeek q 12 (fun m => m.observesGang 3 1 && viewB 1 (q.fld 4 2) v m)

def wEndedGang : State := wGang (fun m => m.onRegion 0 (fun y => { y with run := { y.run with gang := 1, ended := true } })) (fun y => { y with started := true })

theorem witness_ObservationCommands : Cases ([
    allows (wBoth) .clampRead (req' 3 8 [(0, 2, 9), (4, 2, 2047)]) 8 (fun m => m.observesGang 3 9 && (m.placementOf 9).isNone),
    allows (wBoth) .clampRead (req' 3 8 [(0, 2, 2), (2, 2, 1), (4, 2, 2047)]) 8 (fun m => m.observesGang 3 2 && viewB 2 1 (·.isSome) m),
    allows (wSaved) .clampRead (req' 3 8 [(0, 2, 1), (4, 2, 5)]) 8 (fun m => m.observesGang 3 1 && viewB 1 0 (·.isSome) m),
    allows (wDebug false) .clampSetWord (clamp 0 9 5) 16 (debugB false), allows (wDebug true) .clampSetWord (clamp 0 2047 (2 ^ 63 + 2 ^ 46)) 16 (debugB true),
    allows (wDebug true) .clampSetWord (clamp 0 9 (2 ^ 61)) 16 (debugB true),
    allows (wDebug true) .clampSetRing (clamp 1 2 0) 16 (ringB 0 false), allows (wDebug true 1 [{ entry := 2, rq := 1, hen := false, nq := 0, begun := true }]) .clampSetRing (clamp 1 2 0) 16 (ringB 1 true),
    allows (wDebug true 1) .clampSetRing (clamp 1 2 0) 16 (ringB 1 false)] ++
    [counters 9 0 0 0 0 2, counters 9 0 0 0 22 2, counters 1 0 0 0 0 1, counters 5 0 0 0 1 1, counters 7 0 0 0 0 2, counters 2 0 1 0 1023 1, counters 10 0 1 0 0 9].map (fun q =>
      allows (wBoth) .countersRead q 12 (countersB q)) ++
    [counters 3 1 0 2 0 2, counters 8 1 0 2 1 2].map (fun q => allows (wBoth) .countersRead q 12 (fun m => countersB q m && viewB 2 0 (·.isSome) m)) ++ [
    allows (wPages 2 3) .traceConfig (trace 0 2 0 1023 0 0) 20 (traceB (trace 0 2 0 1023 0 0)),
    allows (wPages 2 3 (wTriggered true)) .traceConfig (trace 1 0 0 0 32 64) 20 (fun m => traceB (trace 1 0 0 0 32 64) m && (m.region 0).digestOn),
    allows (wPages 2 3) .traceConfig (trace 2 1 0 0 32 64) 20 (fun m => traceB (trace 2 1 0 0 32 64) m && m.aon.syncIo != .trigger),
    allows (wPages 2 3 (wTriggered false)) .traceConfig (trace 1 1 0 0 32 64) 20 (fun m => traceB (trace 1 1 0 0 32 64) m && !digestHolds m 0 && m.aon.syncIo == .trigger),
    allows (wBoth) .digestRead (gangReq 4 9) 4 (fun m => m.observesGang 3 9 && (m.placementOf 9).isNone),
    allows (wBoth) .digestRead (gangReq 4 2) 4 (fun m => m.observesGang 3 2 && (m.placementOf 2).isSome), allows (wSaved) .digestRead (gangReq 4 1) 4 (fun m => m.observesGang 3 1 && (m.placementOf 1).isSome),
    peeks (wBoth) (peek 0 0 0 16381 3) (·.isSome), peeks (wBoth) (peek 3 1 0 0 2) (·.isSome), Tab.find wDecl.drawers 1 == some { base := 0, slotRows := 2, slotCount := 2, drainReads := 1 }] ++
    [peek 1 0 0 1023 1, peek 2 0 0 1826 222, peek 4 7 0 63 1].flatMap (fun q => [peeks (wBoth) q (· == some .running), peeks wEndedGang q (fun v => v.isSome && v != some .running),
      peeks (wSaved) q (fun v => v.isSome && v != some .running)]) ++
    [allows (wBoth) .telemetryRead (req' 3 0) 0 (·.holds 3 2)]) := by decide +kernel

/-- A request of the owner, region 0 running at step 8 or nothing, with its settings and AON state. -/
def wOwn (s : Settings → Settings := id) (a : Aon → Aon := id) (f : Mod → Mod := id) : State :=
  wBox 1 0 (fun m => f { m with settings := s m.settings, aon := a m.aon })

def fly (b : Bool) (a : Aon) : Aon := { a with inFlight := b }

def setOf (cmd : Req → Instr) (s : Settings → Settings) (n : Nat) (fs : List (Nat × Nat × Nat)) (p : Mod → Bool := fun _ => true) : Bool :=
  allows (wOwn s) cmd (req' 0 n fs) n p

def steps (l : List (Nat × Nat)) : Req := req' 0 28 ((List.range 25).map (fun n => (n, 1, ((l.find? (fun x => x.1 == n)).map (·.2)).getD 0xFF)))

def stepsB (q : Req) (ok : Bool) (m : Mod) : Bool :=
  let xs := ((List.range 25).filter (fun n => q.byte n != 0xFF)).map (fun n => (n, q.byte n))
  (List.range 25).all (fun n => decide (1 ≤ q.byte n ∧ q.byte n ≤ 8 ∨ q.byte n = 0xFF)) && xs.all (stageOk m) == ok &&
    (!ok || xs.all (fun x => !(m.region x.1).run.running) || stageFits m (xs.foldl (fun (t : Tab Nat) x => Tab.set t x.1 x.2) m.settings.stagedSteps))

def clears (state : ModState) (causes : BitVec 9) (f : Aon → Aon := id) : State :=
  wOwn id (fun a => f { a with state := .safeHold, entryState := state, heldCauses := causes, safeCause := 1 })
    (fun m => { m with mailboxes := [(0, { seq := 4, ack := 4 }), (5, { seq := 7, ack := 6 })] })

theorem witness_OwnerSettings : Cases (
    [(true, 8, true), (false, 9, false), (false, 4, true), (false, 1, true)].map (fun p => let q := steps [(if p.2.1 == 4 then 0 else 24, min p.2.1 8)]
      allows (wOwn (fun x => { x with ceiling := if p.2.1 == 9 then 7 else 8, envelope := 165000 }) (fly p.1)) .stepStage q 28 (fun m => stepsB q p.2.2 m && m.aon.inFlight == p.1)) ++
    [(false, 1, true), (true, 2, true), (false, 2, true), (false, 2, false)].map (fun p =>
      allows (wOwn (fun x => { x with stagedSteps := [(3, 2)] }) (fly p.1)) .modeCommit (req' 0 12 [(0, 8, p.2.1), (8, 1, if p.2.2 then 5 else 0), (9, 1, 4)]) 12 (fun m =>
        m.aon.markNumber == 0 && m.aon.inFlight == p.1 && m.regions.all (fun r => !r.2.pendingChange))) ++
    [true, false].map (fun b => allows (wOwn id (fly b)) .modeCommitWithdraw (req' 0 12 [(8, 1, 128)]) 12 (·.aon.inFlight == b)) ++
    [(40000, 41000, 0), (165000, 40000, 0), (40000, 165000, 4), (50000, 50000, 0)].map (fun p =>
      setOf .envelopeSet (fun x => { x with envelope := p.1, envelopeRaises := p.2.2 }) 4 [(0, 4, p.2.1)] (fun m => m.level 0x11 == 1 && m.aon.state != .safeHold)) ++
    [(3, 4, 0), (8, 1, 0), (1, 8, 4)].map (fun p =>
      setOf .ceilingSet (fun x => { x with ceiling := p.1, ceilingRaises := p.2.2 }) 4 [(0, 1, p.2.1)] (fun m => m.level 0x11 == 1 && m.aon.state != .safeHold)) ++
    [0, 1, 64].map (fun n => allows (wOwn id id (fun m => { m with events := { m.events with produced := 66, consumed := 2 } })) .eventAck (req' 0 4 [(0, 4, 2 + n)]) 4 (fun m =>
      decide ((BitVec.ofNat 32 (2 + n) - m.events.consumed).toNat ≤ (m.events.produced - m.events.consumed).toNat))) ++
    [(0, 1), (0xFFFFFFFF, 55)].map (fun p => setOf .logRead id 8 [(0, 4, p.1), (4, 2, p.2)]) ++
    [(0, 1, 0), (0, 2, 0), (32, 2, 1)].map (fun p => setOf .fenceCore id 4 [(0, 2, p.1), (2, 1, p.2.1)] (fun m =>
      m.level 9 == 1 && m.fence p.1 == 0 && !m.mesh.removing.contains p.1 && (p.2.1 == 1 || !m.ringBlocked p.1))) ++
    [(1, 1), (1, 2), (160, 1)].map (fun p => setOf .fenceCore id 4 [(0, 2, p.1), (2, 1, p.2)] (fun m => m.level 9 == 1 && (decide (2 ≤ m.fence p.1) || m.ringBlocked p.1))) ++ [
    allows (clears .full 2 (fun a => { a with pins := { a.pins with holdIn := true } })) .safeHoldClear (req' 0 0) 0 (fun m => causePersists m 1),
    allows (clears .full 2) .safeHoldClear (req' 0 0) 0 (fun m => [1, 2, 3, 4, 5, 6, 7, 8].all (fun k => !causePersists m k) && m.ports.all (fun p => p.2.state != .quiet) && m.topo.reach.isEmpty),
    allows (clears .standby 0x40) .safeHoldClear (req' 0 0) 0 (fun m => [1, 2, 3, 4, 5, 6, 7, 8].all (fun k => !causePersists m k))] ++
    [(8, 1), (8, 2), (14, 3), (1, 0), (1, 3), (2, 0)].map (fun p => setOf .eventPolicy id 16 [(0, 1, 1), (2, 2, p.1), (4, 4, p.2)]) ++
    [(9, 1), (1, 65535)].map (fun p => setOf .progressMarks id 16 [(0, 1, 2), (2, 2, p.1), (4, 4, p.2)] (fun m => (m.placement p.1).isSome == (p.1 == 1))) ++
    [0, 1, 2, 3].map (fun v => allows (wOwn id id (wTriggered false)) .syncIo (req' 0 16 [(0, 1, 3), (4, 4, v)]) 16) ++
    [0, 1].map (fun v => setOf .bar2Window id 16 [(0, 1, 4), (4, 4, v), (8, 8, 2 ^ 21 * 5)])) := by decide +kernel

/-- The module in a state with mailboxes 0 and 5, whose request area holds a request. -/
def wArea (state : ModState) (cmd : W16 := 1) (len : W32 := 0) (f : Mod → Mod := id) : State :=
  wBox 1 0 (fun m => f { m with aon := { m.aon with state := state }, bringup := { m.bringup with pcieReady := true }
                                mailboxes := [(0, { seq := 3, ack := 3, reqCommand := cmd, reqLength := len }), (5, { seq := 8, ack := 8, reqCommand := cmd, reqLength := len, reqBody := [1, 2] })] })

def writes (s : State) (off : Nat) (bytes : List Byte) (p : Mod → Bool := fun _ => true) : Bool :=
  (Instr.registerWrite (BitVec.ofNat 26 off) bytes).wf && decide (off < 2 ^ 26) && p s.m

/-- A write to the SEQ of mailbox 5 or 0 of such a module. -/
def rings' (s : State) (n : Nat) (v : W32) (serves : Bool) (p : Mailbox → Bool := fun _ => true) : Bool :=
  writes s (n * 4096) (bytesOf v 4) (fun m => m.aon.state != .off && (m.aon.state != .safeHold || n == 0) && m.kindOf n ≤ 4 &&
    (m.aon.tirixRunning && !bit m.aon.heldCauses 7 && !bit m.aon.heldCauses 8) == serves && p (m.mailbox n))

def stopped (m : Mod) : Mod := { m with aon := { m.aon with tirixRunning := false } }

/-- The window at page `page` of session 1's addresses, pages 0 and 1 as in `wPages` and 0 writable. -/
def wWindow (state : ModState) (page : Nat) (wait : List (Nat × Bool × List Byte)) : State :=
  wArea state 1 0 (fun m => { m with
    alloc := { pt := [(pteKey 1 0, 0xC800000000000005#64), (pteKey 1 1, 0xA800000000000000#64), (pteKey 1 3, 0xC000000000000007#64)], hostMap := [] }
    settings := { m.settings with bar2On := true, bar2Base := BitVec.ofNat 64 (page * 2 ^ 21) }, host := { m.host with bar2Wait := wait } })

def windowB (state : ModState) (page off : Nat) (waits : List (Nat × Bool × List Byte)) (reads writes : Bool) : Bool :=
  let m := (wWindow state page waits).m
  let e := m.pte (m.sessId 0) ((m.settings.bar2Base.toNat + off) / 2 ^ 21)
  let on := decide (m.settings.bar2On = true ∧ m.aon.state ∈ [ModState.roughCut, .full, .standby] ∧ m.settings.bar2Base.toNat + off < 2 ^ 48) && pteValid e && pteResident e
  m.aon.state != .off && m.bringup.pcieReady && m.settings.bar2Base.toNat % 2 ^ 21 == 0 && (Instr.bar2Read (BitVec.ofNat 36 off) 64).wf && (Instr.bar2Write (BitVec.ofNat 36 off) (zeros 64)).wf &&
    on == reads && (on && pteWritable e) == writes && m.host.bar2Wait == waits

theorem witness_RegistersAndWindow : Cases ([
    writes (wArea .full) 0x20000 [1], writes (wArea .full) 0xFFFFFF [1],
    writes (wArea .full) 0x5020 [1], writes (wArea .full) 0x57C0 (zeros 64) (fun m => (m.mailbox 5).seq == (m.mailbox 5).ack && (m.mailbox 5).reqBody.length ≤ 2016),
    writes (wArea .safeHold) 0x800 [7] (fun m => (m.mailbox 0).seq == (m.mailbox 0).ack), writes (wArea .full) 0x5FFF [7],
    rings' (wArea .full) 5 8 true (fun b => b.ack == 8), rings' (wArea .full 1 0 stopped) 5 9 false, rings' (wArea .full 0x7F) 5 9 true (fun b => !commandCodes.contains b.reqCommand.toNat && b.ack == 8),
    rings' (wArea .safeHold 0x7F) 0 9 true (fun b => !commandCodes.contains b.reqCommand.toNat), rings' (wArea .full 1 4) 5 9 true (fun b => b.reqCommand == 1 && b.reqLength != 0),
    rings' (wArea .full) 5 9 true (fun b => b.reqCommand == 1 && b.reqLength == 0),
    writes (wArea .full) 0x1F00B [1] (·.aon.state == .full), writes (wArea .full) 0x1F00C [1], writes (wArea .full) 0x1F009 [0, 0, 0, 1],
    writes (wArea .full) 0x1000000 [1] (·.aon.state != .boot), writes (wArea .boot) 0x1000008 (bytesOf (300 : W32) 4) (·.aon.state == .boot), writes (wArea .boot) 0x1000010 [1],
    writes (wArea .boot) 0x1000FF0 (List.replicate 16 5), writes (wArea .boot) 0x3FFFFFF [1], writes (wArea .boot) 0x100000C (bytesOf (1 : W32) 4) (·.aon.state == .boot)] ++ [
    windowB .full 0 0 [] true true, windowB .roughCut 0 (6 * 2 ^ 20) [] true false, windowB .full 1 0 [] false false, windowB .full (2 ^ 27 - 1) (2 ^ 36 - 64) [] false false,
    windowB .standby 0 64 [] true true, windowB .full 0 0 [(0, false, zeros 64)] true true, windowB .full 0 (2 ^ 21) [(2 ^ 21, false, zeros 64)] false false]) := by decide +kernel

/-! ### The block as a whole -/

/-- A step that stores to stock, from memories in canonical form. -/
theorem witness_MemoryStaysCanonical : Cases [
    (let s := { wPages 2 3 with pending := [.stockFill (req' 3 32 [(0, 8, 0), (8, 8, 512), (16, 2, 0)])] }
     Mem.wf s.m.stock.mem && Mem.wf s.m.host.mem),
    (let s := { wWindow .full 0 [] with pending := [.bar2Write 0 (List.replicate 64 5)] }
     Mem.wf s.m.stock.mem && Mem.wf s.m.host.mem && (match step s with
      | .next t => t.m.stock.mem != s.m.stock.mem
      | _ => false)),
    QueueWf { State.reset with pending := [.logRead (req' 0 8), .bar2AccessComplete, .setEndpointId 9] }] := by decide +kernel

end Sys2Proof.Tests
end

section
/-!
PROOFS. The module after reset, read through the model's accessors.
-/

namespace Sys2Proof.Proofs

open Sys2Proof Sys2Proof.Machine Sys2Proof.Laws

/-! ### Reads of the module after reset: no table lists anything, so each read gives its default -/

theorem fence_reset (k : Nat) : State.reset.m.fence k = 3 := rfl

theorem region_reset (r : Nat) : State.reset.m.region r = {} := rfl

theorem port_reset (p : Nat) : State.reset.m.port p = {} := rfl

theorem mailbox_reset (b : Nat) : State.reset.m.mailbox b = {} := rfl

theorem level_reset (code : Nat) : State.reset.m.level code = evDefault code := rfl

/-- Settles O59: the scalar fields are those of the reset value, and each table read gives its default. -/
theorem resetLeaves : Obligations.ResetLeaves := by
  unfold Obligations.ResetLeaves
  simp only [fence_reset, region_reset, port_reset, mailbox_reset, level_reset, reset_memories, evDefault, implies_true, and_true]
  decide

end Sys2Proof.Proofs
end

section
/-!
PROOFS. What a write to BAR0 changes: the bytes of a field, a mailbox, the boot window; and the answer to a request that a write of
SEQ posts.
-/

namespace Sys2Proof.Proofs

open Sys2Proof Sys2Proof.Machine Sys2Proof.Laws

/-! ### The bytes of a field after a write -/

theorem patch_length (old : List Byte) (fo o : Nat) (bytes : List Byte) : (patch old fo o bytes).length = old.length := by
  simp [patch]

theorem patch_getD (old : List Byte) (fo o : Nat) (bytes : List Byte) (i : Nat) (h : i < old.length) :
    (patch old fo o bytes).getD i 0 =
      if o ≤ fo + i ∧ fo + i < o + bytes.length then bytes.getD (fo + i - o) 0 else old.getD i 0 := by
  rw [List.getD_eq_getElem _ _ (by rwa [patch_length])]
  simp [patch]

/-- A write that covers no byte of a field leaves it. -/
theorem patch_outside {old : List Byte} {fo o : Nat} {bytes : List Byte} (h : fo + old.length ≤ o ∨ o + bytes.length ≤ fo) :
    patch old fo o bytes = old := by
  refine List.ext_getElem (patch_length ..) fun i hi ho => ?_
  have hr := patch_getD old fo o bytes i ho
  rw [if_neg (by omega)] at hr
  rwa [List.getD_eq_getElem _ _ hi, List.getD_eq_getElem _ _ ho] at hr

/-- A write of exactly a field's bytes replaces it. -/
theorem patch_whole {old : List Byte} {o : Nat} {bytes : List Byte} (h : bytes.length = old.length) : patch old o o bytes = bytes := by
  refine List.ext_getElem (by rw [patch_length, h]) fun i hi hb => ?_
  have hr := patch_getD old o o bytes i (by omega)
  rw [if_pos (by omega), Nat.add_sub_cancel_left] at hr
  rwa [List.getD_eq_getElem _ _ hi, List.getD_eq_getElem _ _ hb] at hr

theorem patchWord_outside {n : Nat} (x : BitVec n) {fo o : Nat} {bytes : List Byte} (hn : n ≤ 8 * (n / 8))
    (h : fo + n / 8 ≤ o ∨ o + bytes.length ≤ fo) : patchWord x fo o bytes = x := by
  rw [patchWord, patch_outside (by rwa [bytesOf_length]), wordOf_bytesOf x _ hn]

theorem patchWord_whole {n : Nat} (x v : BitVec n) {o : Nat} (hn : n ≤ 8 * (n / 8)) :
    patchWord x o o (bytesOf v (n / 8)) = v := by
  rw [patchWord, patch_whole (by simp only [bytesOf_length]), wordOf_bytesOf v _ hn]

theorem patchBit_outside (x : Bool) {fo o : Nat} {bytes : List Byte} (h : fo < o ∨ o + bytes.length ≤ fo) :
    patchBit x fo o bytes = x := if_neg (by omega)

theorem patchBit_inside (x : Bool) {fo o : Nat} {bytes : List Byte} (h : o ≤ fo ∧ fo < o + bytes.length) :
    patchBit x fo o bytes = bit (bytes.getD (fo - o) 0) 0 := by
  rw [patchBit, if_pos h, bit, BitVec.getLsbD, Nat.testBit_zero]
  rfl

theorem slice_length (bs : List Byte) (o k : Nat) : (slice bs o k).length = k := by
  simp only [slice, zeros, List.length_append, List.length_take, List.length_replicate]
  omega

theorem slice_getD (bs : List Byte) (o k i : Nat) (h : i < k) : (slice bs o k).getD i 0 = bs.getD (o + i) 0 := by
  simp only [slice, zeros, List.getD_eq_getElem?_getD, List.getElem?_append, List.length_take, List.length_drop, List.getElem?_take,
    List.getElem?_drop, List.getElem?_replicate]
  by_cases hi : i < bs.length - o
  · rw [if_pos (by omega), if_pos h]
  · rw [if_neg (by omega), List.getElem?_eq_none (by omega : bs.length ≤ o + i)]
    split <;> rfl

/-- REQ_BODY, bytes beyond the list reading as zero, after a write of the request area. -/
theorem patchBody_getD {old : List Byte} {o : Nat} {bytes : List Byte} (hb : 0 < bytes.length) (ho : 0x20 ≤ o)
    (he : o + bytes.length ≤ 0x800) (k : Nat) :
    (patchBody old o bytes).getD k 0 =
      if o ≤ 0x20 + k ∧ 0x20 + k < o + bytes.length then bytes.getD (0x20 + k - o) 0 else old.getD k 0 := by
  rw [patchBody, if_pos (by omega)]
  set len := max old.length (min 2016 (o + bytes.length - 0x20)) with hlen
  by_cases hk : k < len
  · rw [patch_getD _ _ _ _ _ (by rwa [slice_length]), slice_getD _ _ _ _ hk, Nat.zero_add]
  · rw [if_neg (by omega), List.getD_eq_default _ _ (by rw [patch_length, slice_length]; omega),
      List.getD_eq_default _ _ (by omega)]

theorem patchBody_outside {old : List Byte} {o : Nat} {bytes : List Byte} (h : 0x800 ≤ o ∨ o + bytes.length ≤ 0x20) :
    patchBody old o bytes = old := if_neg (by omega)

/-! ### A mailbox after a write (Table 14.4) -/

/-- A write beyond the header leaves every field but REQ_BODY. -/
theorem write_beyond_header (b : Mailbox) {o : Nat} {bytes : List Byte} (ho : 0x20 ≤ o) :
    b.write o bytes = { b with reqBody := patchBody b.reqBody o bytes } := by
  simp only [Mailbox.write, patchBit_outside b.irq (.inl (by omega : 0x0C < o))]
  rw [patchWord_outside b.seq (by decide) (.inl (by omega)), patchWord_outside b.reqCommand (by decide) (.inl (by omega)),
    patchWord_outside b.reqFlags (by decide) (.inl (by omega)), patchWord_outside b.reqLength (by decide) (.inl (by omega)),
    patchWord_outside b.reqTag (by decide) (.inl (by omega))]

/-- The response and completion areas are read only. -/
theorem write_response_area (b : Mailbox) {o : Nat} {bytes : List Byte} (ho : 0x800 ≤ o) : b.write o bytes = b := by
  rw [write_beyond_header b (by omega), patchBody_outside (.inl ho)]

/-- A mailbox whose SEQ the host has written. -/
def withSeq (v : W32) (b : Mailbox) : Mailbox := { b with seq := v }

/-- A write of SEQ's four bytes replaces it alone. -/
theorem write_seq (b : Mailbox) (v : W32) : b.write 0 (bytesOf v 4) = withSeq v b := by
  have hl : (bytesOf v 4).length = 4 := bytesOf_length v 4
  simp only [Mailbox.write, patchBit_outside b.irq (.inr (by omega : 0 + (bytesOf v 4).length ≤ 0x0C)),
    patchBody_outside (old := b.reqBody) (.inr (by omega : 0 + (bytesOf v 4).length ≤ 0x20))]
  rw [patchWord_whole b.seq v (by decide), patchWord_outside b.reqCommand (by decide) (.inr (by omega)),
    patchWord_outside b.reqFlags (by decide) (.inr (by omega)), patchWord_outside b.reqLength (by decide) (.inr (by omega)),
    patchWord_outside b.reqTag (by decide) (.inr (by omega)), withSeq]

/-! ### The request in the area served -/

/-- A module whose mailbox holds no new request, or whose requests wait, serves nothing. -/
theorem servePosted_idle {mb : Fin 32} {m : Mod} (h : (m.mailbox mb.val).seq = (m.mailbox mb.val).ack ∨ ¬ Serves m) :
    servePosted mb m = m := by
  rw [← serving_eq] at h
  exact if_pos (by simpa using h)

/-- The codes of the commands without a selector are among those of Table 14.7. -/
theorem plainCommands_codes {c : Cmd} (h : c ∈ plainCommands) : c.code ∈ commandCodes := by
  have hsub : plainCommands.map Cmd.code ⊆ commandCodes := by decide
  exact hsub (List.mem_map_of_mem h)

theorem subCommand_unknown {code : Nat} (q : Req) (h : code ∉ commandCodes) : subCommand code q = none := by
  unfold subCommand
  split
  case h_8 => rfl
  all_goals exact absurd (by decide) h

/-- A code that Table 14.7 does not hold names no command. -/
theorem commandFor_unknown {code : Nat} (q : Req) (h : code ∉ commandCodes) : commandFor code q = none := by
  have h8 : code ≠ 8 := fun e => h (e ▸ by decide)
  rw [commandFor, if_neg h8, subCommand_unknown q h]
  exact List.find?_eq_none.2 fun c hc he => h (beq_iff_eq.1 he ▸ plainCommands_codes hc)

theorem commandFor_hello (q : Req) : commandFor 1 q = some helloCmd := rfl

theorem servePosted_unknown {mb : Fin 32} {m : Mod} (hn : (m.mailbox mb.val).seq ≠ (m.mailbox mb.val).ack) (hs : Serves m)
    (h : (m.mailbox mb.val).reqCommand.toNat ∉ commandCodes) : servePosted mb m = answerPosted mb.val 0x100 [] m := by
  simp only [servePosted, commandFor_unknown _ h]
  exact if_neg (by simp [serving_eq.2 hs, hn])

/-- The general checks pass a HELLO in FULL but for its length. -/
theorem check_hello {m : Mod} {q : Req} {lengthOk : Mod → Req → Bool} (hstate : m.aon.state = .full) (hkind : m.kindOf q.no ≤ 4) :
    Cmd.check { helloCmd with lengthOk := lengthOk } q m = if lengthOk m q then 0 else 0x101 := by
  have hk : helloCmd.kinds.contains (m.kindOf q.no) = true := by
    rw [show helloCmd.kinds = List.range 5 from rfl, List.contains_iff_mem, List.mem_range]
    omega
  have hst : helloCmd.states.contains m.aon.state = true := by
    rw [hstate]; rfl
  simp only [Cmd.check, hk, hst]
  cases lengthOk m q <;> rfl

theorem serveCmd_hello {m : Mod} {q : Req} {lengthOk : Mod → Req → Bool} (hstate : m.aon.state = .full) (hkind : m.kindOf q.no ≤ 4) :
    serveCmd { helloCmd with lengthOk := lengthOk } q m =
      if lengthOk m q then answerPosted q.no 0 (helloBody q.no m) m else answerPosted q.no 0x101 [] m := by
  rw [serveCmd, check_hello hstate hkind]
  cases lengthOk m q <;> rfl

/-- HELLO posted in FULL: its body where the request has none, E_LENGTH otherwise. -/
theorem servePosted_hello {mb : Fin 32} {m : Mod} (hn : (m.mailbox mb.val).seq ≠ (m.mailbox mb.val).ack) (hs : Serves m)
    (h : (m.mailbox mb.val).reqCommand = 1) (hstate : m.aon.state = .full) (hkind : m.kindOf mb.val ≤ 4) :
    servePosted mb m = if (m.mailbox mb.val).reqLength = 0 then answerPosted mb.val 0 (helloBody mb.val m) m
      else answerPosted mb.val 0x101 [] m := by
  have hidle : ¬ ((m.mailbox mb.val).seq = (m.mailbox mb.val).ack ∨ (!m.serving) = true) := by simp [serving_eq.2 hs, hn]
  have hcode : (m.mailbox mb.val).reqCommand.toNat = 1 := by rw [h]; rfl
  have hzero : (m.mailbox mb.val).reqLength = 0 ↔ (m.mailbox mb.val).reqLength.toNat = 0 := BitVec.toNat_inj.symm
  simp only [servePosted, if_neg hidle, hcode, commandFor_hello, hzero]
  split
  · refine (serveCmd_hello hstate (by exact hkind)).trans (if_congr ?_ rfl rfl)
    simp only [Req.size, slice_length, beq_iff_eq]
    omega
  · exact (serveCmd_hello hstate (by exact hkind)).trans (if_congr (by simp; omega) rfl rfl)

/-- A mailbox whose posted request has been answered: the response, STATUS, and ACK := SEQ (R500). -/
def responded (status : Nat) (body : List Byte) (b : Mailbox) : Mailbox :=
  { b with
    rspCommand := b.reqCommand, rspStatus := BitVec.ofNat 16 status, rspLength := BitVec.ofNat 32 body.length
    rspTag := b.reqTag, rspBody := body, status := BitVec.ofNat 32 status, ack := b.seq }

/-- An answer changes its mailbox, as `responded` says, and the host's side. -/
theorem answerPosted_responded (mb status : Nat) (body : List Byte) (m : Mod) :
    ∃ h, answerPosted mb status body m = { m.onMailbox mb (responded status body) with host := h } := by
  unfold answerPosted
  dsimp only
  split
  · exact sendMsix_host ..
  · exact ⟨_, rfl⟩

/-! ### Register writes that reach a mailbox -/

/-- A mailbox takes register writes: the module is not OFF, and in SAFE_HOLD the mailbox is MB0 (R508). -/
theorem deaf_of_taking {m : Mod} {n : Nat} (hn : n ≤ 30) (hoff : m.aon.state ≠ .off) (hhold : m.aon.state = .safeHold → n = 0) :
    m.deaf n = false := by
  have hno : ¬ 30 < n := by omega
  by_cases hs : m.aon.state = .safeHold
  · simp [Mod.deaf, hs, hhold hs]
  · simp [Mod.deaf, hoff, hno, hs]

theorem writeMailbox_taken {m : Mod} {mb : Fin 32} {o : Nat} {bytes : List Byte} {f : Mailbox → Mailbox} (hd : m.deaf mb.val = false)
    (hirq : 0x0C < o ∨ o + bytes.length ≤ 0x0C) (hf : ∀ b : Mailbox, b.write o bytes = f b) :
    writeMailbox mb o bytes m = servePosted mb (m.onMailbox mb.val f) := by
  rw [writeMailbox, if_neg (by simp [hd]), patchBit_outside false hirq, funext hf]
  rfl

/-! ### MB31 after a write (Table 14.16) -/

/-- MSI-X enabled changes the host's side alone. -/
theorem enableMsix_host (on : Bool) (m : Mod) : ∃ h, enableMsix on m = { m with host := h } := by
  cases on
  · exact ⟨m.host, rfl⟩
  · exact ⟨_, rfl⟩

theorem writeEvents_open {m : Mod} (o : Nat) (bytes : List Byte) (hoff : m.aon.state ≠ .off) (hhold : m.aon.state ≠ .safeHold) :
    ∃ h, writeEvents o bytes m = { m with events := { m.events with irq := patchBit m.events.irq 0x0C o bytes }, host := h } := by
  rw [writeEvents, if_neg (by simp [hoff, hhold])]
  exact enableMsix_host ..

/-- A write clear of EV_FLAGS.IRQ changes nothing. -/
theorem writeEvents_outside {m : Mod} {o : Nat} {bytes : List Byte} (h : 0x0C < o ∨ o + bytes.length ≤ 0x0C) :
    writeEvents o bytes m = m := by
  rw [writeEvents, patchBit_outside _ h, patchBit_outside _ h]
  split <;> rfl

/-! ### The boot window after a write (Table 15.4) -/

/-- BOOT_GO answers the value 1 alone. -/
theorem bootGo_zero (m : Mod) : bootGo 0 m = m := if_pos (.inr (by decide))

/-- Outside BOOT the window takes nothing (R547). -/
theorem writeBoot_closed {m : Mod} (o : Nat) (bytes : List Byte) (h : m.aon.state ≠ .boot) : writeBoot o bytes m = m := if_pos h

/-- FW_IMAGE after a write at an offset of the boot window, from the `j`-th byte written on. -/
def imageAfter (o j : Nat) (bytes : List Byte) (image : Mem 8) : Mem 8 :=
  (bytes.zipIdx j).foldl (fun t x => if 0x1000 ≤ o + x.2 then t.set (o + x.2 - 0x1000) x.1 else t) image

theorem imageAfter_cons (o j : Nat) (b : Byte) (bs : List Byte) (image : Mem 8) :
    imageAfter o j (b :: bs) image =
      imageAfter o (j + 1) bs (if 0x1000 ≤ o + j then image.set (o + j - 0x1000) b else image) := rfl

/-- A byte of FW_IMAGE, at offset 0x1000 of the window and on, reads what was written to it. -/
theorem imageAfter_get (o j k : Nat) (bytes : List Byte) (image : Mem 8) :
    (imageAfter o j bytes image).get k =
      if o + j ≤ 0x1000 + k ∧ 0x1000 + k < o + j + bytes.length then bytes.getD (0x1000 + k - (o + j)) 0 else image.get k := by
  induction bytes generalizing j image with
  | nil => exact (if_neg (by simp)).symm
  | cons b bs ih =>
    rw [imageAfter_cons, ih, List.length_cons]
    by_cases hk : o + j = 0x1000 + k
    · rw [if_neg (by omega), if_pos (by omega), if_pos (by omega), mem_get_set, if_pos (by omega), hk, Nat.sub_self]
      rfl
    · have hkeep : (if 0x1000 ≤ o + j then image.set (o + j - 0x1000) b else image).get k = image.get k := by
        split
        · rw [mem_get_set, if_neg (by omega)]
        · rfl
      rw [hkeep]
      by_cases hin : o + (j + 1) ≤ 0x1000 + k ∧ 0x1000 + k < o + (j + 1) + bs.length
      · rw [if_pos hin, if_pos (by omega), show 0x1000 + k - (o + j) = (0x1000 + k - (o + (j + 1))) + 1 by omega, List.getD_cons_succ]
      · rw [if_neg hin, if_neg (by omega)]

/-- A write below FW_IMAGE leaves it. -/
theorem imageAfter_below {o j : Nat} {bytes : List Byte} (image : Mem 8) (h : o + j + bytes.length ≤ 0x1000) :
    imageAfter o j bytes image = image := by
  induction bytes generalizing j with
  | nil => rfl
  | cons b bs ih =>
    rw [List.length_cons] at h
    rw [imageAfter_cons, if_neg (by omega), ih (by omega)]

/-- A write clear of BOOT_GO, in BOOT: BOOT_LENGTH and FW_IMAGE change, each where it is covered. -/
theorem writeBoot_open {m : Mod} {o : Nat} {bytes : List Byte} (hb : m.aon.state = .boot) (ho : 0x10 ≤ o ∨ o + bytes.length ≤ 0x0C) :
    writeBoot o bytes m = { m with bringup := { m.bringup with
      bootLength := patchWord m.bringup.bootLength 8 o bytes, bootImage := imageAfter o 0 bytes m.bringup.bootImage } } := by
  rw [writeBoot, if_neg (by simp [hb]), patchWord_outside 0 (by decide) (ho.imp id id)]
  exact bootGo_zero _

/-- A write of BOOT_GO's four bytes as 1 is the command. -/
theorem writeBoot_go {m : Mod} (hb : m.aon.state = .boot) : writeBoot 0x0C (bytesOf (1 : W32) 4) m = bootGo 1 m := by
  have hl : (bytesOf (1 : W32) 4).length = 4 := bytesOf_length _ _
  have himage : imageAfter 0x0C 0 (bytesOf (1 : W32) 4) m.bringup.bootImage = m.bringup.bootImage := imageAfter_below _ (by omega)
  rw [imageAfter] at himage
  rw [writeBoot, if_neg (by simp [hb])]
  simp only [himage, patchWord_outside m.bringup.bootLength (by decide) (.inl (by decide : 8 + 32 / 8 ≤ 0x0C)),
    patchWord_whole (0 : W32) 1 (by decide)]

/-! ### Register writes -/

section
variable {s : State} {off : BitVec 26} {bytes : List Byte} (hw : Instr.wf (.registerWrite off bytes) = true)
include hw

theorem registerWrite_length : 0 < bytes.length ∧ off.toNat % 4096 + bytes.length ≤ 4096 := by
  simp only [Instr.wf, Bool.and_eq_true, decide_eq_true_eq] at hw
  exact ⟨hw.1.1, hw.2⟩

/-- A write is carried out as its page says. -/
theorem exec_registerWrite :
    exec (.registerWrite off bytes) s = .next { s with m := writeBar0 off.toNat bytes s.m } := runIf_wf hw ..

/-- BAR0 between the mailboxes and the boot window takes no write. -/
theorem registerWrite_unassigned (hlo : 31 < off.toNat / 4096) (hhi : off.toNat / 4096 < 0x1000) :
    exec (.registerWrite off bytes) s = .next s := by
  rw [exec_registerWrite hw, writeBar0, dif_neg (by omega), if_neg (by omega), if_neg (by omega)]

section
variable {n : Nat} (hpage : off.toNat / 4096 = n) (hn : n ≤ 30) (hd : s.m.deaf n = false)
include hpage hn hd

/-- A write to a mailbox that takes it, clear of FLAGS.IRQ: its fields change, and the request that then waits is served. -/
theorem registerWrite_mailbox {f : Mailbox → Mailbox} (hirq : 0x0C < off.toNat % 4096 ∨ off.toNat % 4096 + bytes.length ≤ 0x0C)
    (hf : ∀ b : Mailbox, b.write (off.toNat % 4096) bytes = f b) :
    exec (.registerWrite off bytes) s = .next { s with m := servePosted ⟨n, by omega⟩ (s.m.onMailbox n f) } := by
  subst hpage
  rw [exec_registerWrite hw, writeBar0, dif_pos (by omega : off.toNat / 0x1000 < 31), writeMailbox_taken hd hirq hf]

/-- A write of the request area of a mailbox with no new request changes the bytes of REQ_BODY that it covers. -/
theorem registerWrite_reqBody (hlo : 0x20 ≤ off.toNat % 4096) (hhi : off.toNat % 4096 + bytes.length ≤ 0x800)
    (hidle : (s.m.mailbox n).seq = (s.m.mailbox n).ack) :
    ∃ t, exec (.registerWrite off bytes) s = .next t ∧ t = { s with m := { s.m with mailboxes := t.m.mailboxes } } ∧
      (∀ k, k ≠ n → t.m.mailbox k = s.m.mailbox k) ∧
      t.m.mailbox n = { s.m.mailbox n with reqBody := (t.m.mailbox n).reqBody } ∧
      ∀ k < 2016, (t.m.mailbox n).reqBody.getD k 0 =
        if off.toNat % 4096 ≤ 0x20 + k ∧ 0x20 + k < off.toNat % 4096 + bytes.length then bytes.getD (0x20 + k - off.toNat % 4096) 0
        else (s.m.mailbox n).reqBody.getD k 0 := by
  have he := registerWrite_mailbox hw hpage hn hd (.inl (by omega)) (fun b => write_beyond_header b hlo)
  rw [servePosted_idle (.inl (by simpa using hidle))] at he
  refine ⟨_, he, rfl, fun k hk => mailbox_onMailbox_other _ _ _ _ hk, ?_, fun k _ => ?_⟩
  · simp only [mailbox_onMailbox]
  · simp only [mailbox_onMailbox]
    exact patchBody_getD (registerWrite_length hw).1 hlo hhi k

/-- A write of the response or completion area of a mailbox with no new request changes nothing. -/
theorem registerWrite_response (hlo : 0x800 ≤ off.toNat % 4096) (hidle : (s.m.mailbox n).seq = (s.m.mailbox n).ack) :
    exec (.registerWrite off bytes) s = .next { s with m := s.m.onMailbox n (fun x => x) } := by
  rw [registerWrite_mailbox hw hpage hn hd (.inl (by omega)) (fun b => write_response_area b hlo),
    servePosted_idle (.inl (by simpa using hidle))]

/-- A write of SEQ replaces it, and the request it posts is served. -/
theorem registerWrite_seq {v : W32} (ho : off.toNat % 4096 = 0) (hb : bytes = bytesOf v 4) :
    exec (.registerWrite off bytes) s = .next { s with m := servePosted ⟨n, by omega⟩ (s.m.onMailbox n (withSeq v)) } := by
  refine registerWrite_mailbox hw hpage hn hd (.inr ?_) fun b => ?_
  · rw [ho, hb, bytesOf_length]; decide
  · rw [ho, hb, write_seq]

/-- A SEQ that posts no request that can be served is written and no more. -/
theorem registerWrite_seq_idle {v : W32} (ho : off.toNat % 4096 = 0) (hb : bytes = bytesOf v 4)
    (hv : Serves s.m → v = (s.m.mailbox n).ack) :
    exec (.registerWrite off bytes) s = .next { s with m := s.m.onMailbox n (withSeq v) } := by
  have hidle : v = (s.m.mailbox n).ack ∨ ¬ Serves s.m := (Classical.em (Serves s.m)).imp hv id
  rw [registerWrite_seq hw hpage hn hd ho hb, servePosted_idle (by rw [mailbox_onMailbox]; exact hidle)]

/-- A SEQ whose request is answered leaves its mailbox with SEQ and the answer, and beside it changes the host's side alone. -/
theorem registerWrite_seq_answered {status : Nat} {v : W32} {body : List Byte} (ho : off.toNat % 4096 = 0) (hb : bytes = bytesOf v 4)
    (hserve : servePosted ⟨n, by omega⟩ (s.m.onMailbox n (withSeq v)) = answerPosted n status body (s.m.onMailbox n (withSeq v))) :
    ∃ t, exec (.registerWrite off bytes) s = .next t ∧
      t = { s with m := { s.m with mailboxes := t.m.mailboxes, host := t.m.host } } ∧ (∀ k, k ≠ n → t.m.mailbox k = s.m.mailbox k) ∧
      t.m.mailbox n = responded status body (withSeq v (s.m.mailbox n)) := by
  obtain ⟨h, ha⟩ := answerPosted_responded n status body (s.m.onMailbox n (withSeq v))
  have he := registerWrite_seq (s := s) hw hpage hn hd ho hb
  rw [hserve, ha, onMailbox_onMailbox] at he
  exact ⟨_, he, rfl, fun k hk => mailbox_onMailbox_other _ _ _ _ hk, mailbox_onMailbox ..⟩

end

/-- A write of MB31 changes EV_FLAGS.IRQ, where it covers it, and with it the host's side; it changes nothing else. -/
theorem registerWrite_events (hpage : off.toNat / 4096 = 31) (hoff : s.m.aon.state ≠ .off) (hhold : s.m.aon.state ≠ .safeHold) :
    ∃ t, exec (.registerWrite off bytes) s = .next t ∧
      t = { s with m := { s.m with events := { s.m.events with irq := t.m.events.irq }, host := t.m.host } } ∧
      (¬ (off.toNat % 4096 ≤ 12 ∧ 12 < off.toNat % 4096 + bytes.length) → t = s) ∧
      (off.toNat % 4096 ≤ 12 ∧ 12 < off.toNat % 4096 + bytes.length →
        t.m.events.irq = bit (bytes.getD (12 - off.toNat % 4096) 0) 0) := by
  have he : exec (.registerWrite off bytes) s = .next { s with m := writeEvents (off.toNat % 4096) bytes s.m } := by
    rw [exec_registerWrite hw, writeBar0, dif_neg (by omega), if_pos hpage]
  obtain ⟨h, ha⟩ := writeEvents_open (off.toNat % 4096) bytes hoff hhold
  refine ⟨_, he, ?_, fun hout => ?_, fun hin => ?_⟩
  · rw [ha]
  · rw [writeEvents_outside (by omega)]
  · rw [ha]
    exact patchBit_inside _ hin

/-- A write to the boot window. -/
theorem registerWrite_window (hlo : 0x1000000 ≤ off.toNat) (hhi : off.toNat < 0x4000000) :
    exec (.registerWrite off bytes) s = .next { s with m := writeBoot (off.toNat - 0x1000000) bytes s.m } := by
  rw [exec_registerWrite hw, writeBar0, dif_neg (by omega), if_neg (by omega), if_pos ⟨hlo, hhi⟩]

theorem registerWrite_window_closed (hlo : 0x1000000 ≤ off.toNat) (hhi : off.toNat < 0x4000000) (hb : s.m.aon.state ≠ .boot) :
    exec (.registerWrite off bytes) s = .next s := by
  rw [registerWrite_window hw hlo hhi, writeBoot_closed _ _ hb]

/-- In BOOT a write clear of BOOT_GO changes BOOT_LENGTH and FW_IMAGE where it covers them, and nothing else. -/
theorem registerWrite_window_open (hlo : 0x1000000 ≤ off.toNat) (hhi : off.toNat < 0x4000000) (hb : s.m.aon.state = .boot)
    (hgo : 0x1000000 + 16 ≤ off.toNat ∨ off.toNat + bytes.length ≤ 0x1000000 + 12) :
    ∃ t, exec (.registerWrite off bytes) s = .next t ∧ t = { s with m := { s.m with bringup := t.m.bringup } } ∧
      t.m.bringup = { s.m.bringup with bootLength := t.m.bringup.bootLength, bootImage := t.m.bringup.bootImage } ∧
      (0x1000000 + 12 ≤ off.toNat → t.m.bringup.bootLength = s.m.bringup.bootLength) ∧
      (off.toNat = 0x1000000 + 8 → ∀ v : W32, bytes = bytesOf v 4 → t.m.bringup.bootLength = v) ∧
      ∀ k, t.m.bringup.bootImage.get k = if off.toNat ≤ 0x1001000 + k ∧ 0x1001000 + k < off.toNat + bytes.length
        then bytes.getD (0x1001000 + k - off.toNat) 0 else s.m.bringup.bootImage.get k := by
  have he := registerWrite_window (s := s) hw hlo hhi
  rw [writeBoot_open hb (by omega)] at he
  refine ⟨_, he, rfl, rfl, fun h => ?_, fun h v hv => ?_, fun k => ?_⟩
  · exact patchWord_outside _ (by decide) (.inl (by omega))
  · rw [h, hv]
    exact patchWord_whole _ v (by decide)
  · rw [show 0x1001000 + k - off.toNat = 0x1000 + k - (off.toNat - 0x1000000 + 0) by omega]
    exact (imageAfter_get ..).trans (if_congr (by omega) rfl rfl)

/-- In BOOT a write of BOOT_GO's four bytes as 1 is BOOT_GO. -/
theorem registerWrite_window_go (hb : s.m.aon.state = .boot)
    (ho : off.toNat = 0x1000000 + 12) (hv : bytes = bytesOf (1 : W32) 4) :
    exec (.registerWrite off bytes) s = exec (.bootGo 1) s := by
  rw [registerWrite_window hw (by omega) (by omega), ho, hv]
  exact congrArg (fun m => Host.Outcome.next { s with m := m }) (writeBoot_go hb)

end

end Sys2Proof.Proofs
end

section
/-!
PROOFS. The BAR2 window: what the translator's marks keep of an entry, bytes of stock read back after a write, and the accesses
served, missed and left to wait.
-/

namespace Sys2Proof.Proofs

open Sys2Proof Sys2Proof.Machine Sys2Proof.Laws

/-! ### Fields and bytes of a word with a field replaced -/

/-- A field apart from a replaced one is kept. -/
theorem sel_put_other {n : Nat} (x : BitVec n) (hi lo v hi' lo' : Nat) (h : lo ≤ hi) (hn : hi < n) (h' : lo' ≤ hi')
    (hd : hi' < lo ∨ hi < lo') : sel (put x hi lo v) hi' lo' = sel x hi' lo' := by
  refine Nat.eq_of_testBit_eq fun i => ?_
  simp only [sel, Nat.testBit_mod_two_pow, Nat.testBit_shiftRight]
  by_cases hi : i < hi' + 1 - lo'
  · rw [show (put x _ lo v).toNat.testBit (lo' + i) = x.toNat.testBit (lo' + i) from bit_put_other x _ lo v _ h hn (by omega)]
  · simp only [hi, decide_false, Bool.false_and]

/-- A byte of a word is a field of it. -/
theorem elem_eq_sel {n : Nat} (x : BitVec n) (i : Nat) : elem 8 x i = BitVec.ofNat 8 (sel x (8 * i + 7) (8 * i)) := by
  refine BitVec.eq_of_toNat_eq ?_
  rw [sel, show 8 * i + 7 + 1 - 8 * i = 8 by omega]
  simp only [elem, BitVec.extractLsb'_toNat, BitVec.toNat_ofNat, Nat.mod_mod]

/-- A byte of a word after another byte, or the same, is replaced. -/
theorem elem_put {n : Nat} (x : BitVec n) (i j : Nat) (b : Byte) (hi : 8 * i + 7 < n) :
    elem 8 (put x (8 * i + 7) (8 * i) b.toNat) j = if j = i then b else elem 8 x j := by
  rw [elem_eq_sel]
  split
  · subst j
    rw [sel_put_same x _ _ _ (by omega) hi, show 8 * i + 7 + 1 - 8 * i = 8 by omega, Nat.mod_eq_of_lt b.isLt, BitVec.ofNat_toNat,
      BitVec.setWidth_eq]
  · rw [sel_put_other x _ _ _ _ _ (by omega) hi (by omega) (by omega), ← elem_eq_sel]

/-! ### Page-table entries -/

/-- An entry as a translator marks it on an access: ACCESSED, and on a write DIRTY (R295). -/
def touched (e : W64) (write : Bool) : W64 := if write then put (put e 57 57 1) 58 58 1 else put e 57 57 1

theorem touched_read (e : W64) : touched e false = put e 57 57 1 := if_neg Bool.false_ne_true

theorem touched_write (e : W64) : touched e true = put (put e 57 57 1) 58 58 1 := if_pos rfl

/-- A mark in bits 57 or 58 keeps the physical page that an entry names. -/
theorem ptePage_put (e : W64) {k : Nat} (hk : k = 57 ∨ k = 58) : ptePage (put e k k 1) = ptePage e := by
  have hkeep : ∀ hi lo, lo ≤ hi → hi < 57 → sel (put e k k 1) hi lo = sel e hi lo := fun hi lo h h57 =>
    sel_put_other e k k 1 hi lo (by omega) (by omega) h (by omega)
  have hnarrow : pteNarrow (put e k k 1) = pteNarrow e := bit_put_other e k k 1 56 (by omega) (by omega) (by omega)
  rw [ptePage, ptePage, hnarrow, hkeep 55 51 (by omega) (by omega), hkeep 39 32 (by omega) (by omega), hkeep 50 32 (by omega) (by omega),
    hkeep 31 31 (by omega) (by omega)]

theorem ptePage_touched (e : W64) (write : Bool) : ptePage (touched e write) = ptePage e := by
  cases write
  · rw [touched_read, ptePage_put e (.inl rfl)]
  · rw [touched_write, ptePage_put _ (.inr rfl), ptePage_put e (.inl rfl)]

theorem pte_setPte (m : Mod) (sess page : Nat) (e : W64) (sess' page' : Nat) :
    (m.setPte sess page e).pte sess' page' = if pteKey sess' page' = pteKey sess page then e else m.pte sess' page' := by
  unfold Mod.setPte Mod.pte
  by_cases h : e = 0
  · rw [if_pos h]
    simp only [Tab.get, find_erase]
    split
    · exact h.symm
    · rfl
  · rw [if_neg h]
    exact get_set ..

/-- An entry is read from the allocation alone. -/
theorem pte_congr {m t : Mod} (h : t.alloc = m.alloc) (sess page : Nat) : t.pte sess page = m.pte sess page := by
  rw [Mod.pte, Mod.pte, h]

/-- An access marks the entries of its page and keeps every other. -/
theorem pte_touchPage (m : Mod) (sess page : Nat) (write : Bool) (sess' page' : Nat) :
    (m.touchPage sess page write).pte sess' page' =
      if pteKey sess' page' = pteKey sess page then touched (m.pte sess page) write else m.pte sess' page' := pte_setPte ..

/-- An access keeps where every byte of stock lies. -/
theorem ptePage_touchPage (m : Mod) (sess page : Nat) (write : Bool) (sess' page' : Nat) :
    ptePage ((m.touchPage sess page write).pte sess' page') = ptePage (m.pte sess' page') := by
  rw [pte_touchPage]
  by_cases h : pteKey sess' page' = pteKey sess page
  · rw [if_pos h, ptePage_touched, Mod.pte, Mod.pte, h]
  · rw [if_neg h]

/-- An access keeps what every byte of stock reads. -/
theorem stockByte_touchPage (m : Mod) (sess page : Nat) (write : Bool) (sess' sa : Nat) :
    (m.touchPage sess page write).stockByte sess' sa = m.stockByte sess' sa := by
  unfold Mod.stockByte saChunk
  rw [ptePage_touchPage]
  rfl

/-! ### Bytes of stock written -/

/-- Chunks of one page are apart (R292, R296). -/
theorem pageChunk_inj {p j j' : Nat} (h : pageChunk p j = pageChunk p j') : j = j' := by
  unfold pageChunk at h
  split at h <;> omega

/-- A byte stored is the one write of `Mod.stockWrite`. -/
def storeByte (m : Mod) (sess sa : Nat) (b : Byte) : Mod :=
  let k := saChunk (m.pte sess (sa / 2 ^ 21)) sa
  m.setChunk k (put (m.chunk k) (8 * (sa % 1024) + 7) (8 * (sa % 1024)) b.toNat)

theorem stockWrite_cons (m : Mod) (sess sa : Nat) (b : Byte) (bs : List Byte) :
    m.stockWrite sess sa (b :: bs) = (storeByte m sess sa b).stockWrite sess (sa + 1) bs := rfl

/-- A byte of a page after a byte of that page is stored. -/
theorem stockByte_storeByte (m : Mod) (sess sa a : Nat) (b : Byte) (h : sa / 2 ^ 21 = a / 2 ^ 21) :
    (storeByte m sess sa b).stockByte sess a = if a = sa then b else m.stockByte sess a := by
  set e := m.pte sess (a / 2 ^ 21)
  have hread : (storeByte m sess sa b).stockByte sess a = elem 8 (if saChunk e a = saChunk e sa
      then put (m.chunk (saChunk e sa)) (8 * (sa % 1024) + 7) (8 * (sa % 1024)) b.toNat else m.chunk (saChunk e a)) (a % 1024) := by
    rw [storeByte, h]
    exact congrArg (elem 8 · (a % 1024)) (mem_setChunk ..)
  rw [hread]
  by_cases hk : saChunk e a = saChunk e sa
  · have hj : a % 2 ^ 21 / 1024 = sa % 2 ^ 21 / 1024 := pageChunk_inj hk
    rw [if_pos hk, elem_put _ _ _ _ (by omega), ← hk]
    exact if_congr (by omega) rfl rfl
  · rw [if_neg hk, if_neg fun he => hk (by rw [he])]
    rfl

/-- A byte of a page after a run of its bytes is written. -/
theorem stockByte_stockWrite (m : Mod) (sess sa a : Nat) (bs : List Byte) (h : ∀ i < bs.length, (sa + i) / 2 ^ 21 = a / 2 ^ 21) :
    (m.stockWrite sess sa bs).stockByte sess a =
      if sa ≤ a ∧ a < sa + bs.length then bs.getD (a - sa) 0 else m.stockByte sess a := by
  induction bs generalizing m sa with
  | nil => exact (if_neg (by simp)).symm
  | cons b bs ih =>
    rw [List.length_cons] at h
    have htail : ∀ i < bs.length, (sa + 1 + i) / 2 ^ 21 = a / 2 ^ 21 := fun i hi => by
      rw [Nat.add_assoc, Nat.add_comm 1]
      exact h _ (by omega)
    rw [stockWrite_cons, ih _ _ htail, stockByte_storeByte _ _ _ _ _ (show sa / 2 ^ 21 = a / 2 ^ 21 from h 0 (by omega)), List.length_cons]
    by_cases hin : sa + 1 ≤ a ∧ a < sa + 1 + bs.length
    · rw [if_pos hin, if_pos (by omega), show a - sa = a - (sa + 1) + 1 by omega, List.getD_cons_succ]
    · rw [if_neg hin]
      by_cases he : a = sa
      · rw [if_pos he, if_pos (by omega), he, Nat.sub_self, List.getD_cons_zero]
      · rw [if_neg he, if_neg (by omega)]

/-! ### The window (R493 to R495) -/

/-- The window is on: enabled, in a state that has stock. -/
def WindowOn (m : Mod) : Prop := m.settings.bar2On = true ∧ m.aon.state ∈ [ModState.roughCut, .full, .standby]

/-- An access at an offset reaches stock: the window is on, the stock address is below 2^48, and the owner's page there is valid,
resident and, for a write, writable. -/
def WindowReaches (m : Mod) (off : Nat) (write : Bool) : Prop :=
  let e := m.pte (m.sessId 0) (m.bar2Sa off / 2 ^ 21)
  WindowOn m ∧ m.bar2Sa off < 2 ^ 48 ∧ pteValid e = true ∧ pteResident e = true ∧ (write = true → pteWritable e = true)

theorem bar2Enabled_iff (m : Mod) : m.bar2Enabled = true ↔ WindowOn m := by
  rw [Mod.bar2Enabled, Bool.and_eq_true, List.contains_iff_mem]
  rfl

theorem bar2Ok_iff (m : Mod) (off : Nat) (write : Bool) : m.bar2Ok off write = true ↔ WindowReaches m off write := by
  have hone : (m.bar2Sa off + 1 + 2 ^ 21 - 1) / 2 ^ 21 - m.bar2Sa off / 2 ^ 21 = 1 := by omega
  rw [Mod.bar2Ok, Bool.and_eq_true, Bool.and_eq_true, bar2Enabled_iff, decide_eq_true_eq, Mod.rangeOk, hone]
  cases write <;> simp [WindowReaches, Mod.ownerSession, and_assoc]

/-- An access that does not reach stock is counted; a read answers zeros (R494). -/
theorem bar2Serve_missed {m : Mod} {off : Nat} {write : Bool} (bytes : List Byte) (h : ¬ WindowReaches m off write) :
    bar2Serve off write bytes m = { m with
      power := { m.power with bar2Discards := m.power.bar2Discards + 1 }
      host := if write then m.host else { m.host with bar2Data := zeros bytes.length } } :=
  if_pos (by rwa [Bool.not_eq_true', ← Bool.not_eq_true, bar2Ok_iff])

/-- A read that reaches stock answers its bytes, and marks the page. -/
theorem bar2Serve_read {m : Mod} {off : Nat} (bytes : List Byte) (h : WindowReaches m off false) :
    ∃ a, a = (m.touchPage (m.sessId 0) (m.bar2Sa off / 2 ^ 21) false).alloc ∧ bar2Serve off false bytes m = { m with
      alloc := a
      host := { m.host with bar2Data := (List.range bytes.length).map (fun k => m.stockByte (m.sessId 0) (m.bar2Sa off + k)) } } := by
  have hok : ¬ (!m.bar2Ok off false) = true := by simpa [bar2Ok_iff] using h
  have hbytes : (m.touchPage (m.sessId 0) (m.bar2Sa off / 2 ^ 21) false).stockBytes (m.sessId 0) (m.bar2Sa off) bytes.length =
      (List.range bytes.length).map (fun k => m.stockByte (m.sessId 0) (m.bar2Sa off + k)) :=
    List.map_congr_left fun k _ => stockByte_touchPage ..
  obtain ⟨a, ha⟩ := touchPage_alloc m (m.sessId 0) (m.bar2Sa off / 2 ^ 21) false
  refine ⟨a, by rw [ha], ?_⟩
  rw [← hbytes, bar2Serve, if_neg hok]
  simp only [Bool.false_eq_true, if_false, Mod.ownerSession, ha]

/-- A write that reaches stock marks the page and stores its bytes. -/
theorem bar2Serve_write {m : Mod} {off : Nat} (bytes : List Byte) (h : WindowReaches m off true) :
    bar2Serve off true bytes m =
      (m.touchPage (m.sessId 0) (m.bar2Sa off / 2 ^ 21) true).stockWrite (m.sessId 0) (m.bar2Sa off) bytes :=
  if_neg (by simpa [bar2Ok_iff] using h)

/-- Beside the page's marks it changes stock alone. -/
theorem bar2Serve_write_frame {m : Mod} {off : Nat} (bytes : List Byte) (h : WindowReaches m off true) :
    ∃ a x, a = (m.touchPage (m.sessId 0) (m.bar2Sa off / 2 ^ 21) true).alloc ∧
      bar2Serve off true bytes m = { m with alloc := a, stock := x } := by
  obtain ⟨a, ha⟩ := touchPage_alloc m (m.sessId 0) (m.bar2Sa off / 2 ^ 21) true
  rw [bar2Serve_write bytes h, ha]
  obtain ⟨x, hx⟩ := stockWrite_stock bytes { m with alloc := a } (m.sessId 0) (m.bar2Sa off)
  exact ⟨a, x, rfl, hx⟩

theorem zeros_length (k : Nat) : (zeros k).length = k := List.length_replicate

/-- The entry of a page that an access has marked. -/
theorem pte_touched {m t : Mod} {sess page : Nat} {write : Bool} (h : t.alloc = (m.touchPage sess page write).alloc) :
    t.pte sess page = touched (m.pte sess page) write := by
  rw [pte_congr h, pte_touchPage, if_pos rfl]

/-- A read leaves stock and the accesses that wait as they were. -/
theorem bar2Serve_read_keeps (m : Mod) (off : Nat) (bytes : List Byte) :
    (bar2Serve off false bytes m).stock = m.stock ∧ (bar2Serve off false bytes m).host.bar2Wait = m.host.bar2Wait := by
  by_cases h : WindowReaches m off false
  · obtain ⟨a, -, he⟩ := bar2Serve_read bytes h
    rw [he]
    exact ⟨rfl, rfl⟩
  · rw [bar2Serve_missed bytes h]
    exact ⟨rfl, rfl⟩

/-- A write leaves the host's side as it was. -/
theorem bar2Serve_write_host (m : Mod) (off : Nat) (bytes : List Byte) : (bar2Serve off true bytes m).host = m.host := by
  by_cases h : WindowReaches m off true
  · obtain ⟨a, x, -, he⟩ := bar2Serve_write_frame bytes h
    rw [he]
  · rw [bar2Serve_missed bytes h]
    rfl

/-- Bytes stored through the window within one page read back. -/
theorem bar2Serve_write_stockByte {m : Mod} {off : Nat} {bytes : List Byte} (h : WindowReaches m off true)
    (hpage : ∀ i < bytes.length, (m.bar2Sa off + i) / 2 ^ 21 = m.bar2Sa off / 2 ^ 21) {k : Nat} (hk : k < bytes.length) :
    (bar2Serve off true bytes m).stockByte (m.sessId 0) (m.bar2Sa off + k) = bytes.getD k 0 := by
  rw [bar2Serve_write bytes h, stockByte_stockWrite _ _ _ _ _ (fun i hi => (hpage i hi).trans (hpage k hk).symm), if_pos (by omega),
    Nat.add_sub_cancel_left]

/-- A write that reaches stock changes no counter, and marks its page. -/
theorem bar2Serve_write_marks {m : Mod} {off : Nat} (bytes : List Byte) (h : WindowReaches m off true) :
    (bar2Serve off true bytes m).power = m.power ∧
      (bar2Serve off true bytes m).pte (m.sessId 0) (m.bar2Sa off / 2 ^ 21) =
        touched (m.pte (m.sessId 0) (m.bar2Sa off / 2 ^ 21)) true := by
  obtain ⟨a, x, ha, he⟩ := bar2Serve_write_frame bytes h
  rw [he]
  exact ⟨rfl, pte_touched ha⟩

/-! ### The access commands -/

/-- With no access waiting and outside STANDBY an access is served. -/
theorem bar2Access_served {m : Mod} (off : Nat) (write : Bool) (bytes : List Byte) (hoff : m.aon.state ≠ .off)
    (hready : m.bringup.pcieReady = true) (hwait : m.host.bar2Wait = []) (hstate : m.aon.state ≠ .standby) :
    bar2Access off write bytes m = bar2Serve off write bytes m := by
  rw [bar2Access, if_neg (by simp [hoff, hready]), if_neg (by simp [hwait, hstate])]

/-- In STANDBY an access to the window wakes the module and waits (R495). -/
theorem bar2Access_waits {m : Mod} (off : Nat) (write : Bool) (bytes : List Byte) (hready : m.bringup.pcieReady = true)
    (hon : WindowOn m) (hstate : m.aon.state = .standby) :
    bar2Access off write bytes m = { m with
      aon := { m.aon with state := .full }, stock := { m.stock with selfRefresh := false }
      bringup := { m.bringup with west := .on, east := .on }
      host := { m.host with bar2Wait := m.host.bar2Wait ++ [(off, write, bytes)] } } := by
  have hen : m.bar2Enabled = true := (bar2Enabled_iff m).2 hon
  rw [bar2Access, if_neg (by simp [hstate, hready]), if_pos (.inl ⟨hen, hstate⟩), if_pos hen, leaveStandby, if_pos hstate]

theorem bar2Complete_nil {m : Mod} (h : m.host.bar2Wait = []) : bar2Complete m = m := by
  rw [bar2Complete, h]

/-- The oldest waiting access is served, and the rest wait on. -/
theorem bar2Complete_cons {m : Mod} {off : Nat} {write : Bool} {bytes : List Byte} {rest : List (Nat × Bool × List Byte)}
    (h : m.host.bar2Wait = (off, write, bytes) :: rest) :
    bar2Complete m = bar2Serve off write bytes { m with host := { m.host with bar2Wait := rest } } := by
  rw [bar2Complete, h]

section
variable {s : State} {offset : BitVec 36}

theorem exec_bar2Read {len : BitVec 12} (hw : Instr.wf (.bar2Read offset len) = true) :
    exec (.bar2Read offset len) s = .next { s with m := bar2Access offset.toNat false (zeros len.toNat) s.m } := runIf_wf hw ..

theorem exec_bar2Write {bytes : List Byte} (hw : Instr.wf (.bar2Write offset bytes) = true) :
    exec (.bar2Write offset bytes) s = .next { s with m := bar2Access offset.toNat true bytes s.m } := runIf_wf hw ..

theorem exec_bar2AccessComplete : exec .bar2AccessComplete s = .next { s with m := bar2Complete s.m } := rfl

/-- A read served reads the owner's resident page and marks it, or reads zeros and is counted. -/
theorem bar2Read_answers {len : BitVec 12} (hw : Instr.wf (.bar2Read offset len) = true) (hoff : s.m.aon.state ≠ .off)
    (hready : s.m.bringup.pcieReady = true) (hwait : s.m.host.bar2Wait = []) (hstate : s.m.aon.state ≠ .standby) :
    ∃ t, exec (.bar2Read offset len) s = .next t ∧ t.m.stock = s.m.stock ∧
      (WindowReaches s.m offset.toNat false →
        t.m.host.bar2Data = (List.range len.toNat).map (fun k => s.m.stockByte (s.m.sessId 0) (s.m.bar2Sa offset.toNat + k)) ∧
        t.m.power = s.m.power ∧
        t.m.pte (s.m.sessId 0) (s.m.bar2Sa offset.toNat / 2 ^ 21) =
          put (s.m.pte (s.m.sessId 0) (s.m.bar2Sa offset.toNat / 2 ^ 21)) 57 57 1) ∧
      (¬ WindowReaches s.m offset.toNat false → t.m.host.bar2Data = zeros len.toNat ∧ t.m.alloc = s.m.alloc ∧
        t.m.power.bar2Discards = s.m.power.bar2Discards + 1) := by
  have he := exec_bar2Read (s := s) hw
  rw [bar2Access_served _ _ _ hoff hready hwait hstate] at he
  refine ⟨_, he, (bar2Serve_read_keeps ..).1, fun h => ?_, fun h => ?_⟩
  · obtain ⟨a, ha, hserve⟩ := bar2Serve_read (zeros len.toNat) h
    rw [hserve, zeros_length]
    exact ⟨rfl, rfl, (pte_touched ha).trans (touched_read _)⟩
  · rw [bar2Serve_missed _ h, zeros_length]
    exact ⟨rfl, rfl, rfl⟩

/-- A read in STANDBY wakes the module and waits. -/
theorem bar2Read_waits {len : BitVec 12} (hw : Instr.wf (.bar2Read offset len) = true) (hready : s.m.bringup.pcieReady = true)
    (hon : WindowOn s.m) (hstate : s.m.aon.state = .standby) :
    ∃ t, exec (.bar2Read offset len) s = .next t ∧
      t.m.host = { s.m.host with bar2Wait := s.m.host.bar2Wait ++ [(offset.toNat, false, zeros len.toNat)] } ∧
      t.m.aon.state = .full ∧ t.m.stock.selfRefresh = false := by
  have he := exec_bar2Read (s := s) hw
  rw [bar2Access_waits _ _ _ hready hon hstate] at he
  exact ⟨_, he, rfl, rfl, rfl⟩

/-- A write served stores its bytes in the owner's resident, writable page and marks it, or is discarded and counted. -/
theorem bar2Write_stores {bytes : List Byte} (hw : Instr.wf (.bar2Write offset bytes) = true) (hoff : s.m.aon.state ≠ .off)
    (hready : s.m.bringup.pcieReady = true) (hbase : s.m.settings.bar2Base.toNat % 2 ^ 21 = 0) (hwait : s.m.host.bar2Wait = [])
    (hstate : s.m.aon.state ≠ .standby) :
    ∃ t, exec (.bar2Write offset bytes) s = .next t ∧ t.m.host = s.m.host ∧
      (WindowReaches s.m offset.toNat true →
        (∀ k < bytes.length, t.m.stockByte (s.m.sessId 0) (s.m.bar2Sa offset.toNat + k) = bytes.getD k 0) ∧ t.m.power = s.m.power ∧
        t.m.pte (s.m.sessId 0) (s.m.bar2Sa offset.toNat / 2 ^ 21) =
          put (put (s.m.pte (s.m.sessId 0) (s.m.bar2Sa offset.toNat / 2 ^ 21)) 57 57 1) 58 58 1) ∧
      (¬ WindowReaches s.m offset.toNat true → t.m.stock = s.m.stock ∧ t.m.alloc = s.m.alloc ∧
        t.m.power.bar2Discards = s.m.power.bar2Discards + 1) := by
  have hpage : ∀ i < bytes.length, (s.m.bar2Sa offset.toNat + i) / 2 ^ 21 = s.m.bar2Sa offset.toNat / 2 ^ 21 := fun i hi => by
    simp only [Instr.wf, Bool.and_eq_true, decide_eq_true_eq] at hw
    unfold Mod.bar2Sa
    omega
  have he := exec_bar2Write (s := s) hw
  rw [bar2Access_served _ _ _ hoff hready hwait hstate] at he
  refine ⟨_, he, bar2Serve_write_host .., fun h => ?_, fun h => ?_⟩
  · exact ⟨fun k hk => bar2Serve_write_stockByte h hpage hk, (bar2Serve_write_marks bytes h).imp_right (·.trans (touched_write _))⟩
  · rw [bar2Serve_missed _ h]
    exact ⟨rfl, rfl, rfl⟩

/-- A write in STANDBY wakes the module and waits. -/
theorem bar2Write_waits {bytes : List Byte} (hw : Instr.wf (.bar2Write offset bytes) = true) (hready : s.m.bringup.pcieReady = true)
    (hon : WindowOn s.m) (hstate : s.m.aon.state = .standby) :
    ∃ t, exec (.bar2Write offset bytes) s = .next t ∧
      t.m.host = { s.m.host with bar2Wait := s.m.host.bar2Wait ++ [(offset.toNat, true, bytes)] } ∧
      t.m.aon.state = .full ∧ t.m.stock.selfRefresh = false := by
  have he := exec_bar2Write (s := s) hw
  rw [bar2Access_waits _ _ _ hready hon hstate] at he
  exact ⟨_, he, rfl, rfl, rfl⟩

theorem bar2AccessComplete_idle (h : s.m.host.bar2Wait = []) : exec .bar2AccessComplete s = .next s := by
  rw [exec_bar2AccessComplete, bar2Complete_nil h]

/-- A waiting read completes: it is served as if it had just arrived. -/
theorem bar2AccessComplete_read {len : Nat} {rest : List (Nat × Bool × List Byte)}
    (h : s.m.host.bar2Wait = (offset.toNat, false, zeros len) :: rest) :
    ∃ t, exec .bar2AccessComplete s = .next t ∧ t.m.host.bar2Wait = rest ∧ t.m.stock = s.m.stock ∧
      (WindowReaches s.m offset.toNat false →
        t.m.host.bar2Data = (List.range len).map (fun k => s.m.stockByte (s.m.sessId 0) (s.m.bar2Sa offset.toNat + k))) ∧
      (¬ WindowReaches s.m offset.toNat false → t.m.host.bar2Data = zeros len) := by
  have he := exec_bar2AccessComplete (s := s)
  rw [bar2Complete_cons h] at he
  obtain ⟨hstock, hwait⟩ := bar2Serve_read_keeps { s.m with host := { s.m.host with bar2Wait := rest } } offset.toNat (zeros len)
  refine ⟨_, he, hwait, hstock, fun hr => ?_, fun hr => ?_⟩
  · obtain ⟨a, -, hserve⟩ := bar2Serve_read (m := { s.m with host := { s.m.host with bar2Wait := rest } }) (zeros len) hr
    rw [hserve, zeros_length]
    rfl
  · rw [bar2Serve_missed (m := { s.m with host := { s.m.host with bar2Wait := rest } }) _ hr, zeros_length]
    rfl

end

/-- A SEQ written to a mailbox whose request area holds an unknown code: E_UNKNOWN. -/
theorem ring_unknown {m : Mod} {n : Nat} {v : W32} (hn : n ≤ 30) (hv : v ≠ (m.mailbox n).ack) (hs : Serves m)
    (h : (m.mailbox n).reqCommand.toNat ∉ commandCodes) :
    servePosted ⟨n, by omega⟩ (m.onMailbox n (withSeq v)) =
      answerPosted n 0x100 [] (m.onMailbox n (withSeq v)) :=
  servePosted_unknown (by rw [mailbox_onMailbox]; exact hv) hs (by rw [mailbox_onMailbox]; exact h)

/-- A SEQ written in FULL to a mailbox whose request area holds HELLO. -/
theorem ring_hello {m : Mod} {n : Nat} {v : W32} (hn : n ≤ 30) (hv : v ≠ (m.mailbox n).ack) (hs : Serves m)
    (h : (m.mailbox n).reqCommand = 1) (hstate : m.aon.state = .full) (hkind : m.kindOf n ≤ 4) :
    servePosted ⟨n, by omega⟩ (m.onMailbox n (withSeq v)) =
      if (m.mailbox n).reqLength = 0 then answerPosted n 0 (helloBody n m) (m.onMailbox n (withSeq v))
      else answerPosted n 0x101 [] (m.onMailbox n (withSeq v)) := by
  have hb : (m.onMailbox n (withSeq v)).mailbox n = withSeq v (m.mailbox n) := mailbox_onMailbox ..
  have hserve := servePosted_hello (mb := ⟨n, by omega⟩) (m := m.onMailbox n (withSeq v)) (by rw [hb]; exact hv) hs
    (by rw [hb]; exact h) hstate hkind
  rw [hb] at hserve
  exact hserve

/-- Settles O56: each clause is the lemma of its register, or of its access through the window. -/
theorem registersAndWindow : Obligations.RegistersAndWindow := by
  unfold Obligations.RegistersAndWindow
  intro s bytes n off m a b o page write inWrite byteAt
  refine ⟨fun hw => ⟨fun hlo hhi => registerWrite_unassigned hw hlo hhi, fun hpage hn hoff hhold => ?mailbox,
    fun hpage hoff hhold => registerWrite_events hw hpage hoff hhold, fun hlo hhi => ?window⟩, ?bar2⟩
  case mailbox =>
    have hd : s.m.deaf n = false := deaf_of_taking hn hoff hhold
    refine ⟨fun hlo hhi hidle _ => registerWrite_reqBody hw hpage hn hd hlo hhi hidle,
      fun hlo hidle => registerWrite_response hw hpage hn hd hlo hidle,
      fun v ho hb hv => registerWrite_seq_idle hw hpage hn hd ho hb hv, ?_⟩
    intro v ho hb hv hs answer
    have hanswer : ∀ status body, servePosted ⟨n, by omega⟩ (s.m.onMailbox n (withSeq v)) =
        answerPosted n status body (s.m.onMailbox n (withSeq v)) → answer status body :=
      fun status body h => registerWrite_seq_answered hw hpage hn hd ho hb h
    exact ⟨fun hcmd => hanswer _ _ (ring_unknown hn hv hs hcmd),
      fun hcmd hstate hkind hlen => hanswer _ _ ((ring_hello hn hv hs hcmd hstate hkind).trans (if_neg hlen)),
      fun hcmd hstate hkind hlen => hanswer _ _ ((ring_hello hn hv hs hcmd hstate hkind).trans (if_pos hlen))⟩
  case window =>
    exact ⟨registerWrite_window_closed hw hlo hhi, fun hb _ hgo => registerWrite_window_open hw hlo hhi hb hgo,
      fun hb ho hv => registerWrite_window_go hw hb ho hv⟩
  case bar2 =>
    intro offset len sess sa e on reaches waits hoff hready hbase
    exact ⟨fun hw => ⟨bar2Read_answers hw hoff hready, fun hon => bar2Read_waits hw hready hon⟩,
      fun hw => ⟨bar2Write_stores hw hoff hready hbase, fun hon => bar2Write_waits hw hready hon⟩,
      bar2AccessComplete_idle, fun rest h => bar2AccessComplete_read h⟩

end Sys2Proof.Proofs
end

section
/-!
PROOFS. What ending a gang changes of the module, and what becomes of each region's run.
-/

namespace Sys2Proof.Proofs

open Sys2Proof Sys2Proof.Machine Sys2Proof.Laws

/-! ### What the operations of a gang's end leave -/

/-- Regions, cores, placements, jobs with their mailboxes, the host's side and ports may differ; nothing else does. -/
def GangEndOnly (m t : Mod) : Prop :=
  ∃ regions cores placements jobs mailboxes host ports, t = { m with
    regions := regions, cores := cores, placements := placements, jobs := jobs, mailboxes := mailboxes, host := host, ports := ports }

theorem GangEndOnly.refl (m : Mod) : GangEndOnly m m :=
  ⟨m.regions, m.cores, m.placements, m.jobs, m.mailboxes, m.host, m.ports, rfl⟩

theorem GangEndOnly.trans {a b c : Mod} (h : GangEndOnly a b) (h' : GangEndOnly b c) : GangEndOnly a c := by
  obtain ⟨_, _, _, _, _, _, _, rfl⟩ := h
  obtain ⟨_, _, _, _, _, _, _, rfl⟩ := h'
  exact ⟨_, _, _, _, _, _, _, rfl⟩

theorem GangEndOnly.desc {m t : Mod} (h : GangEndOnly m t) : t.desc = m.desc := by
  obtain ⟨_, _, _, _, _, _, _, rfl⟩ := h; rfl

theorem GangEndOnly.mesh {m t : Mod} (h : GangEndOnly m t) : t.mesh = m.mesh := by
  obtain ⟨_, _, _, _, _, _, _, rfl⟩ := h; rfl

theorem GangEndOnly.events {m t : Mod} (h : GangEndOnly m t) : t.events = m.events := by
  obtain ⟨_, _, _, _, _, _, _, rfl⟩ := h; rfl

/-- Within that, whether each region's gang runs and with which status it ended is kept too. -/
def KeepsRuns (m t : Mod) : Prop :=
  GangEndOnly m t ∧ ∀ j, (t.region j).run.running = (m.region j).run.running ∧ (t.region j).run.status = (m.region j).run.status

theorem KeepsRuns.refl (m : Mod) : KeepsRuns m m := ⟨.refl m, fun _ => ⟨rfl, rfl⟩⟩

theorem KeepsRuns.trans (a b c : Mod) (h : KeepsRuns a b) (h' : KeepsRuns b c) : KeepsRuns a c :=
  ⟨h.1.trans h'.1, fun j => ⟨(h'.2 j).1.trans (h.2 j).1, (h'.2 j).2.trans (h.2 j).2⟩⟩

/-- A fold whose every step keeps the runs keeps them. -/
theorem keepsRuns_foldl {α : Type} {f : Mod → α → Mod} (h : ∀ m a, KeepsRuns m (f m a)) (l : List α) (m : Mod) :
    KeepsRuns m (l.foldl f m) :=
  foldl_keeps KeepsRuns.refl KeepsRuns.trans h l m

/-- A module whose regions are the same keeps the runs. -/
theorem keepsRuns_of_regions {m t : Mod} (h : GangEndOnly m t) (hr : t.regions = m.regions) : KeepsRuns m t :=
  ⟨h, fun j => by simp only [Mod.region, hr, and_self]⟩

theorem gangEndOnly_onRegion (m : Mod) (r : Nat) (f : Region → Region) : GangEndOnly m (m.onRegion r f) :=
  ⟨_, _, _, _, _, _, _, rfl⟩

theorem keepsRuns_onRegion (m : Mod) (r : Nat) {f : Region → Region}
    (h : ∀ g, (f g).run.running = g.run.running ∧ (f g).run.status = g.run.status := by exact fun _ => ⟨rfl, rfl⟩) :
    KeepsRuns m (m.onRegion r f) := by
  refine ⟨gangEndOnly_onRegion m r f, fun j => ?_⟩
  rw [region_onRegion_ite]
  split
  · next e => exact e ▸ h _
  · exact ⟨rfl, rfl⟩

theorem keepsRuns_setCore (m : Mod) (k : Nat) (c : Core) : KeepsRuns m (m.setCore k c) :=
  keepsRuns_of_regions ⟨_, _, _, _, _, _, _, rfl⟩ rfl

theorem keepsRuns_onCore (m : Mod) (k : Nat) (f : Core → Core) : KeepsRuns m (m.onCore k f) := keepsRuns_setCore ..

theorem keepsRuns_onGang (m : Mod) (id : Nat) (f : Gang → Gang) : KeepsRuns m (m.onGang id f) :=
  keepsRuns_of_regions ⟨_, _, _, _, _, _, _, rfl⟩ rfl

theorem keepsRuns_completeJob (j : Job) (status : Nat) (body : List Byte) (m : Mod) : KeepsRuns m (completeJob j status body m) := by
  obtain ⟨_, _, _, e⟩ := completeJob_jobs j status body m
  rw [e]
  exact keepsRuns_of_regions ⟨_, _, _, _, _, _, _, rfl⟩ rfl

theorem keepsRuns_floodNotice (n : NoticeIn) (except : Option Nat) (m : Mod) : KeepsRuns m (floodNotice n except m) := by
  obtain ⟨_, e⟩ := floodNotice_ports n except m
  rw [e]
  exact keepsRuns_of_regions ⟨_, _, _, _, _, _, _, rfl⟩ rfl

/-- Settling the issued bundles moves the region's cores and cycle, not its gang's end. -/
theorem keepsRuns_settleIssued (r : Nat) (m : Mod) : KeepsRuns m (settleIssued r m) := by
  unfold settleIssued
  dsimp only
  exact .trans _ _ _ (keepsRuns_foldl (fun _ _ => keepsRuns_setCore ..) _ m) (keepsRuns_onRegion _ r)

theorem keepsRuns_pruneBounds (r : Nat) (m : Mod) : KeepsRuns m (pruneBounds r m) := by
  unfold pruneBounds
  dsimp only
  split
  · exact .refl m
  · exact .trans _ _ _ (keepsRuns_foldl (fun _ _ => keepsRuns_onCore ..) _ m) (keepsRuns_onRegion _ r)

theorem keepsRuns_takeBoundary (r pos : Nat) (final : Bool) (m : Mod) : KeepsRuns m (takeBoundary r pos final m) :=
  .trans _ _ _ (keepsRuns_onRegion m r) (keepsRuns_pruneBounds r _)

theorem keepsRuns_endSite (r k : Nat) (m : Mod) : KeepsRuns m (endSite r k m).1 :=
  .trans _ _ _ (keepsRuns_setCore ..) (keepsRuns_foldl (fun m _ => keepsRuns_onRegion m r) _ _)

theorem keepsRuns_endSites (r : Nat) (sites : List Nat) (a : Mod × Nat) :
    KeepsRuns a.1 (sites.foldl (fun (a : Mod × Nat) k => let x := endSite r k a.1; (x.1, a.2 + x.2)) a).1 :=
  foldl_keeps (R := fun a b : Mod × Nat => KeepsRuns a.1 b.1) (f := fun a k => let x := endSite r k a.1; (x.1, a.2 + x.2))
    (fun _ => .refl _) (fun _ _ _ => .trans _ _ _) (fun a k => keepsRuns_endSite r k a.1) sites a

theorem keepsRuns_failPreempt (gang : Nat) (m : Mod) : KeepsRuns m (failPreempt gang m) := by
  unfold failPreempt
  split
  · exact .refl m
  · split
    · exact .refl m
    · refine .trans _ _ _ (keepsRuns_foldl (fun m g => keepsRuns_onRegion m _ fun x => ?_) _ m) (keepsRuns_completeJob ..)
      split <;> exact ⟨rfl, rfl⟩

theorem keepsRuns_abandonWords (owned : W128 → Bool) (m : Mod) : KeepsRuns m (abandonWords owned m) :=
  keepsRuns_foldl (fun m _ => keepsRuns_foldl (fun _ _ => keepsRuns_onCore ..) _ m) _ m

/-- The end of a running part: its region no longer runs and holds the status (R247). -/
theorem endPart_ends {r status : Nat} {m : Mod} (h : (m.region r).run.running = true) :
    GangEndOnly m (endPart r status m) ∧ ((endPart r status m).region r).run.running = false ∧
      ((endPart r status m).region r).run.status = status := by
  have ends {a b c : Mod} {f : Region → Region} (hab : KeepsRuns a b) (hc : KeepsRuns (b.onRegion r f) c)
      (hf : ∀ g, (f g).run.running = false ∧ (f g).run.status = status) :
      GangEndOnly a c ∧ (c.region r).run.running = false ∧ (c.region r).run.status = status := by
    obtain ⟨honly, hrun⟩ := hc
    refine ⟨(hab.1.trans (gangEndOnly_onRegion b r f)).trans honly, ?_⟩
    rw [(hrun r).1, (hrun r).2, region_onRegion]
    exact hf _
  have bound : KeepsRuns m (if [1, 2, 3, 4, 5].contains status then takeBoundary r (m.region r).seq.pos true m else m) := by
    split
    · exact keepsRuns_takeBoundary ..
    · exact .refl m
  have abandon : ∀ x : Mod, KeepsRuns x (if status = 0 then x else
      floodNotice (.gangEnd (Fin.ofNat 4096 (coordIndex x.topo.coord)) (BitVec.ofNat 16 (m.region r).run.gang)) none
        (abandonWords (ownedLocal (m.region r).run.gang) x)) := fun x => by
    split
    · exact .refl x
    · exact .trans _ _ _ (keepsRuns_abandonWords ..) (keepsRuns_floodNotice ..)
  unfold endPart
  simp only [h, Bool.not_true, Bool.false_eq_true, if_false]
  refine ends ?_ (.trans _ _ _ (keepsRuns_failPreempt ..) (abandon _)) (fun _ => ⟨rfl, rfl⟩)
  exact .trans _ _ _ (.trans _ _ _ bound (keepsRuns_endSites r (m.region r).site (_, 0))) (keepsRuns_onGang ..)

/-- A region's run after a fence at a site: ended with CORE_FAILED where its gang has a core there, else the same (R616). -/
def RunAfterFence (site : Nat) (m t : Mod) : Prop :=
  if (m.region (siteRegion site)).run.running ∧ ((m.region (siteRegion site)).coreOf site).isSome then
    (t.region (siteRegion site)).run.running = false ∧ (t.region (siteRegion site)).run.status = 3
  else (t.region (siteRegion site)).run = (m.region (siteRegion site)).run

theorem failGang_ends (site : Nat) (m : Mod) : GangEndOnly m (failGang site m) ∧ RunAfterFence site m (failGang site m) := by
  unfold failGang RunAfterFence
  by_cases h : (m.region (siteRegion site)).run.running ∧ ((m.region (siteRegion site)).coreOf site).isSome
  · obtain ⟨honly, hrun⟩ := keepsRuns_settleIssued (siteRegion site) m
    obtain ⟨hend, hstop⟩ := endPart_ends (status := 3) ((hrun (siteRegion site)).1.trans h.1)
    simp only [h, and_self, Bool.and_self, if_true]
    exact ⟨honly.trans hend, hstop⟩
  · rw [if_neg h, if_neg (by simpa using h)]
    exact ⟨.refl m, rfl⟩

/-- Lost tick and cycle promises end no gang (R622). -/
theorem keepsRuns_voidRoutes (site : Nat) (m : Mod) : KeepsRuns m (voidRoutes site m) := by
  have hticks : ∀ m r, KeepsRuns m (Mod.voidTicks m r) := fun m r => by
    unfold Mod.voidTicks
    split
    · exact keepsRuns_onRegion m r
    · exact .refl m
  have hcycles : ∀ m r, KeepsRuns m (Mod.voidCycles m r) := fun m r => by
    unfold Mod.voidCycles
    split
    · exact keepsRuns_onRegion m r
    · exact .refl m
  refine keepsRuns_foldl (fun m p => keepsRuns_foldl (fun m g => ?_) _ m) _ m
  split
  · exact .trans _ _ _ (hticks ..) (hcycles ..)
  · exact .refl m

end Sys2Proof.Proofs
end

section
/-!
PROOFS. The fence map and its counts, and the fences of cores and routers.
-/

namespace Sys2Proof.Proofs

open Sys2Proof Sys2Proof.Machine Sys2Proof.Laws

/-! ### Sites and tables -/

theorem siteRegion_lt {k : Nat} (h : k < 25600) : siteRegion k < 25 := by
  simp only [siteRegion]
  omega

theorem siteRegion_siteAt {r i : Nat} (hi : i < 1024) : siteRegion (siteAt r i) = r := by
  simp only [siteRegion, siteAt]
  omega

theorem siteAt_inj {r i j : Nat} (hi : i < 1024) (hj : j < 1024) (h : siteAt r i = siteAt r j) : i = j := by
  simp only [siteAt] at h
  omega

/-- A bit replaced reads as the new one. -/
theorem bit_put_same {n : Nat} (x : BitVec n) (i v : Nat) (h : i < n) : bit (put x i i v) i = decide (v % 2 = 1) := by
  have hs := sel_put_same x i i v le_rfl h
  rw [sel, Nat.add_sub_cancel_left, pow_one] at hs
  rw [bit, BitVec.getLsbD, Nat.testBit_eq_decide_div_mod_eq, ← Nat.shiftRight_eq_div_pow, hs]

/-- A flag put into a bit reads as itself. -/
theorem bit_put_b2n {n : Nat} (x : BitVec n) (i : Nat) (b : Bool) (h : i < n) : bit (put x i i (b2n b)) i = b := by
  rw [bit_put_same x i _ h]
  cases b <;> rfl

theorem bit_allOnes {n i : Nat} (h : i < n) : bit (BitVec.allOnes n) i = true := by
  rw [bit, BitVec.getLsbD_allOnes]
  exact decide_eq_true h

/-- Entries set one after another leave every other key. -/
theorem get_sets_other {α : Type} {cs : List (Nat × α)} {k : Nat} (h : ∀ x ∈ cs, x.1 ≠ k) (t : Tab α) (d : α) :
    Tab.get (cs.foldl (fun t x => Tab.set t x.1 x.2) t) k d = Tab.get t k d := by
  induction cs generalizing t with
  | nil => rfl
  | cons x cs ih =>
    rw [List.foldl_cons, ih fun y hy => h y (List.mem_cons_of_mem _ hy), get_set, if_neg (h x List.mem_cons_self).symm]

/-- A key that they set, always to one value, reads as it. -/
theorem get_sets_mem {α : Type} {cs : List (Nat × α)} {k : Nat} {v : α} (hm : (k, v) ∈ cs) (h : ∀ x ∈ cs, x.1 = k → x.2 = v)
    (t : Tab α) (d : α) : Tab.get (cs.foldl (fun t x => Tab.set t x.1 x.2) t) k d = v := by
  induction cs generalizing t with
  | nil => cases hm
  | cons x cs ih =>
    have hcs : ∀ y ∈ cs, y.1 = k → y.2 = v := fun y hy => h y (List.mem_cons_of_mem _ hy)
    rw [List.foldl_cons]
    by_cases hk : ∃ y ∈ cs, y.1 = k
    · obtain ⟨y, hy, rfl⟩ := hk
      exact ih (hcs y hy rfl ▸ hy) hcs _
    · rw [get_sets_other (fun y hy e => hk ⟨y, hy, e⟩), get_set]
      rcases List.mem_cons.1 hm with e | hm
      · rw [← e, if_pos rfl]
      · exact absurd ⟨_, hm, rfl⟩ hk

/-! ### The fence map (Table 1.2) -/

/-- The region's usable count and short bit are those of its entries of the fence map. -/
def CountsUsable (m : Mod) (r : Nat) : Prop :=
  Tab.get m.desc.usable r 0 = ((regionSites r).filter (fun k => m.fence k == 0)).length ∧
    (bit m.desc.short r = true ↔ ((regionSites r).filter (fun k => m.fence k == 0)).length < 1000)

/-- The fence map and the counts are read from the descriptor alone. -/
theorem fence_of_desc {m t : Mod} (h : t.desc = m.desc) (k : Nat) : t.fence k = m.fence k := by rw [Mod.fence, h]; rfl

theorem countsUsable_of_desc {m t : Mod} (h : t.desc = m.desc) {r : Nat} (hm : CountsUsable m r) : CountsUsable t r := by
  simp only [CountsUsable, fence_of_desc h, h]
  exact hm

theorem setFences_counts {r : Nat} (hr : r < 25) (cs : List (Nat × Nat)) (m : Mod) : CountsUsable (setFences r cs m) r := by
  refine ⟨?_, ?_⟩
  · exact (get_set ..).trans (if_pos rfl)
  · exact (iff_of_eq (congrArg (· = true) (bit_put_b2n m.desc.short r _ hr))).trans decide_eq_true_iff

theorem setFences_fence_mem {r : Nat} {cs : List (Nat × Nat)} {m : Mod} {k code : Nat} (hm : (k, code) ∈ cs)
    (h : ∀ x ∈ cs, x.1 = k → x.2 = code) : (setFences r cs m).fence k = code := get_sets_mem hm h _ _

theorem setFences_fence_other {r : Nat} {cs : List (Nat × Nat)} {m : Mod} {k : Nat} (h : ∀ x ∈ cs, x.1 ≠ k) :
    (setFences r cs m).fence k = m.fence k := get_sets_other h _ _

/-- One site fenced: its entry alone changes. -/
theorem setFences_fence_one (r site code : Nat) (m : Mod) (k : Nat) :
    (setFences r [(site, code)] m).fence k = if k = site then code else m.fence k := get_set ..

/-! ### CORE_FENCED (Table 14.18) -/

/-- The record of a fence: its site, its code, whether its region is withdrawn, and the generation of the map. -/
def fencedRecord (site code : Nat) (withdrawn : Bool) (m : Mod) : EvRec :=
  { code := 9, flags := 0, source := siteRegion site, stick := m.aon.stick, count := 1, gang := 0, d0 := site
    d := BitVec.ofNat 64 (m.desc.gen.toNat * 2 ^ 32 + 4 * b2n withdrawn + code) }

/-- At level 1 a fence leaves its record and does nothing else (R599). -/
theorem coreFenced_recorded {m : Mod} (h : m.level 9 = 1) (site code : Nat) (withdrawn : Bool) :
    coreFenced site code withdrawn m = recordEvent (fencedRecord site code withdrawn m) m := by
  have hrec : ∀ source count gang d0 d flags, raiseEvent 9 source count gang d0 d flags m =
      recordEvent (evRecord 9 source count gang d0 d flags m) m := fun _ _ _ _ _ _ => by
    rw [raiseEvent, if_neg (by omega), if_pos (.inr h)]
  rw [coreFenced, hrec, evRecord, h]
  rfl

/-- A site given a code in its region's entries, with the record of it: only the descriptor and the events change. -/
theorem fenceSite_recorded {m : Mod} (h : m.level 9 = 1) {site : Nat} (hs : site < 25600) (code : Nat) :
    let t := coreFenced site code false (setFences (siteRegion site) [(site, code)] m)
    t = { m with desc := t.desc, events := t.events } ∧ (∀ k, t.fence k = if k = site then code else m.fence k) ∧
      t.desc.gen = m.desc.gen + 1 ∧ CountsUsable t (siteRegion site) ∧ t.events = (recordEvent
        { code := 9, flags := 0, source := siteRegion site, stick := m.aon.stick, count := 1, gang := 0, d0 := site
          d := BitVec.ofNat 64 ((m.desc.gen + 1).toNat * 2 ^ 32 + code) } m).events := by
  intro t
  have ht : t = recordEvent (fencedRecord site code false (setFences (siteRegion site) [(site, code)] m))
      (setFences (siteRegion site) [(site, code)] m) := coreFenced_recorded (m := setFences _ _ m) h site code false
  have hdesc : t.desc = (setFences (siteRegion site) [(site, code)] m).desc := by rw [ht]; rfl
  refine ⟨by rw [ht]; rfl, fun k => ?_, by rw [hdesc]; rfl, countsUsable_of_desc hdesc (setFences_counts (siteRegion_lt hs) ..),
    by rw [ht, fencedRecord, b2n, if_neg Bool.false_ne_true, Nat.mul_zero, Nat.add_zero]; rfl⟩
  rw [fence_of_desc hdesc, setFences_fence_one]

/-! ### Fences of cores and routers (R614 to R616, R618, R620) -/

/-- A router-only fence of a usable site. -/
theorem fenceCoreOnly_fences {m : Mod} (hl : m.level 9 = 1) {site : Nat} (hs : site < 25600) (h0 : m.fence site = 0)
    (hrem : site ∉ m.mesh.removing) :
    let t := fenceCoreOnly site m
    (∀ k, t.fence k = if k = site then 1 else m.fence k) ∧ t.desc.gen = m.desc.gen + 1 ∧ CountsUsable t (siteRegion site) ∧
      RunAfterFence site m t ∧ t.mesh = m.mesh ∧ t.events = (recordEvent
        { code := 9, flags := 0, source := siteRegion site, stick := m.aon.stick, count := 1, gang := 0, d0 := site
          d := BitVec.ofNat 64 ((m.desc.gen + 1).toNat * 2 ^ 32 + 1) } m).events := by
  intro t
  obtain ⟨heq, hfence, hgen, hcount, hev⟩ := fenceSite_recorded hl hs 1
  set n := coreFenced site 1 false (setFences (siteRegion site) [(site, 1)] m)
  have ht : t = failGang site n := if_neg (by simp [h0, hrem])
  have hregion : n.region (siteRegion site) = m.region (siteRegion site) := by
    rw [heq]
    rfl
  obtain ⟨honly, hend⟩ := failGang_ends site n
  rw [← ht] at honly hend
  rw [RunAfterFence, hregion, ← RunAfterFence] at hend
  refine ⟨fun k => ?_, by rw [honly.desc, hgen], countsUsable_of_desc honly.desc hcount, hend, ?_, by rw [honly.events, hev]⟩
  · rw [fence_of_desc honly.desc, hfence]
  · rw [honly.mesh, heq]

/-- A core fault of Table 17.7 other than a stuck router is a router-only fence. -/
theorem coreFault_fenceCoreOnly {m : Mod} (hold : m.aon.state ≠ .safeHold) {site : Nat} {c : CoreFault}
    (h : (c = .sram ∧ 2 ≤ Tab.get m.power.sramErrs site 0) ∨ ((c = .broadcast ∨ c = .silent) ∧
      (m.region (siteRegion site)).run.running = true ∧ ((m.region (siteRegion site)).coreOf site).isSome = true)) :
    coreFault site c m = fenceCoreOnly site m := by
  rw [coreFault, if_neg hold]
  rcases h with ⟨rfl, herr⟩ | ⟨rfl | rfl, hrun, hcore⟩
  · exact if_pos herr
  · exact if_pos (by rw [hrun, hcore]; rfl)
  · exact if_pos (by rw [hrun, hcore]; rfl)

/-- The first stage of a full fence: the router is being removed, the map is not yet written, the gang there ends. -/
theorem fenceFull_begins (site : Nat) (m : Mod) :
    let t := fenceFull site m
    t.mesh.removing = m.mesh.removing ++ [site] ∧ t.desc = m.desc ∧
      if (m.region (siteRegion site)).run.running ∧ ((m.region (siteRegion site)).coreOf site).isSome then
        (t.region (siteRegion site)).run.running = false ∧ (t.region (siteRegion site)).run.status = 3
      else (t.region (siteRegion site)).run.running = (m.region (siteRegion site)).run.running := by
  intro t
  set n : Mod := { m with mesh := { m.mesh with removing := m.mesh.removing ++ [site] } }
  obtain ⟨hgang, hend⟩ := failGang_ends site n
  obtain ⟨hvoid, hruns⟩ := keepsRuns_voidRoutes site (failGang site n)
  have honly : GangEndOnly n t := hgang.trans hvoid
  refine ⟨by rw [honly.mesh], by rw [honly.desc], ?_⟩
  obtain ⟨hrun, hstatus⟩ := hruns (siteRegion site)
  change if (n.region (siteRegion site)).run.running ∧ ((n.region (siteRegion site)).coreOf site).isSome then _ else _
  unfold RunAfterFence at hend
  split at hend
  · next hg => rw [if_pos hg]; exact ⟨hrun.trans hend.1, hstatus.trans hend.2⟩
  · next hg => rw [if_neg hg]; exact hrun.trans (congrArg Run.running hend)

/-- On the fault path a router that is not fenced and has no fully fenced neighbour around it is fenced in full (R620, R621). -/
theorem fenceFault_fenceFull {m : Mod} {site : Nat} (hfull : m.fullyFenced site = false) (hfence : m.fence site ≠ 3)
    (hring : m.ringBlocked site = false) : fenceFault site m = fenceFull site m := by
  rw [fenceFault, if_neg (by simp [hfull, hfence]), if_neg (by simp [hring])]

theorem coreFault_stuckRouter {m : Mod} (hold : m.aon.state ≠ .safeHold) (site : Nat) :
    coreFault site .stuckRouter m = fenceFault site m := by
  rw [coreFault, if_neg hold]

theorem routerParityFailure_fenceFault {m : Mod} (hold : m.aon.state ≠ .safeHold) {site input y : Nat}
    (hy : neighbour site input = some y) (hfail : 16 ≤ Tab.get m.mesh.parityMark (4 * site + input) 0) :
    routerParityFailure site input m = fenceFault y m := by
  rw [routerParityFailure, if_neg (by simp only [hold, false_or]; omega), hy]

/-- Messages dropped leave the routers that are removed or being removed. -/
theorem drop_routers (ids : List Nat) (n : Mesh) :
    (ids.foldl Mesh.drop n).removed = n.removed ∧ (ids.foldl Mesh.drop n).removing = n.removing :=
  foldl_keeps (R := fun a b : Mesh => b.removed = a.removed ∧ b.removing = a.removing) (f := Mesh.drop) (fun _ => ⟨rfl, rfl⟩)
    (fun _ _ _ h h' => ⟨h'.1.trans h.1, h'.2.trans h.2⟩) (fun _ _ => ⟨rfl, rfl⟩) ids n

/-- A router removed: its entry becomes 0b10 (R620). -/
theorem routerRemove_removes {m : Mod} (hl : m.level 9 = 1) {site : Nat} (hs : site < 25600) (hrem : site ∈ m.mesh.removing) :
    let t := routerRemove site m
    t.mesh.removed = m.mesh.removed ++ [site] ∧ t.mesh.removing = m.mesh.removing.filter (· != site) ∧
      (∀ k, t.fence k = if k = site then 2 else m.fence k) ∧ t.desc.gen = m.desc.gen + 1 ∧ CountsUsable t (siteRegion site) := by
  intro t
  obtain ⟨hd, hg⟩ := drop_routers (m.mesh.heldAt site) m.mesh
  set n := (m.mesh.heldAt site).foldl Mesh.drop m.mesh
  set m' : Mod := { m with mesh := { n with removing := n.removing.filter (· != site), removed := n.removed ++ [site] } } with hm'
  have ht : t = coreFenced site 2 false (setFences (siteRegion site) [(site, 2)] m') := if_neg (by simp [hrem])
  obtain ⟨heq, hfence, hgen, hcount, -⟩ := fenceSite_recorded (m := m') hl hs 2
  rw [← ht] at heq hfence hgen hcount
  have hmesh : t.mesh = m'.mesh := by rw [heq]
  exact ⟨by rw [hmesh, hm', ← hd], by rw [hmesh, hm', ← hg], hfence, hgen, hcount⟩

end Sys2Proof.Proofs
end

section
/-!
PROOFS. A region's self-test, the training of stock, and the statement on fences and tests.
-/

namespace Sys2Proof.Proofs

open Sys2Proof Sys2Proof.Machine Sys2Proof.Laws

/-! ### Self-tests started (R543) -/

/-- The regions in self-test. -/
def testing (m : Mod) : List Nat := (List.range 25).filter (fun k => (m.region k).dom == .selfTest)

/-- The regions whose self-test a free place starts, in ascending number. -/
def nextTests (m : Mod) : List Nat :=
  (allRegions.filter (fun r => !bit m.desc.tested r && (m.region r).dom == .off)).take (5 - (testing m).length)

/-- The regions of a list put into self-test. -/
def enterTests (m : Mod) (rs : List Nat) : Mod := rs.foldl (fun m r => m.onRegion r (fun g => { g with dom := .selfTest })) m

theorem startTests_enter (m : Mod) : startTests m = enterTests m (nextTests m) := rfl

theorem enterTests_regions (rs : List Nat) (m : Mod) : ∃ regions, enterTests m rs = { m with regions := regions } :=
  foldl_keeps (R := fun a b : Mod => ∃ regions, b = { a with regions := regions }) (fun a => ⟨a.regions, rfl⟩)
    (by rintro a _ _ ⟨_, rfl⟩ ⟨y, rfl⟩; exact ⟨y, rfl⟩)
    (f := fun m r => m.onRegion r (fun g => { g with dom := .selfTest })) (fun _ _ => ⟨_, rfl⟩) rs m

theorem enterTests_dom (rs : List Nat) (m : Mod) (j : Nat) :
    ((enterTests m rs).region j).dom = if j ∈ rs then .selfTest else (m.region j).dom := by
  induction rs generalizing m with
  | nil => rfl
  | cons r rs ih =>
    rw [enterTests, List.foldl_cons, ← enterTests, ih, region_onRegion_ite]
    by_cases h : j ∈ rs
    · rw [if_pos h, if_pos (List.mem_cons_of_mem _ h)]
    · by_cases e : j = r <;> simp [h, e]

/-- Started self-tests change the regions alone. -/
theorem startTests_desc (m : Mod) : (startTests m).desc = m.desc := by
  obtain ⟨_, e⟩ := enterTests_regions (nextTests m) m
  rw [startTests_enter, e]

/-- A tested region is not put into self-test again. -/
theorem startTests_dom_tested {m : Mod} {r : Nat} (h : bit m.desc.tested r = true) : ((startTests m).region r).dom = (m.region r).dom := by
  have hn : r ∉ nextTests m := fun hm => by
    have := (List.mem_filter.1 (List.mem_of_mem_take hm)).2
    simp [h] at this
  rw [startTests_enter, enterTests_dom, if_neg hn]

/-- No more than five self-tests run unless more ran before. -/
theorem testing_startTests (m : Mod) : (testing (startTests m)).length ≤ max 5 (testing m).length := by
  have hsub : testing (startTests m) ⊆ nextTests m ++ testing m := fun k hk => by
    obtain ⟨hlt, hdom⟩ := List.mem_filter.1 hk
    rw [startTests_enter, enterTests_dom] at hdom
    split at hdom
    · next hn => exact List.mem_append_left _ hn
    · exact List.mem_append_right _ (List.mem_filter.2 ⟨hlt, hdom⟩)
  have hnodup : (testing (startTests m)).Nodup := List.nodup_range.filter _
  have hle := (hnodup.subperm hsub).length_le
  have htake : (nextTests m).length ≤ 5 - (testing m).length := List.length_take_le ..
  rw [List.length_append] at hle
  omega

/-! ### The end of a region's self-test (R23, R543) -/

/-- The code written for a site by a self-test that does not withdraw its region (Table 1.3). -/
def testCode (r : Nat) (cores routers : BitVec 1024) (m : Mod) (i : Nat) : Nat :=
  if m.mesh.removed.contains (siteAt r i) then 2 else if !bit cores i || !bit routers i then 1 else 0

/-- The region's entries written and its tested bit set. -/
def writeTests (r : Nat) (cores routers : BitVec 1024) (m : Mod) : Mod :=
  setFences r ((List.range 1024).map (fun i => (siteAt r i, testCode r cores routers m i)))
    { m with desc := { m.desc with tested := put m.desc.tested r r 1 } }

/-- A tested region's domain after its self-test: off, its contents gone, a staged change acknowledged. -/
def leaveTest (r : Nat) (m : Mod) : Mod := (clearRegion r m).onRegion r (fun g => { g with ack := g.pendingChange || g.ack })

theorem leaveTest_dom (r : Nat) (m : Mod) (j : Nat) : ((leaveTest r m).region j).dom = if j = r then .off else (m.region j).dom := by
  rw [leaveTest, region_onRegion_ite, clearRegion, region_onRegion, region_onRegion_ite]
  split <;> rfl

/-- Fences recorded one after another at level 1 change the events alone. -/
theorem coreFenced_all {m : Mod} (h : m.level 9 = 1) (site code : Nat → Nat) (l : List Nat) :
    ∃ events, l.foldl (fun m i => coreFenced (site i) (code i) false m) m = { m with events := events } := by
  refine foldl_keeps (R := fun a b : Mod => a.level 9 = 1 → ∃ events, b = { a with events := events }) (fun a _ => ⟨a.events, rfl⟩)
    ?_ (f := fun m i => coreFenced (site i) (code i) false m) (fun a i ha => ⟨_, coreFenced_recorded ha ..⟩) l m h
  intro a b c hab hbc ha
  obtain ⟨_, rfl⟩ := hab ha
  obtain ⟨e, rfl⟩ := hbc ha
  exact ⟨e, rfl⟩

/-- With every router passing the region is not withdrawn: its entries are written together, the domain is left off, each fence is
recorded, and a free place starts the next self-test (R23, R543). -/
theorem selfTestDone_passes {m : Mod} (hold : m.aon.state ≠ .safeHold) (hl : m.level 9 = 1) {r : Nat} (cores : BitVec 1024)
    (h : (m.region r).dom = .selfTest) :
    ∃ events, selfTestDone r cores (BitVec.allOnes 1024) m =
      startTests { leaveTest r (writeTests r cores (BitVec.allOnes 1024) m) with events := events } := by
  have hbad : (List.range 1024).filter (fun i => !bit (BitVec.allOnes 1024) i) = [] := by
    refine List.filter_eq_nil_iff.2 fun i hi => ?_
    rw [bit_allOnes (List.mem_range.1 hi)]
    exact Bool.false_ne_true
  obtain ⟨events, he⟩ := coreFenced_all (m := leaveTest r (writeTests r cores (BitVec.allOnes 1024) m)) hl (siteAt r)
    (testCode r cores (BitVec.allOnes 1024) m)
    ((List.range 1024).filter (fun i => testCode r cores (BitVec.allOnes 1024) m i != 0))
  refine ⟨events, ?_⟩
  rw [← he, selfTestDone, if_neg (by simp [hold, h])]
  simp only [hbad, List.foldl_nil, Bool.false_or, Bool.false_eq_true, if_false]
  rfl

/-- The codes written are those of the sites' tests, and no other region's entries change. -/
theorem writeTests_fence (r : Nat) (cores : BitVec 1024) (m : Mod) :
    (∀ i < 1024, (writeTests r cores (BitVec.allOnes 1024) m).fence (siteAt r i) =
      if siteAt r i ∈ m.mesh.removed then 2 else if bit cores i then 0 else 1) ∧
    ∀ k, siteRegion k ≠ r → (writeTests r cores (BitVec.allOnes 1024) m).fence k = m.fence k := by
  refine ⟨fun i hi => ?_, fun k hk => ?_⟩
  · have hcode : testCode r cores (BitVec.allOnes 1024) m i =
        if siteAt r i ∈ m.mesh.removed then 2 else if bit cores i then 0 else 1 := by
      simp only [testCode, bit_allOnes hi, List.contains_iff_mem]
      cases bit cores i <;> rfl
    rw [← hcode, writeTests]
    refine setFences_fence_mem (List.mem_map.2 ⟨i, List.mem_range.2 hi, rfl⟩) ?_
    rintro _ hx e
    obtain ⟨j, hj, rfl⟩ := List.mem_map.1 hx
    rw [siteAt_inj (List.mem_range.1 hj) hi e]
  · rw [writeTests, setFences_fence_other]
    · rfl
    rintro _ hx rfl
    obtain ⟨j, hj, rfl⟩ := List.mem_map.1 hx
    exact hk (siteRegion_siteAt (List.mem_range.1 hj))

/-- A region leaves its self-test, and no other enters one by that. -/
theorem testing_leaveTest (r : Nat) (m : Mod) : (testing (leaveTest r m)).length ≤ (testing m).length := by
  refine List.Sublist.length_le (List.monotone_filter_right _ fun k hk => ?_)
  rw [leaveTest_dom] at hk
  split at hk
  · cases hk
  · exact hk

theorem selfTestDone_leaves {m : Mod} (hold : m.aon.state ≠ .safeHold) (hl : m.level 9 = 1) {r : Nat} (hr : r < 25) (cores : BitVec 1024)
    (h : (m.region r).dom = .selfTest) :
    let t := selfTestDone r cores (BitVec.allOnes 1024) m
    (t.region r).dom = .off ∧ bit t.desc.tested r = true ∧
      (∀ i < 1024, t.fence (siteAt r i) = if siteAt r i ∈ m.mesh.removed then 2 else if bit cores i then 0 else 1) ∧
      (∀ k, siteRegion k ≠ r → t.fence k = m.fence k) ∧ t.desc.gen = m.desc.gen + 1 ∧ CountsUsable t r ∧
      (testing t).length ≤ max 5 (testing m).length := by
  intro t
  obtain ⟨events, ht⟩ := selfTestDone_passes hold hl cores h
  set w := writeTests r cores (BitVec.allOnes 1024) m
  set n : Mod := { leaveTest r w with events := events }
  have hdesc : t.desc = w.desc := (congrArg Mod.desc ht).trans (startTests_desc n)
  have htested : bit w.desc.tested r = true := bit_put_b2n m.desc.tested r true hr
  obtain ⟨hfence, hother⟩ := writeTests_fence r cores m
  refine ⟨?_, hdesc ▸ htested, fun i hi => (fence_of_desc hdesc _).trans (hfence i hi),
    fun k hk => (fence_of_desc hdesc k).trans (hother k hk), by rw [hdesc]; rfl, countsUsable_of_desc hdesc (setFences_counts hr ..), ?_⟩
  · rw [show t = startTests n from ht, startTests_dom_tested (m := n) htested]
    exact (leaveTest_dom r w r).trans (if_pos rfl)
  · have hstart := testing_startTests n
    have hleave : (testing n).length ≤ (testing m).length := testing_leaveTest r w
    rw [show t = startTests n from ht]
    omega

/-! ### The training of stock (R544) -/

/-- The state of a stock edge. -/
def edgeOf (east : Bool) (b : Bringup) : EdgeState := if east then b.east else b.west

/-- A device recorded as trained, or its failure counted. -/
def recordTraining (dev : Nat) (passed : Bool) (m : Mod) : Mod :=
  if passed then { m with desc := { m.desc with stockTrained := sticky m.desc.stockTrained dev, gen := m.desc.gen + 1 } }
  else { m with bringup := { m.bringup with devFails := Tab.upd m.bringup.devFails dev 0 (· + 1) } }

/-- A device has passed, or failed twice. -/
def Settled (m : Mod) (k : Nat) : Prop := bit m.desc.stockTrained k = true ∨ 2 ≤ Tab.get m.bringup.devFails k 0

/-- Device `k` of an edge. -/
def edgeDevice (east : Bool) (k : Nat) : Nat := if east then k + 16 else k

/-- The edge of a training turned on. -/
def edgeOn (east : Bool) (m : Mod) : Mod :=
  { m with bringup := { m.bringup with west := if east then m.bringup.west else .on, east := if east then .on else m.bringup.east } }

/-- Every device of the edge is settled and one of them has passed. -/
def edgeDone (east : Bool) (m : Mod) : Bool :=
  let ds := (List.range 16).map (fun i => i + (if east then 16 else 0))
  ds.all (fun d => bit m.desc.stockTrained d || decide (2 ≤ Tab.get m.bringup.devFails d 0)) &&
    ds.any (fun d => bit m.desc.stockTrained d)

theorem edgeDone_iff (east : Bool) (m : Mod) : edgeDone east m = true ↔
    (∀ k < 16, Settled m (edgeDevice east k)) ∧ ∃ k < 16, bit m.desc.stockTrained (edgeDevice east k) = true := by
  cases east <;> simp [edgeDone, edgeDevice, Settled]

/-- A device in training: its outcome recorded, and its edge on once it is done. -/
theorem stockTrainingDone_records {m : Mod} {dev : Nat} (passed : Bool) (hedge : edgeOf (decide (16 ≤ dev)) m.bringup = .training)
    (hnew : bit m.desc.stockTrained dev = false) (hfails : Tab.get m.bringup.devFails dev 0 < 2) :
    stockTrainingDone dev passed m =
      if edgeDone (decide (16 ≤ dev)) (recordTraining dev passed m) then edgeOn (decide (16 ≤ dev)) (recordTraining dev passed m)
      else recordTraining dev passed m := by
  refine if_neg ?_
  rintro (h | h | h)
  · exact h hedge
  · rw [hnew] at h
    cases h
  · omega

/-- An edge turned on keeps what is recorded of its devices. -/
theorem stockTrainingDone_keeps {t n : Mod} {east : Bool} (h : t = if edgeDone east n then edgeOn east n else n) :
    t.desc = n.desc ∧ t.bringup.devFails = n.bringup.devFails := by
  subst h
  split <;> exact ⟨rfl, rfl⟩

theorem stockTrainingDone_trains {m : Mod} {dev : Nat} (passed : Bool) (hedge : edgeOf (decide (16 ≤ dev)) m.bringup = .training)
    (hnew : bit m.desc.stockTrained dev = false) (hfails : Tab.get m.bringup.devFails dev 0 < 2) :
    let east := decide (16 ≤ dev)
    let t := stockTrainingDone dev passed m
    (passed = true → t.desc = { m.desc with stockTrained := sticky m.desc.stockTrained dev, gen := m.desc.gen + 1 }) ∧
      (passed = false → t.desc = m.desc ∧ Tab.get t.bringup.devFails dev 0 = Tab.get m.bringup.devFails dev 0 + 1) ∧
      ((∀ k < 16, Settled t (edgeDevice east k)) → (∃ k < 16, bit t.desc.stockTrained (edgeDevice east k) = true) →
        edgeOf east t.bringup = .on) ∧
      ((∃ k < 16, ¬ Settled t (edgeDevice east k)) → edgeOf east t.bringup = .training) := by
  intro east t
  set n := recordTraining dev passed m with hn
  have ht : t = if edgeDone east n then edgeOn east n else n := stockTrainingDone_records passed hedge hnew hfails
  have hdone := edgeDone_iff east n
  obtain ⟨hdesc, hdev⟩ := stockTrainingDone_keeps ht
  simp only [Settled, hdesc, hdev]
  refine ⟨fun hp => by rw [hn, recordTraining, if_pos hp], fun hp => ?_, fun hall hany => ?_, fun ⟨k, hk, hnot⟩ => ?_⟩
  · rw [hn, recordTraining, if_neg (by simp [hp])]
    exact ⟨rfl, (get_set ..).trans (if_pos rfl)⟩
  · rw [ht, if_pos (hdone.2 ⟨hall, hany⟩), edgeOf, edgeOn]
    cases east <;> rfl
  · rw [ht, if_neg fun h => hnot ((hdone.1 h).1 k hk), ← hedge, hn, recordTraining]
    cases passed <;> rfl

/-- The narrow-page area of a trained edge is set up. -/
theorem narrowSetUp_sets {m : Mod} {east : Bool} (h : edgeOf east m.bringup = .on) :
    narrowSetUp east m = { m with bringup := { m.bringup with
      narrowEast := m.bringup.narrowEast || east, narrowWest := m.bringup.narrowWest || !east } } := by
  cases east
  · rw [narrowSetUp, if_neg Bool.false_ne_true, Bool.or_false, Bool.not_false, Bool.or_true]
    exact if_pos h
  · rw [narrowSetUp, if_pos rfl, Bool.or_true, Bool.not_true, Bool.or_false]
    exact if_pos h

/-! ### The commands -/

theorem exec_coreFault (x : Fin 25600) (c : CoreFault) (s : State) :
    exec (.coreFault x c) s = .next { s with m := coreFault x c s.m } := rfl

theorem exec_routerParityFailure (x : Fin 25600) (input : Fin 4) (s : State) :
    exec (.routerParityFailure x input) s = .next { s with m := routerParityFailure x input s.m } := rfl

theorem exec_routerRemove (x : Fin 25600) (s : State) : exec (.routerRemove x) s = .next { s with m := routerRemove x s.m } := rfl

theorem exec_selfTestDone (r : Fin 25) (cores routers : BitVec 1024) (s : State) :
    exec (.selfTestDone r cores routers) s = .next { s with m := selfTestDone r cores routers s.m } := rfl

theorem exec_stockTrainingDone (dev : Fin 32) (passed : Bool) (s : State) :
    exec (.stockTrainingDone dev passed) s = .next { s with m := stockTrainingDone dev passed s.m } := rfl

theorem exec_narrowPageAreaSetUp (east : Bool) (s : State) :
    exec (.narrowPageAreaSetUp east) s = .next { s with m := narrowSetUp east s.m } := rfl

/-- Settles O44: each clause is the lemma of its command, a stuck router and a failing input that of the full fence they begin. -/
theorem fencesAndTests : Obligations.FencesAndTests := by
  unfold Obligations.FencesAndTests
  intro s d usable counted ended fencing hold hl
  have fenced : ∀ (i : Instr) (y : Nat), exec i s = .next { s with m := fenceFault y s.m } → s.m.fullyFenced y = false →
      s.m.fence y ≠ 3 → s.m.ringBlocked y = false → fencing i y := fun i y he hfull hfence hring =>
    ⟨_, he, by rw [fenceFault_fenceFull hfull hfence hring]; exact fenceFull_begins y s.m⟩
  refine ⟨fun x c h0 hrem hc => ?core, fun x => fenced _ _ ?stuck, fun x input y hy hfail => fenced _ _ ?parity,
    fun x hrem => ⟨_, exec_routerRemove x s, routerRemove_removes hl x.isLt hrem⟩, fun r cores hdom => ?test,
    fun dev passed hedge hnew hfails => ⟨_, exec_stockTrainingDone dev passed s, stockTrainingDone_trains passed hedge hnew hfails⟩,
    fun east hedge => ?narrow⟩
  case core => exact ⟨_, exec_coreFault x c s, by rw [coreFault_fenceCoreOnly hold hc]; exact fenceCoreOnly_fences hl x.isLt h0 hrem⟩
  case stuck => rw [exec_coreFault, coreFault_stuckRouter hold]
  case parity => rw [exec_routerParityFailure, routerParityFailure_fenceFault hold hy hfail]
  case test =>
    obtain ⟨hoff, htested, hcodes, hother, hrest⟩ := selfTestDone_leaves hold hl r.isLt cores hdom
    exact ⟨_, exec_selfTestDone r cores _ s, hoff, htested, hcodes, fun k hk _ => hother k hk, hrest⟩
  case narrow => rw [exec_narrowPageAreaSetUp, narrowSetUp_sets hedge]

end Sys2Proof.Proofs
end

section
/-!
PROOFS. A KERF and a PREEMPT_POINT: the arrival at a pending interval's end, the digest boundary and the interval that begins.
-/

namespace Sys2Proof.Proofs

open Sys2Proof Sys2Proof.Machine Sys2Proof.Laws

/-! ### A running gang's flags and its cores -/

theorem voidTicks_running {m : Mod} {r : Nat} (h : (m.region r).run.running = true) :
    m.voidTicks r = m.onRegion r (fun g => { g with run := { g.run with tickVoid := true } }) := if_pos h

theorem voidCycles_running {m : Mod} {r : Nat} (h : (m.region r).run.running = true) :
    m.voidCycles r = m.onRegion r (fun g => { g with run := { g.run with cycleVoid := true } }) := if_pos h

/-- A core reads the same after a change of its region that is no power-up. -/
theorem core_onRegion {m : Mod} {r : Nat} {f : Region → Region} (h : (f (m.region r)).undef = (m.region r).undef) (x : Nat) :
    (m.onRegion r f).core x = m.core x := by
  have hu : ((m.onRegion r f).region (siteRegion x)).undef = (m.region (siteRegion x)).undef := by
    rw [region_onRegion_ite]
    split
    · next e => rw [h, e]
    · rfl
  simp only [Mod.core, cores_onRegion, hu]

/-! ### The arrival at a kerf -/

theorem changeDue_onRegion {m : Mod} {r : Nat} {f : Region → Region}
    (h : (f (m.region r)).pendingChange = (m.region r).pendingChange) : (m.onRegion r f).changeDue r = m.changeDue r := by
  unfold Mod.changeDue
  rw [region_onRegion, h]
  rfl

/-- A region whose gang waits at a kerf end, counted. -/
def arriving (g : Region) : Region := setWait .kerf { g with time := { g.time with kerfCount := bump48 g.time.kerfCount 1 } }

/-- A region whose gang arrives at the end of a pending interval, with a committed change that it has not acknowledged or without. -/
def arriveAt (iv : Interval) (unready : Bool) (g : Region) : Region :=
  let late := g.ticks - iv.target
  { g with
    seq := { g.seq with wait := .kerf }
    time := { g.time with
      kerfCount := bump48 g.time.kerfCount 1
      kerfOverruns := if 0 < late then bump48 g.time.kerfOverruns 1 else g.time.kerfOverruns
      kerfOverrunMax := if 0 < late then max32 g.time.kerfOverrunMax late else g.time.kerfOverrunMax }
    ev := if 0 < late then (countEv g { code := 2, d := late }).ev else g.ev
    run := { g.run with tickVoid := decide (0 < late) || unready || g.run.tickVoid } }

theorem arriveAt_late {iv : Interval} {unready : Bool} {g : Region} (h : 0 < g.ticks - iv.target) :
    (arriveAt iv unready g).run.tickVoid = true := by
  simp only [arriveAt, decide_eq_true h, Bool.true_or]

theorem arriveAt_inTime {iv : Interval} {unready : Bool} {g : Region} (h : g.ticks - iv.target = 0) :
    (arriveAt iv unready g).ev = g.ev ∧ (arriveAt iv unready g).run.tickVoid = (unready || g.run.tickVoid) := by
  simp [arriveAt, h]

/-- A kerf end passed leaves what the arrival does and no wait. -/
theorem kerfOverrun_arriving {m : Mod} {r : Nat} {iv : Interval} (h : (m.region r).run.running = true)
    (late : 0 < (m.region r).ticks - iv.target) :
    kerfOverrun r ((m.region r).ticks - iv.target) (m.onRegion r arriving) = m.onRegion r (arriveAt iv false) := by
  unfold kerfOverrun
  rw [onRegion_onRegion, voidTicks_running (by rw [region_onRegion]; exact h), onRegion_onRegion]
  exact onRegion_congr _ _ _ _ (by simp only [arriveAt, if_pos late, decide_eq_true late]; rfl)

theorem arriving_inTime {m : Mod} {r : Nat} {iv : Interval} (late : ¬ 0 < (m.region r).ticks - iv.target) :
    m.onRegion r arriving = m.onRegion r (arriveAt iv false) :=
  onRegion_congr _ _ _ _ (by simp only [arriveAt, if_neg late, decide_eq_false late]; rfl)

theorem kerfArrive_arriveAt {m : Mod} {r : Nat} (iv : Interval) (h : (m.region r).run.running = true) :
    kerfArrive r iv m = m.onRegion r (arriveAt iv (m.changeDue r && !(m.region r).ack)) := by
  have arrives : (if iv.target < (m.region r).ticks then kerfOverrun r ((m.region r).ticks - iv.target) (m.onRegion r arriving)
      else m.onRegion r arriving) = m.onRegion r (arriveAt iv false) := by
    split
    · next late => exact kerfOverrun_arriving h (Nat.sub_pos_of_lt late)
    · next late => exact arriving_inTime (by omega)
  have settles : kerfArrive r iv m = (fun x : Mod => if x.changeDue r && !(m.region r).ack then x.voidTicks r else x)
    (if iv.target < (m.region r).ticks then kerfOverrun r ((m.region r).ticks - iv.target) (m.onRegion r arriving)
      else m.onRegion r arriving) := rfl
  rw [settles, arrives]
  dsimp only
  rw [changeDue_onRegion rfl]
  cases hu : m.changeDue r && !(m.region r).ack with
  | false => rfl
  | true =>
    rw [if_pos rfl, voidTicks_running (by rw [region_onRegion]; exact h), onRegion_onRegion]
    exact onRegion_congr _ _ _ _ (by simp only [arriveAt, Bool.or_true, Bool.true_or])

/-- A PREEMPT_POINT with a pre-emption pending waits for it. -/
theorem kerfOp_preempting {m : Mod} {r : Nat} (scond sarg target : Nat) (hp : (m.region r).run.preempting = true)
    (hr : (m.region r).seq.resumeIssue = false) : kerfOp r true scond sarg target m = (m.onRegion r (setWait .preempt), false) := by
  simp only [kerfOp, hp, hr]; rfl

theorem kerfOp_arrives {m : Mod} {r : Nat} {preempt : Bool} {iv : Interval} (scond sarg target : Nat)
    (hi : (m.region r).seq.interval = some iv)
    (hp : preempt = true → (m.region r).run.preempting = false ∧ (m.region r).seq.resumeIssue = false) :
    kerfOp r preempt scond sarg target m = (kerfArrive r iv m, false) := by
  cases preempt with
  | false => simp [kerfOp, hi]
  | true =>
    obtain ⟨h1, h2⟩ := hp rfl
    simp [kerfOp, hi, h1, h2]

theorem exec_kerf (r : Fin 25) (scond : BitVec 4) (sarg : W32) (target : BitVec 15) (s : State) :
    exec (.kerf r scond sarg target) s =
      s.runIf (Instr.wf (.kerf r scond sarg target)) (headerRow r 3 scond.toNat sarg.toNat target.toNat) := rfl

theorem exec_preemptPoint (r : Fin 25) (scond : BitVec 4) (sarg : W32) (target : BitVec 15) (s : State) :
    exec (.preemptPoint r scond sarg target) s =
      s.runIf (Instr.wf (.preemptPoint r scond sarg target)) (headerRow r 4 scond.toNat sarg.toNat target.toNat) := rfl

/-- A header command whose operation does not issue leaves what the operation does. -/
theorem header_waits {s : State} {r : Fin 25} {i : Instr} {so sc sa ta : Nat} {t : Mod} (h : MayIssue (s.m.region r)) (hw : Instr.wf i = true)
    (he : exec i s = s.runIf (Instr.wf i) (headerRow r so sc sa ta)) (ho : headerOp r so sc sa ta s.m = (t, none)) :
    exec i s = .next { s with m := t } := by
  rw [header_issues h hw he, ho]

/-- A region whose header operation has issued. -/
def goesTo (next : Nat) (g : Region) : Region := { g with seq := { g.seq with addr := next, wait := .none } }

/-- A header command whose operation issues leaves what the operation does, at the address that follows it. -/
theorem header_goes {s : State} {r : Fin 25} {i : Instr} {so sc sa ta next : Nat} {t : Mod} (h : MayIssue (s.m.region r))
    (hw : Instr.wf i = true) (he : exec i s = s.runIf (Instr.wf i) (headerRow r so sc sa ta))
    (ho : headerOp r so sc sa ta s.m = (t, some next)) :
    exec i s = .next { s with m := t.onRegion r (goesTo next) } := by
  rw [header_issues h hw he, ho]
  rfl

/-! ### The digest boundary -/

/-- Of the whole module, digests of cores and the waiting snapshots of a region. -/
def OnlyDigests (r : Nat) (m t : Mod) : Prop :=
  (∃ regions cores, t = { m with regions := regions, cores := cores }) ∧ (∀ k, k ≠ r → t.region k = m.region k) ∧
    (∃ l, t.region r = { m.region r with dig := { (m.region r).dig with pending := l } }) ∧
    ∀ x, t.core x = { m.core x with dig := (t.core x).dig }

theorem OnlyDigests.refl (r : Nat) (m : Mod) : OnlyDigests r m m := ⟨⟨m.regions, m.cores, rfl⟩, fun _ _ => rfl, ⟨_, rfl⟩, fun _ => rfl⟩

theorem OnlyDigests.trans {r : Nat} (a b c : Mod) (h : OnlyDigests r a b) (h' : OnlyDigests r b c) : OnlyDigests r a c := by
  obtain ⟨⟨_, _, rfl⟩, hr, ⟨l, hg⟩, hc⟩ := h
  obtain ⟨⟨rs, cs, rfl⟩, hr', ⟨l', hg'⟩, hc'⟩ := h'
  exact ⟨⟨rs, cs, rfl⟩, fun k hk => (hr' k hk).trans (hr k hk), ⟨l', by rw [hg', hg]⟩, fun x => by rw [hc', hc]⟩

theorem onlyDigests_onCore (r : Nat) (m : Mod) (x : Nat) (f : Core → DigestState) :
    OnlyDigests r m (m.onCore x (fun c => { c with dig := f c })) := by
  refine ⟨⟨m.regions, _, rfl⟩, fun k _ => rfl, ⟨_, rfl⟩, fun y => ?_⟩
  by_cases hy : y = x
  · subst hy
    rw [core_onCore]
  · rw [core_onCore_other _ _ _ _ hy]

theorem onlyDigests_pending (r : Nat) (m : Mod) (l : List Snapshot) :
    OnlyDigests r m (m.onRegion r (fun g => { g with dig := { g.dig with pending := l } })) :=
  ⟨⟨_, m.cores, rfl⟩, fun k hk => region_onRegion_other _ _ _ _ hk, ⟨l, region_onRegion ..⟩, fun x => by rw [core_onRegion rfl]⟩

/-- The snapshots that no ring waits for freed, the cores' intervals closed at their positions. -/
theorem pruneBounds_onlyDigests (r : Nat) (m : Mod) : OnlyDigests r m (pruneBounds r m) := by
  unfold pruneBounds
  dsimp only
  split
  · exact .refl r m
  · refine .trans _ _ _ (foldl_keeps (.refl r) .trans (fun b x => ?_) _ m) (onlyDigests_pending r _ _)
    exact onlyDigests_onCore r b x _

/-- A region at a digest boundary before position `pos`: one more boundary, its snapshot the last that waits. -/
def boundaryAt (pos : Nat) (final : Bool) (g : Region) : Region := { g with dig := { g.dig with
  boundaries := g.dig.boundaries + 1
  pending := g.dig.pending ++ [{ layer := g.dig.layerBase + BitVec.ofNat 64 g.dig.boundaries.toNat, pos := pos, final := final
                                 g := g.seq.g, stick := BitVec.ofNat 64 g.ticks, flags := regionFlags g final }] } }

theorem takeBoundary_onlyDigests (r pos : Nat) (final : Bool) (m : Mod) :
    OnlyDigests r (m.onRegion r (boundaryAt pos final)) (takeBoundary r pos final m) := pruneBounds_onlyDigests r _

/-! ### The beginning of an interval -/

/-- Whether the energy entry of a KERF's class does not declare its interval (R474). -/
def undeclared (d : PartDecl) (ticks : Bool) (len e : Nat) : Bool :=
  decide (len ≠ 0) && (match d.energy[e]? with
    | some x => x.interval != len || x.ticks != ticks
    | none => true)

theorem undeclared_iff (d : PartDecl) (ticks : Bool) (len e : Nat) :
    undeclared d ticks len e = true ↔ len ≠ 0 ∧ ¬ ∃ x, d.energy[e]? = some x ∧ x.interval = len ∧ x.ticks = ticks := by
  unfold undeclared
  cases d.energy[e]? with
  | none => simp
  | some x => simp [imp_iff_not_or]

/-- A region whose KERF or PREEMPT_POINT issues, past its digest boundary. -/
def begun (ticks : Bool) (len e hot : Nat) (bad : Bool) (g : Region) : Region :=
  { g with
    seq := { g.seq with
      resumeIssue := false
      interval := if len = 0 then none
        else some { ticks := ticks, len := len, eclass := e, target := g.seq.kerfBase + intervalTicks ticks len g.step } }
    warnInterval := if len = 0 then g.warnInterval else 0
    cyclesInterval := if len = 0 then g.cyclesInterval else 0
    tmaxInterval := if len = 0 then g.tmaxInterval else hot
    declMismatches := if bad then g.declMismatches + 1 else g.declMismatches }

theorem beginInterval_begun (r : Nat) (ticks : Bool) (len e : Nat) (m : Mod) :
    beginInterval r ticks len e (m.onRegion r (fun g => { g with seq := { g.seq with resumeIssue := false } })) =
      m.onRegion r (begun ticks len e (m.hottest r) false) := by
  unfold beginInterval
  rw [onRegion_onRegion]
  refine onRegion_congr _ _ _ _ ?_
  by_cases hl : len = 0
  · simp only [begun, if_pos hl]; rfl
  · simp only [begun, if_neg hl]; rfl

/-- A declaration that is not met is counted. -/
theorem begun_counted (m : Mod) (r : Nat) (ticks : Bool) (len e hot : Nat) (bad : Bool) :
    (if bad then (m.onRegion r (begun ticks len e hot false)).onRegion r (fun g => { g with declMismatches := bump32 g.declMismatches 1 })
      else m.onRegion r (begun ticks len e hot false)) = m.onRegion r (begun ticks len e hot bad) := by
  cases bad with
  | false => rfl
  | true => exact (if_pos rfl).trans (onRegion_onRegion ..)

theorem kerfOp_issues {m : Mod} {r : Nat} {preempt : Bool} (scond sarg target : Nat) (hroom : (m.region r).dig.pending.length < 4)
    (h : (preempt = true ∧ (m.region r).seq.resumeIssue = true) ∨
      ((m.region r).seq.interval = none ∧ (preempt = true → (m.region r).run.preempting = false))) :
    let t := takeBoundary r (m.region r).seq.pos false m
    let ticks := decide (scond % 2 = 1)
    let e := target / 128
    kerfOp r preempt scond sarg target m =
      (t.onRegion r (begun ticks sarg e (t.hottest r) (undeclared (m.region r).decl ticks sarg e)), true) := by
  dsimp only
  have first : (preempt && (m.region r).run.preempting && !(m.region r).seq.resumeIssue) = false := by
    rcases h with ⟨rfl, h⟩ | ⟨-, h⟩
    · simp [h]
    · cases preempt
      · rfl
      · simp [h rfl]
  have none : (if preempt && (m.region r).seq.resumeIssue then none else (m.region r).seq.interval) = none := by
    rcases h with ⟨rfl, h⟩ | ⟨h, -⟩
    · simp [h]
    · simp [h]
  have room : digestRoom (m.region r) = true := decide_eq_true hroom
  unfold kerfOp
  simp only [first, none, room]
  rw [if_neg Bool.false_ne_true, if_neg (by decide), beginInterval_begun]
  exact congrArg (·, true) (begun_counted _ r _ sarg _ _ (undeclared (m.region r).decl (decide (scond % 2 = 1)) sarg (target / 128)))

theorem headerOp_kerf (r scond sarg target : Nat) (m : Mod) : headerOp r 3 scond sarg target m =
    ((kerfOp r false scond sarg target m).1,
      if (kerfOp r false scond sarg target m).2 then some (((m.region r).seq.addr + 1) % 32768) else none) := rfl

theorem headerOp_preemptPoint (r scond sarg target : Nat) (m : Mod) : headerOp r 4 scond sarg target m =
    ((kerfOp r true scond sarg target m).1,
      if (kerfOp r true scond sarg target m).2 then some (((m.region r).seq.addr + 1) % 32768) else none) := rfl

/-- What a header command leaves when it issues past a digest boundary: the boundary counted, and what `f` makes of its region. -/
theorem takeBoundary_onRegion_leaves (s : State) (r : Fin 25) (pos : Nat) {f : Region → Region} (hf : ∀ g, (f g).undef = g.undef) :
    let t := (takeBoundary r pos false s.m).onRegion r f
    RegionAndCores s { s with m := t } r (fun c c' => c' = { c with dig := c'.dig }) ∧
      ∃ l, t.region r = f { s.m.region r with dig := { (s.m.region r).dig with
        boundaries := (s.m.region r).dig.boundaries + 1, pending := l } } := by
  obtain ⟨⟨rs, cs, ht⟩, hother, ⟨l, hregion⟩, hcores⟩ := takeBoundary_onlyDigests r pos false s.m
  refine ⟨⟨by rw [ht]; rfl, fun k hk => ?_, fun x => ?_⟩, l, ?_⟩
  · exact (region_onRegion_other _ _ _ _ hk).trans ((hother k hk).trans (region_onRegion_other _ _ _ _ hk))
  · have same : ((takeBoundary r pos false s.m).onRegion r f).core x = (takeBoundary r pos false s.m).core x := core_onRegion (hf _) x
    dsimp only
    rw [same, hcores, core_onRegion rfl]
  · dsimp only
    rw [region_onRegion, hregion, region_onRegion]
    rfl

/-- Settles O24: a pending interval is arrived at, a pre-emption waits, and else the operation issues past its boundary. -/
theorem kerfHoldsAndBegins : Obligations.KerfHoldsAndBegins := by
  unfold Obligations.KerfHoldsAndBegins
  refine ⟨fun s r scond sarg target iv => ?holds, fun s r scond sarg target => ?begins⟩
  case holds =>
    intro g late arrived arrives hm
    have arrival : ∀ i, exec i s = .next { s with m := kerfArrive r iv s.m } → arrives i := fun i he => by
      rw [kerfArrive_arriveAt iv hm.1] at he
      exact ⟨_, he, rfl, rfl, arriveAt_late, fun h => (arriveAt_inTime h).1, fun h hu => by rw [(arriveAt_inTime h).2, hu, Bool.false_or]⟩
    refine ⟨fun hw hi => ?_, fun hw hi hr hp => ?_, fun hw hp hr => ?_⟩
    · refine arrival _ (header_waits hm hw (exec_kerf ..) ?_)
      rw [headerOp_kerf, kerfOp_arrives _ _ _ hi (by simp)]
      rfl
    · refine arrival _ (header_waits hm hw (exec_preemptPoint ..) ?_)
      rw [headerOp_preemptPoint, kerfOp_arrives _ _ _ hi (fun _ => ⟨hp, hr⟩)]
      rfl
    · refine header_waits hm hw (exec_preemptPoint ..) ?_
      rw [headerOp_preemptPoint, kerfOp_preempting _ _ _ hp hr]
      rfl
  case begins =>
    intro g ticks e length declared begins hm hroom
    have boundary : ∀ i hot, exec i s = .next { s with m := (takeBoundary r g.seq.pos false s.m).onRegion r (fun x =>
        goesTo ((g.seq.addr + 1) % 32768) (begun ticks sarg.toNat e hot (undeclared g.decl ticks sarg.toNat e) x)) } → begins i := by
      intro i hot he
      obtain ⟨hframe, l, hx⟩ := takeBoundary_onRegion_leaves s r g.seq.pos (f := fun x =>
        goesTo ((g.seq.addr + 1) % 32768) (begun ticks sarg.toNat e hot (undeclared g.decl ticks sarg.toNat e) x)) (fun _ => rfl)
      have zero : sarg = 0 ↔ sarg.toNat = 0 := by rw [← BitVec.toNat_inj]; rfl
      refine ⟨_, he, hframe, ?_⟩
      dsimp only at hx ⊢
      rw [hx]
      refine ⟨?_, rfl, fun h0 hd => ?_, fun h => ?_, rfl, rfl, rfl, rfl, rfl, rfl, rfl⟩
      · simp only [zero]
        rfl
      · exact if_pos ((undeclared_iff ..).2 ⟨mt zero.2 h0, hd⟩)
      · refine if_neg (fun hb => ?_)
        obtain ⟨h0, hd⟩ := (undeclared_iff ..).1 hb
        exact h.elim (fun h => h0 (zero.1 h)) hd
    refine ⟨fun hw hi => ?_, fun hw h => ?_⟩
    · have ho := headerOp_kerf r scond.toNat sarg.toNat target.toNat s.m
      rw [kerfOp_issues _ _ _ hroom (.inr ⟨hi, by simp⟩)] at ho
      exact boundary _ _ ((header_goes hm hw (exec_kerf ..) ho).trans (by rw [onRegion_onRegion]))
    · have ho := headerOp_preemptPoint r scond.toNat sarg.toNat target.toNat s.m
      rw [kerfOp_issues _ _ _ hroom (h.imp (⟨rfl, ·⟩) (fun h => ⟨h.2, fun _ => h.1⟩))] at ho
      exact boundary _ _ ((header_goes hm hw (exec_preemptPoint ..) ho).trans (by rw [onRegion_onRegion]))

end Sys2Proof.Proofs
end

section
/-!
PROOFS. Releases at a kerf end, at the run base and at a launch, the governor, and LAUNCH and STOCK at issue.
-/

namespace Sys2Proof.Proofs

open Sys2Proof Sys2Proof.Machine Sys2Proof.Laws

/-! ### Releases -/

/-- The sequencer of a region runs when a gang runs there, clocked, with a valid view and no change of step under way, not stopped. -/
theorem seqRuns_of {g : Region} (h : g.run.running = true ∧ g.dom = .awake ∧ g.viewValid = true ∧ g.switching = 0 ∧ g.seq.stopping = none) :
    seqRuns g = true := by
  obtain ⟨hrun, hdom, hview, hswitch, hstop⟩ := h
  simp [seqRuns, Region.clocked, hrun, hdom, hview, hswitch, hstop]

theorem exec_gangFirstRelease (r : Fin 25) (s : State) : exec (.gangFirstRelease r) s = .next { s with m :=
    match (s.m.region r).seq.wait with
    | .first => if seqRuns (s.m.region r) && decide ((s.m.region r).seq.kerfBase ≤ (s.m.region r).ticks)
        then s.m.onRegion r (setWait .none) else s.m
    | _ => s.m } := rfl

theorem gangFirstRelease_due {s : State} {r : Fin 25} (hrun : seqRuns (s.m.region r) = true) (hw : (s.m.region r).seq.wait = .first)
    (hb : (s.m.region r).seq.kerfBase ≤ (s.m.region r).ticks) :
    RegionLeaves (.gangFirstRelease r) s r (fun x => { x with seq := { x.seq with wait := .none } }) := by
  unfold RegionLeaves
  rw [exec_gangFirstRelease, hw]
  simp only [hrun, hb]
  rfl

theorem gangFirstRelease_early {s : State} {r : Fin 25} (hw : (s.m.region r).seq.wait = .first)
    (hb : (s.m.region r).ticks < (s.m.region r).seq.kerfBase) : exec (.gangFirstRelease r) s = .next s := by
  rw [exec_gangFirstRelease, hw]
  simp [Nat.not_le.2 hb]

theorem exec_launchRelease (r : Fin 25) (s : State) : exec (.launchRelease r) s = .next { s with m :=
    match (s.m.region r).seq.wait with
    | .launch t => if seqRuns (s.m.region r) && decide (t ≤ (s.m.region r).ticks) then s.m.onRegion r (setWait .ready) else s.m
    | _ => s.m } := rfl

theorem launchRelease_due {s : State} {r : Fin 25} {b : Nat} (hrun : seqRuns (s.m.region r) = true) (hw : (s.m.region r).seq.wait = .launch b)
    (hb : b ≤ (s.m.region r).ticks) :
    RegionLeaves (.launchRelease r) s r (fun x => { x with seq := { x.seq with wait := .ready } }) := by
  unfold RegionLeaves
  rw [exec_launchRelease, hw]
  simp only [hrun, hb]
  rfl

/-! ### The governor at a kerf end -/

/-- A region whose step changes between two non-zero steps. -/
def stepped (k : Nat) (g : Region) : Region := if g.step = k ∨ g.step = 0 ∨ k = 0 then g else { g with step := k, switching := 2 }

theorem switchStep_stepped (r k : Nat) (m : Mod) : switchStep r k m = m.onRegion r (stepped k) := rfl

theorem stepped_leaves (k : Nat) (g : Region) : ∃ a b, stepped k g = { g with step := a, switching := b } ∧ (g.step ≠ a → b = 2) := by
  unfold stepped
  split
  · exact ⟨g.step, g.switching, rfl, fun h => absurd rfl h⟩
  · exact ⟨k, 2, rfl, fun _ => rfl⟩

theorem stepped_step {k : Nat} {g : Region} (h : k ≠ g.step → g.step ≠ 0 ∧ k ≠ 0) : (stepped k g).step = k := by
  unfold stepped
  split
  · next e =>
    by_contra hk
    obtain ⟨h1, h2⟩ := h (Ne.symm hk)
    exact e.elim hk (fun e => e.elim h1 h2)
  · rfl

theorem stepped_same (g : Region) : stepped g.step g = g := if_pos (.inl rfl)

/-- Of the whole module only power's record and one region differ, and that region is now `x`. -/
def AtRegion (r : Nat) (m t : Mod) (x : Region) : Prop :=
  (∃ regions power, t = { m with regions := regions, power := power }) ∧ (∀ k, k ≠ r → t.region k = m.region k) ∧ t.region r = x

theorem AtRegion.trans {r : Nat} {a b c : Mod} {x y : Region} (h : AtRegion r a b x) (h' : AtRegion r b c y) : AtRegion r a c y := by
  obtain ⟨⟨_, _, rfl⟩, hr, -⟩ := h
  obtain ⟨⟨rs, p, rfl⟩, hr', hx⟩ := h'
  exact ⟨⟨rs, p, rfl⟩, fun k hk => (hr' k hk).trans (hr k hk), hx⟩

theorem atRegion_onRegion (r : Nat) (m : Mod) (p : Power) (f : Region → Region) :
    AtRegion r m (Mod.onRegion { m with power := p } r f) (f (m.region r)) :=
  ⟨⟨_, p, rfl⟩, fun _ hk => region_onRegion_other _ _ _ _ hk, region_onRegion ..⟩

theorem atRegion_power (r : Nat) (m : Mod) (p : Power) : AtRegion r m { m with power := p } (m.region r) :=
  ⟨⟨m.regions, p, rfl⟩, fun _ _ => rfl, rfl⟩

theorem atRegion_unstepped (r : Nat) (m : Mod) : AtRegion r m m (stepped (m.region r).step (m.region r)) :=
  ⟨⟨m.regions, m.power, rfl⟩, fun _ _ => rfl, (stepped_same _).symm⟩

/-- The energy declared for an interval at the step applied (R583). -/
def declaredEnergy (g : Region) (iv : Interval) : Nat :=
  match g.decl.energy[iv.eclass]? with
  | some d => d.energy.getD (g.step - 1) 0
  | none => 0

/-- Power's record with an interval's measured and declared energy. -/
def measured (r energy declared : Nat) (p : Power) : Power :=
  { p with lastEnergy := Tab.set p.lastEnergy r energy, lastDecl := Tab.set p.lastDecl r declared }

theorem energyCheck_eq (r : Nat) (iv : Interval) (energy : Nat) (m : Mod) : energyCheck r iv energy m =
    let x : Mod := { m with power := measured r energy (declaredEnergy (m.region r) iv) m.power }
    if 103 * declaredEnergy (m.region r) iv < 100 * energy then
      x.onRegion r (fun g => { g with declOverruns := bump32 g.declOverruns 1 })
    else x := rfl

theorem energyCheck_at (r : Nat) (iv : Interval) (energy : Nat) (m : Mod) :
    let g := m.region r
    let t := energyCheck r iv energy m
    AtRegion r m t { g with declOverruns := if 103 * declaredEnergy g iv < 100 * energy then g.declOverruns + 1 else g.declOverruns } ∧
      t.emerg r = m.emerg r ∧ t.power.governorDown = m.power.governorDown := by
  intro g t
  simp only [t, energyCheck_eq]
  split
  · exact ⟨atRegion_onRegion .., rfl, rfl⟩
  · exact ⟨atRegion_power .., rfl, rfl⟩

/-- The governor at a kerf end may change the step, and only with no staged change and no ceiling (R589, R590, R597). -/
theorem governKerf_at (r : Nat) (m : Mod) : ∃ k,
    let g := m.region r
    AtRegion r m (governKerf r m) (stepped k g) ∧
      (g.pendingChange = true ∨ (m.emerg r).ceiling ≠ 15 → k = g.step) ∧
      (g.pendingChange = false → (m.emerg r).ceiling = 15 → g.reprMode = false → r ∉ m.power.governorDown → k = governed g) := by
  dsimp only
  unfold governKerf
  dsimp only
  split
  · next h =>
    refine ⟨(m.region r).step, atRegion_unstepped r m, fun _ => rfl, fun hp hc => ?_⟩
    simp [hp, hc] at h
  · next h =>
    have free : ¬ ((m.region r).pendingChange = true ∨ (m.emerg r).ceiling ≠ 15) := by simpa using h
    split
    · next hrepr =>
      split
      · exact ⟨_, atRegion_onRegion r m _ _, fun hp => absurd hp free, fun _ _ hr => by simp [hrepr] at hr⟩
      · exact ⟨(m.region r).step, atRegion_unstepped r m, fun _ => rfl, fun _ _ hr => by simp [hrepr] at hr⟩
    · exact ⟨_, atRegion_onRegion r m _ _, fun hp => absurd hp free, fun _ _ _ hd => if_neg (fun h => hd (List.contains_iff_mem.1 h.1))⟩

/-- The throughput governor's choice (R590): down when hot, up when cool, within floor and admitted step. -/
theorem governed_eq (g : Region) :
    let hot : Prop := 9500 ≤ g.tmaxInterval ∨ g.cyclesInterval < g.warnInterval * 1024
    let cool : Prop := g.tmaxInterval < 9000 ∧ g.warnInterval = 0
    (hot → governed g = if max 1 g.decl.floor < g.step then g.step - 1 else g.step) ∧
    (cool → governed g = if g.step < g.run.admitted then g.step + 1 else g.step) ∧ (¬ hot → ¬ cool → governed g = g.step) := by
  intro hot cool
  refine ⟨fun h => if_pos h, fun h => ?_, fun h h' => ?_⟩
  · have : ¬ hot := by simp only [hot, cool] at h ⊢; omega
    exact (if_neg this).trans (if_pos h)
  · exact (if_neg h).trans (if_neg h')

theorem governed_ne_zero {g : Region} (h : g.step ≠ 0) : governed g ≠ 0 := by
  unfold governed
  dsimp only
  split_ifs <;> omega

/-- A region whose gang is released at a kerf end: the kerf base becomes the target, never the tick of release (R50, R51). -/
def released (iv : Interval) (g : Region) : Region := { g with seq := { g.seq with kerfBase := iv.target, interval := none, wait := .none } }

theorem kerfRelease_due {m : Mod} {r energy : Nat} {iv : Interval} (hrun : seqRuns (m.region r) = true) (hw : (m.region r).seq.wait = .kerf)
    (hi : (m.region r).seq.interval = some iv) (ht : iv.target ≤ (m.region r).ticks) (hc : m.changeDue r = false) :
    kerfRelease r energy m = governKerf r (energyCheck r iv energy (m.onRegion r (released iv))) := by
  unfold kerfRelease
  simp only [hw, hi, hrun, ht, hc]
  rfl

/-- What KERF_RELEASE leaves: the region released, its energy checked, and the step the governor chose. -/
theorem kerfRelease_at {m : Mod} {r energy : Nat} {iv : Interval} (hrun : seqRuns (m.region r) = true) (hw : (m.region r).seq.wait = .kerf)
    (hi : (m.region r).seq.interval = some iv) (ht : iv.target ≤ (m.region r).ticks) (hc : m.changeDue r = false) : ∃ k,
    let g := m.region r
    AtRegion r m (kerfRelease r energy m) (stepped k { released iv g with
      declOverruns := if 103 * declaredEnergy g iv < 100 * energy then g.declOverruns + 1 else g.declOverruns }) ∧
      (g.pendingChange = true ∨ (m.emerg r).ceiling ≠ 15 → k = g.step) ∧
      (g.pendingChange = false → (m.emerg r).ceiling = 15 → g.reprMode = false → r ∉ m.power.governorDown → k = governed g) := by
  obtain ⟨hcheck, hemerg, hdown⟩ := energyCheck_at r iv energy (m.onRegion r (released iv))
  obtain ⟨k, hgovern, hkeeps, hgoverned⟩ := governKerf_at r (energyCheck r iv energy (m.onRegion r (released iv)))
  have hreleased : AtRegion r m (m.onRegion r (released iv)) (released iv (m.region r)) := atRegion_onRegion r m m.power (released iv)
  rw [hcheck.2.2, region_onRegion] at hgovern hkeeps hgoverned
  rw [kerfRelease_due hrun hw hi ht hc]
  rw [hemerg] at hkeeps hgoverned
  rw [hdown] at hgoverned
  exact ⟨k, (hreleased.trans hcheck).trans hgovern, hkeeps, hgoverned⟩

theorem exec_kerfRelease (r : Fin 25) (energy : W32) (s : State) :
    exec (.kerfRelease r energy) s = .next { s with m := kerfRelease r energy.toNat s.m } := rfl

/-! ### LAUNCH and STOCK at issue -/

theorem exec_launch (r : Fin 25) (scond : BitVec 4) (sarg : W32) (target : BitVec 15) (s : State) :
    exec (.launch r scond sarg target) s =
      s.runIf (Instr.wf (.launch r scond sarg target)) (headerRow r 5 scond.toNat sarg.toNat target.toNat) := rfl

theorem exec_stock (r : Fin 25) (scond : BitVec 4) (sarg : W32) (target : BitVec 15) (s : State) :
    exec (.stock r scond sarg target) s =
      s.runIf (Instr.wf (.stock r scond sarg target)) (headerRow r 6 scond.toNat sarg.toNat target.toNat) := rfl

theorem headerOp_launch (r scond sarg target : Nat) (m : Mod) : headerOp r 5 scond sarg target m =
    ((launchOp r sarg m).1, if (launchOp r sarg m).2 then some (((m.region r).seq.addr + 1) % 32768) else none) := rfl

theorem headerOp_stock (r scond sarg target : Nat) (m : Mod) : headerOp r 6 scond sarg target m =
    ((stockOp r scond sarg m).1, if (stockOp r scond sarg m).2 then some (((m.region r).seq.addr + 1) % 32768) else none) := rfl

section
variable {m : Mod} {r : Nat} (sarg : Nat)

theorem launchOp_ready (h : (m.region r).seq.wait = .ready) : launchOp r sarg m = (m, true) := by simp only [launchOp, h]

/-- A LAUNCH that has not been released compares its target with the view. -/
theorem launchOp_unreleased (h : (m.region r).seq.wait ≠ .ready) : launchOp r sarg m =
    if (m.region r).ticks < (m.region r).seq.kerfBase + sarg then
      (m.onRegion r (setWait (.launch ((m.region r).seq.kerfBase + sarg))), false)
    else if (m.region r).seq.kerfBase + sarg < (m.region r).ticks then
      ((m.onRegion r (fun g => { g with time := { g.time with launchLate := bump48 g.time.launchLate 1 } })).voidTicks r, true)
    else (m, true) := by
  unfold launchOp
  dsimp only
  split
  · next hw => exact absurd hw h
  · rfl

theorem stockOp_full (scond : Nat) (h : (m.region r).run.running = true)
    (hroom : 2048 < (m.region r).eng.queue.length + (sarg / 2 ^ 9 % 256 + 1)) : stockOp r scond sarg m =
    (m.onRegion r (fun x => { x with seq := { x.seq with wait := .stock }, run := { x.run with cycleVoid := true } }), false) := by
  unfold stockOp
  dsimp only
  rw [if_pos hroom, voidCycles_running (by rw [region_onRegion]; exact h), onRegion_onRegion]
  rfl

/-- The descriptors that a STOCK hands to its region's engine (R222). -/
def descriptors (g : Region) (scond sarg : Nat) : List DescIn :=
  (List.range (sarg / 2 ^ 9 % 256 + 1)).map (fun k =>
    ({ addr := sarg / 2 ^ 17 + k, desc := g.decl.bundles.get (sarg / 2 ^ 17 + k)
       v := if scond % 2 = 1 then g.seq.loops[sarg / 2 ^ 6 % 8]?.getD 0 else 0, exec := g.seq.pos } : DescIn))

theorem stockOp_room (scond : Nat) (hroom : (m.region r).eng.queue.length + (sarg / 2 ^ 9 % 256 + 1) ≤ 2048) : stockOp r scond sarg m =
    (m.onRegion r (fun g => { g with eng := { g.eng with queue := g.eng.queue ++ descriptors (m.region r) scond sarg } }), true) := by
  unfold stockOp
  dsimp only
  rw [if_neg (by omega)]
  rfl

end

/-- Settles O25: a release that is due, and a LAUNCH or STOCK by what its operation answers. -/
theorem releasesAndLaunches : Obligations.ReleasesAndLaunches := by
  unfold Obligations.ReleasesAndLaunches
  refine ⟨fun s r => ?releases, fun s r scond sarg target => ?issues⟩
  case releases =>
    intro g runs hot cool
    refine ⟨fun energy iv hrun hw hi ht hc => ?_, fun hrun hw hb => gangFirstRelease_due (seqRuns_of hrun) hw hb,
      fun b hrun hw hb => launchRelease_due (seqRuns_of hrun) hw hb, fun hrun hw hb => gangFirstRelease_early hw hb⟩
    obtain ⟨k, ⟨⟨rs, p, hmod⟩, hother, hregion⟩, hkeeps, hgoverned⟩ :=
      kerfRelease_at (energy := energy.toNat) (seqRuns_of hrun) hw hi ht hc
    obtain ⟨step, switching, hstepped, hswitch⟩ := stepped_leaves k { released iv g with
      declOverruns := if 103 * declaredEnergy g iv < 100 * energy.toNat then g.declOverruns + 1 else g.declOverruns }
    have hstep : ∀ j, k = j → (j ≠ g.step → g.step ≠ 0 ∧ j ≠ 0) → ((kerfRelease r energy.toNat s.m).region r).step = j := fun j hj h0 => by
      rw [hregion, hj]
      exact stepped_step h0
    refine ⟨_, exec_kerfRelease .., by rw [hmod], hother, ?_, ?_, ?_, fun h => hstep _ (hkeeps h) (absurd rfl), fun h1 h2 h3 h4 h0 => ?_⟩
    · dsimp only
      rw [hregion, hstepped]
      rfl
    · dsimp only
      rw [hregion, hstepped]
      rfl
    · dsimp only
      rw [hregion, hstepped]
      exact hswitch
    · obtain ⟨hhot, hcool, helse⟩ := governed_eq g
      have hx : ((kerfRelease r energy.toNat s.m).region r).step = governed g :=
        hstep _ (hgoverned h1 h2 h3 h4) (fun _ => ⟨h0, governed_ne_zero h0⟩)
      exact ⟨fun h => hx.trans (hhot h), fun h => hx.trans (hcool h), fun h h' => hx.trans (helse h h')⟩
  case issues =>
    intro g at_ following first count v on hm
    have launch := headerOp_launch r scond.toNat sarg.toNat target.toNat s.m
    have stock := headerOp_stock r scond.toNat sarg.toNat target.toNat s.m
    refine ⟨fun hw hr hl => ?_, fun hw hl => ?_, fun hw hr hl => ?_, fun hw hroom => ?_, fun hw hroom => ?_⟩
    · rw [launchOp_unreleased _ hr, if_pos hl] at launch
      exact header_waits hm hw (exec_launch ..) launch
    · have goes : launchOp r sarg.toNat s.m = (s.m, true) := by
        by_cases hr : g.seq.wait = .ready
        · exact launchOp_ready _ hr
        · have ht : at_ = g.ticks := hl.resolve_left hr
          rw [launchOp_unreleased _ hr, if_neg ht.ge.not_gt, if_neg ht.le.not_gt]
      rw [goes] at launch
      exact header_goes hm hw (exec_launch ..) launch
    · rw [launchOp_unreleased _ hr, if_neg (Nat.lt_asymm hl), if_pos hl, voidTicks_running (by rw [region_onRegion]; exact hm.1),
        onRegion_onRegion] at launch
      exact (header_goes hm hw (exec_launch ..) launch).trans (by rw [onRegion_onRegion]; rfl)
    · rw [stockOp_room _ _ hroom] at stock
      refine ⟨descriptors g scond.toNat sarg.toNat, (header_goes hm hw (exec_stock ..) stock).trans (by rw [onRegion_onRegion]; rfl),
        by simp [descriptors, count], fun k hk => ?_⟩
      rw [descriptors, List.getElem?_map, List.getElem?_range hk]
      rfl
    · rw [stockOp_full _ _ hm.1 hroom] at stock
      exact header_waits hm hw (exec_stock ..) stock

end Sys2Proof.Proofs
end

section
/-!
PROOFS. A flit over a router's output link and through a spline, and a header's way.
-/

namespace Sys2Proof.Proofs

open Sys2Proof Sys2Proof.Machine Sys2Proof.Laws

/-! ### Buffers and splines -/

theorem get_upd {α : Type} (t : Tab α) (k j : Nat) (d : α) (f : α → α) :
    Tab.get (Tab.upd t k d f) j d = if j = k then f (Tab.get t k d) else Tab.get t j d := get_set ..

/-- A table whose empty lists are unlisted reads back what is written. -/
theorem get_setOrErase {α : Type} (t : Tab (List α)) (k j : Nat) (l : List α) :
    Tab.get (if l.isEmpty then Tab.erase t k else Tab.set t k l) j [] = if j = k then l else Tab.get t j [] := by
  cases l with
  | nil => simp [Tab.get, find_erase]; split <;> simp
  | cons a l => exact get_set ..

theorem buf_setBuf (n : Mesh) (s i c s' i' c' : Nat) (l : List Flit) :
    (n.setBuf s i c l).buf s' i' c' = if bufKey s' i' c' = bufKey s i c then l else n.buf s' i' c' := get_setOrErase ..

theorem buf_setBuf_same (n : Mesh) (s i c : Nat) (l : List Flit) : (n.setBuf s i c l).buf s i c = l := by rw [buf_setBuf, if_pos rfl]

theorem bufKey_site {s i s' i' c : Nat} (hi : i < 5) (hi' : i' < 5) (h : s ≠ s') : bufKey s i c ≠ bufKey s' i' c := by
  unfold bufKey
  omega

theorem buf_setBuf_other (n : Mesh) {s i s' i' : Nat} (c : Nat) (l : List Flit) (hi : i < 5) (hi' : i' < 5) (h : s' ≠ s) :
    (n.setBuf s i c l).buf s' i' c = n.buf s' i' c := by rw [buf_setBuf, if_neg (bufKey_site hi' hi h)]

theorem buf_setSpline (n : Mesh) (s o s' i' c' : Nat) (l : List (Nat × Flit)) : (n.setSpline s o l).buf s' i' c' = n.buf s' i' c' := rfl

theorem spline_setSpline (n : Mesh) (s o : Nat) (l : List (Nat × Flit)) : (n.setSpline s o l).spline s o = l :=
  (get_setOrErase ..).trans (if_pos rfl)

theorem spline_setBuf (n : Mesh) (s i c s' o' : Nat) (l : List Flit) : (n.setBuf s i c l).spline s' o' = n.spline s' o' := rfl

/-- A flit's parity failure is counted, and nothing else of the mesh changes. -/
theorem parityAt_leaves (t i : Nat) (f : Flit) (n : Mesh) : ∃ p q, parityAt t i f n = { n with parity := p, parityMark := q } := by
  unfold parityAt
  split
  · exact ⟨_, _, rfl⟩
  · exact ⟨n.parity, n.parityMark, rfl⟩

theorem buf_parityAt (t i : Nat) (f : Flit) (n : Mesh) (s j c : Nat) : (parityAt t i f n).buf s j c = n.buf s j c := by
  obtain ⟨p, q, h⟩ := parityAt_leaves t i f n
  rw [h]
  rfl

theorem spline_parityAt (t i : Nat) (f : Flit) (n : Mesh) (s o : Nat) : (parityAt t i f n).spline s o = n.spline s o := by
  obtain ⟨p, q, h⟩ := parityAt_leaves t i f n
  rw [h]
  rfl

theorem parityAt_bad (t i : Nat) {f : Flit} (n : Mesh) (h : f.bad = true) :
    Tab.get (parityAt t i f n).parity (t * 4 + i) 0 = (Tab.get n.parity (t * 4 + i) 0 + 1) % 2 ^ 32 := by
  rw [parityAt, if_pos h]
  dsimp only
  rw [get_upd, if_pos rfl]

/-- A link taken or freed changes the messages and the owners of links, and the flit's own message stays in the mesh (R333). -/
theorem takeLink_leaves (s o c : Nat) {f : Flit} {n : Mesh} (h : Tab.find n.msgs f.msg ≠ none) :
    ∃ msgs owner, takeLink s o c f n = { n with msgs := msgs, owner := owner } ∧ Tab.find msgs f.msg ≠ none := by
  obtain ⟨x, hx⟩ := Option.ne_none_iff_exists'.1 h
  unfold takeLink
  simp only [hx]
  by_cases hf : f.idx ≠ 0
  · simp only [if_pos hf]
    split
    · exact ⟨n.msgs, _, rfl, h⟩
    · exact ⟨n.msgs, n.owner, rfl, h⟩
  · simp only [if_neg hf]
    split
    · exact ⟨_, _, rfl, by rw [find_set, if_pos rfl]; simp⟩
    · exact ⟨_, _, rfl, by rw [find_set, if_pos rfl]; simp⟩

/-! ### The flit that a link takes -/

/-- A router at whose buffers' fronts no header has lost its way. -/
def NoneLost (s : Nat) (m : Mod) : Prop := ∀ i c f l, m.mesh.buf s i c = f :: l → f.idx = 0 → m.wants s f ≠ none

theorem dropLost_none {s : Nat} {m : Mod} (h : NoneLost s m) : dropLost s m = m := by
  have front : ∀ i c, (match m.mesh.buf s i c with
      | f :: _ => if f.idx == 0 && m.wants s f == none then { m with mesh := m.mesh.drop f.msg } else m
      | [] => m) = m := fun i c => by
    cases hb : m.mesh.buf s i c with
    | nil => rfl
    | cons f l =>
      refine if_neg (fun hl => ?_)
      simp only [Bool.and_eq_true, beq_iff_eq] at hl
      exact h i c f l hb hl.1 hl.2
  exact List.foldl_fixed' (fun i => List.foldl_fixed' (fun c => front i c) _) _

/-- A flit ready for a link stands at the front of one of the router's buffers, of a message in the mesh that goes that way. -/
theorem readyFlits_front {s o i c : Nat} {f : Flit} {m : Mod} (h : (i, c, f) ∈ m.readyFlits s o) :
    i < 5 ∧ ∃ l, m.mesh.buf s i c = f :: l ∧ m.wants s f = some o := by
  simp only [Mod.readyFlits, List.mem_flatMap, List.mem_filterMap] at h
  obtain ⟨i', hi', c', hc', h⟩ := h
  cases hb : m.mesh.buf s i' c' with
  | nil =>
    rw [hb] at h
    cases h
  | cons g l =>
    rw [hb] at h
    obtain ⟨hg, h⟩ := Option.ite_none_right_eq_some.1 h
    simp only [Bool.and_eq_true, beq_iff_eq] at hg
    cases h
    refine ⟨?_, l, hb, hg.1.2⟩
    simp only [List.mem_cons, List.not_mem_nil, or_false] at hi'
    omega

theorem wants_msg {s : Nat} {f : Flit} {m : Mod} (h : m.wants s f ≠ none) : Tab.find m.mesh.msgs f.msg ≠ none := by
  unfold Mod.wants at h
  intro hn
  rw [hn] at h
  exact h rfl

theorem neighbour_ne {s o t : Nat} (h : neighbour s o = some t) : t ≠ s := by
  unfold neighbour at h
  split at h
  case h_5 => cases h
  all_goals
    split at h
    · cases h
    · have := Option.some.inj h
      omega

theorem opposite_lt {o : Nat} (h : o < 4) : opposite o < 5 := by
  interval_cases o <;> decide

/-- The mesh of a router whose flit has left its buffer, its link taken or freed. -/
def departed (s o i c : Nat) (f : Flit) (n : Mesh) : Mesh := takeLink s o c f (n.setBuf s i c ((n.buf s i c).drop 1))

/-- A flit sent to a neighbour enters its buffer in the same region, and the spline to another. -/
theorem sendFlit_mesh {m : Mod} {s o i c t : Nat} {f : Flit} (parity : Bool) (ho : o < 4)
    (hmsg : Tab.find m.mesh.msgs f.msg ≠ none) (hn : neighbour s o = some t) :
    let f' : Flit := { f with bad := f.bad || parity }
    let n := departed s o i c f m.mesh
    (sendFlit s o i c f parity m).mesh = if siteRegion s = siteRegion t
      then parityAt t (opposite o) f' (n.setBuf t (opposite o) c (n.buf t (opposite o) c ++ [f']))
      else n.setSpline s o (n.spline s o ++ [(c, f')]) := by
  intro f' n
  obtain ⟨msgs, owner, hd, hkept⟩ := takeLink_leaves s o c (n := m.mesh.setBuf s i c ((m.mesh.buf s i c).drop 1)) hmsg
  obtain ⟨x, hx⟩ := Option.ne_none_iff_exists'.1 hkept
  have hfind : Tab.find n.msgs f.msg = some x := by
    exact (congrArg (fun n : Mesh => Tab.find n.msgs f.msg) hd).trans hx
  have same : (if i = 4 then m.onCore s (leftNi f.last) else m).mesh = m.mesh := by split <;> rfl
  unfold sendFlit
  simp only [same]
  rw [show takeLink s o c f (m.mesh.setBuf s i c ((m.mesh.buf s i c).drop 1)) = n from rfl, hfind]
  simp only [if_neg ho.ne, hn]
  split <;> rfl

/-- What a flit sent from a router to its neighbour leaves of the mesh. -/
theorem sendFlit_toNeighbour {m : Mod} {s o i c t : Nat} {f : Flit} (parity : Bool) (hi : i < 5) (ho : o < 4)
    (hmsg : Tab.find m.mesh.msgs f.msg ≠ none) (hn : neighbour s o = some t) :
    let f' : Flit := { f with bad := f.bad || parity }
    let n' := (sendFlit s o i c f parity m).mesh
    n'.buf s i c = (m.mesh.buf s i c).drop 1 ∧
    (siteRegion s = siteRegion t → n'.buf t (opposite o) c = m.mesh.buf t (opposite o) c ++ [f'] ∧
      (f'.bad = true → Tab.get n'.parity (t * 4 + opposite o) 0 = (Tab.get m.mesh.parity (t * 4 + opposite o) 0 + 1) % 2 ^ 32)) ∧
    (siteRegion s ≠ siteRegion t → n'.spline s o = m.mesh.spline s o ++ [(c, f')] ∧ n'.buf t (opposite o) c = m.mesh.buf t (opposite o) c) := by
  intro f' n'
  obtain ⟨msgs, owner, hd, -⟩ := takeLink_leaves s o c (n := m.mesh.setBuf s i c ((m.mesh.buf s i c).drop 1)) hmsg
  have hst := neighbour_ne hn
  have ho' := opposite_lt ho
  have hbuf : ∀ j k, (departed s o i c f m.mesh).buf j k c = (m.mesh.setBuf s i c ((m.mesh.buf s i c).drop 1)).buf j k c := fun j k => by
    rw [departed, hd]
    rfl
  have hspline : (departed s o i c f m.mesh).spline s o = m.mesh.spline s o := by
    rw [departed, hd]
    rfl
  have hparity : (departed s o i c f m.mesh).parity = m.mesh.parity := by rw [departed, hd, Mesh.setBuf]
  have hn' := sendFlit_mesh (i := i) (c := c) parity ho hmsg hn
  change n' = _ at hn'
  by_cases hr : siteRegion s = siteRegion t
  · rw [if_pos hr] at hn'
    refine ⟨?_, fun _ => ⟨?_, fun hbad => ?_⟩, fun h => absurd hr h⟩
    · rw [hn', buf_parityAt, buf_setBuf_other _ _ _ ho' hi hst.symm, hbuf, buf_setBuf_same]
    · rw [hn', buf_parityAt, buf_setBuf_same, hbuf, buf_setBuf_other _ _ _ hi ho' hst]
    · rw [hn', parityAt_bad _ _ _ hbad]
      rw [Mesh.setBuf, hparity]
  · rw [if_neg hr] at hn'
    refine ⟨?_, fun h => absurd h hr, fun _ => ⟨?_, ?_⟩⟩
    · rw [hn', buf_setSpline, hbuf, buf_setBuf_same]
    · rw [hn', spline_setSpline, hspline]
    · rw [hn', buf_setSpline, hbuf, buf_setBuf_other _ _ _ hi ho' hst]

/-! ### A header's way (R332) -/

/-- A message that is not where it goes has a neighbour on its way. -/
theorem neighbour_railOut {s d : Nat} (hs : s < 25600) (hd : d < 25600) (h : s ≠ d) : ∃ t, neighbour s (railOut s d) = some t := by
  unfold railOut
  split_ifs with h1 h2 h3 h4
  · exact ⟨_, if_neg (by omega)⟩
  · exact ⟨_, if_neg (by omega)⟩
  · exact ⟨_, if_neg (by omega)⟩
  · exact ⟨_, if_neg (by omega)⟩
  · omega

/-- A header that no fence diverts takes its route's output, and at its destination its last. -/
theorem headerOut_route {n : Mesh} {s : Nat} {z : MeshMsg} (hr : z.ring = []) (h1 : n.removed = []) (h2 : n.removing = [])
    (hs : s < 25600) (hd : z.dst < 25600) :
    (headerOut n s z).map (·.1) = some (if s = z.dst then lastOut z else railOut s z.dst) := by
  unfold headerOut
  rw [hr]
  dsimp only
  by_cases h : s = z.dst
  · rw [if_pos h, if_pos h]
    rfl
  · obtain ⟨t, ht⟩ := neighbour_railOut hs hd h
    have unfenced : n.bypassed t = false := by simp [Mesh.bypassed, h1, h2]
    rw [if_neg h, if_neg h, ht]
    dsimp only
    rw [unfenced]
    rfl

theorem railOut_or_last {s d : Nat} (last : Nat) :
    (if s = d then last else railOut s d) = if s % 160 < d % 160 then 1 else if d % 160 < s % 160 then 0
      else if s < d then 3 else if d < s then 2 else last := by
  rcases eq_or_ne s d with rfl | h
  · simp
  · rw [if_neg h, railOut]
    have : s < d ∨ d < s := by omega
    rcases this with h | h
    · simp [h]
    · simp [h, h.not_gt]

/-! ### The commands -/

theorem exec_flitHop (x : Fin 25600) (o : Fin 5) (parity : Bool) (s : State) :
    exec (.flitHop x o parity) s = .next { s with m := flitHop x o parity s.m } := rfl

theorem exec_splineCross (x : Fin 25600) (o : Fin 5) (s : State) :
    exec (.splineCross x o) s = .next { s with m := splineCross x o s.m } := rfl

theorem flitHop_ready {m : Mod} {s o i c : Nat} {f : Flit} {lost : List (Nat × Nat × Flit)} (parity : Bool)
    (hdom : (m.region (siteRegion s)).dom = .awake) (hrem : s ∉ m.mesh.removed) (hlost : NoneLost s m)
    (h : m.readyFlits s o = (i, c, f) :: lost) :
    flitHop s o parity m = sendFlit s o i c f parity (lost.foldl (fun m x => m.onCore s (recCollision x.2.1)) m) := by
  unfold flitHop
  rw [if_neg (by simp [Region.clocked, hdom, hrem])]
  dsimp only
  rw [dropLost_none hlost, h]

/-- Losers are counted in a core: the mesh is as it was. -/
theorem mesh_collisions (s : Nat) (lost : List (Nat × Nat × Flit)) (m : Mod) :
    (lost.foldl (fun m x => m.onCore s (recCollision x.2.1)) m).mesh = m.mesh :=
  foldl_keeps (R := fun a b : Mod => b.mesh = a.mesh) (f := fun m x => m.onCore s (recCollision x.2.1)) (fun _ => rfl) (fun _ _ _ h h' => h'.trans h)
    (fun _ _ => rfl) lost m

theorem splineCross_delivers {m : Mod} {s o t c : Nat} {f : Flit} {rest : List (Nat × Flit)} (hn : neighbour s o = some t)
    (hs : m.mesh.spline s o = (c, f) :: rest) (hdom : (m.region (siteRegion t)).dom = .awake) (hfree : (m.mesh.buf t (opposite o) c).length < 4) :
    (splineCross s o m).mesh.spline s o = rest ∧ (splineCross s o m).mesh.buf t (opposite o) c = m.mesh.buf t (opposite o) c ++ [f] := by
  unfold splineCross
  rw [hn, hs]
  dsimp only
  rw [if_neg (by simp [Region.clocked, hdom]; omega)]
  dsimp only
  rw [spline_parityAt, spline_setBuf, spline_setSpline, buf_parityAt, buf_setBuf_same, buf_setSpline]
  exact ⟨rfl, rfl⟩

/-- Settles O32: the first ready flit is sent to the neighbour, a spline's oldest is delivered, and a header's output is its route's. -/
theorem flitsMove : Obligations.FlitsMove := by
  unfold Obligations.FlitsMove
  intro s x y o n o' hn
  refine ⟨fun parity i c f lost hdom hrem hlost hready => ?_, fun c f rest hs hdom hfree => ⟨_, exec_splineCross .., splineCross_delivers hn hs hdom hfree⟩,
    fun z hr h1 h2 hd => (headerOut_route hr h1 h2 x.isLt hd).trans (congrArg some (railOut_or_last _))⟩
  obtain ⟨hi, l, -, hwants⟩ := readyFlits_front (m := s.m) (hready ▸ List.mem_cons_self)
  have hmsg : Tab.find s.m.mesh.msgs f.msg ≠ none := wants_msg (by rw [hwants]; simp)
  rw [← mesh_collisions x lost s.m] at hmsg
  have hsent := sendFlit_toNeighbour (c := c) parity hi o.isLt hmsg hn
  rw [mesh_collisions] at hsent
  exact ⟨_, (exec_flitHop ..).trans (by rw [show (o.castSucc : Nat) = o from rfl, flitHop_ready parity hdom hrem hlost hready]), hsent⟩

end Sys2Proof.Proofs
end

section
/-!
PROOFS. What leaves the clock of the always-on domain: one frame for each operation of the model on the module.
-/

namespace Sys2Proof.Proofs

open Sys2Proof Sys2Proof.Machine Sys2Proof.Laws

/-- The clock of the always-on domain: the stick and what its marks are counted by (R33 to R37). -/
structure Clock where
  stick : W64
  markNumber : W64
  stickAtMark : W64
  refCycles : Nat
  span : Nat
  trim : Int

def clockOf (a : Aon) : Clock := ⟨a.stick, a.markNumber, a.stickAtMark, a.refCycles, a.span, a.trim⟩

@[simp] theorem clockOf_mk {state stick markNumber stickAtMark refCycles span trim appliedMask maskAtMark inFlight commitMark syncIo
    acquiring edgeIgnored edgeTaken missRun markInMiss safeCause entryState heldCauses tirixRunning identityReady ownerProven ownerInstalled
    fwVersion svn heartbeat beatStopped pins} :
    clockOf ⟨state, stick, markNumber, stickAtMark, refCycles, span, trim, appliedMask, maskAtMark, inFlight, commitMark, syncIo,
      acquiring, edgeIgnored, edgeTaken, missRun, markInMiss, safeCause, entryState, heldCauses, tirixRunning, identityReady, ownerProven,
      ownerInstalled, fwVersion, svn, heartbeat, beatStopped, pins⟩ = ⟨stick, markNumber, stickAtMark, refCycles, span, trim⟩ := rfl

theorem clockOf_eta (a : Aon) : (⟨a.stick, a.markNumber, a.stickAtMark, a.refCycles, a.span, a.trim⟩ : Clock) = clockOf a := rfl

@[simp] theorem clock_ite {c : Prop} [Decidable c] (a b : Mod) :
    clockOf (if c then a else b).aon = if c then clockOf a.aon else clockOf b.aon := by split <;> rfl

@[simp] theorem clock_ite_fst {α : Type} {c : Prop} [Decidable c] (a b : Mod × α) :
    clockOf (if c then a else b).1.aon = if c then clockOf a.1.aon else clockOf b.1.aon := by split <;> rfl

@[simp] theorem clock_ite_ans {c : Prop} [Decidable c] (a b : Ans) :
    clockOf (if c then a else b).m.aon = if c then clockOf a.m.aon else clockOf b.m.aon := by split <;> rfl

@[simp] theorem clock_foldl {α : Type} {f : Mod → α → Mod} (h : ∀ m a, clockOf (f m a).aon = clockOf m.aon) (l : List α) (m : Mod) :
    clockOf (l.foldl f m).aon = clockOf m.aon := by
  induction l generalizing m with
  | nil => rfl
  | cons a l ih => rw [List.foldl_cons, ih, h]

@[simp] theorem clock_foldl_fst {α β : Type} {f : Mod × β → α → Mod × β} (h : ∀ x a, clockOf (f x a).1.aon = clockOf x.1.aon) (l : List α)
    (x : Mod × β) : clockOf (l.foldl f x).1.aon = clockOf x.1.aon := by
  induction l generalizing x with
  | nil => rfl
  | cons a l ih => rw [List.foldl_cons, ih, h]

@[simp] theorem clock_fail (e : Nat) (m : Mod) : clockOf (Ans.fail m e).m.aon = clockOf m.aon := rfl

/-! ### State operations -/

@[simp] theorem clock_voidTicks (m r) : clockOf (Mod.voidTicks m r).aon = clockOf m.aon := by
  simp [Mod.voidTicks]

@[simp] theorem clock_voidCycles (m r) : clockOf (Mod.voidCycles m r).aon = clockOf m.aon := by
  simp [Mod.voidCycles]

/-! ### Events and the log -/

@[simp] theorem clock_sendMsix (v m) : clockOf (sendMsix v m).aon = clockOf m.aon := by
  simp [sendMsix]

@[simp] theorem clock_recordEvent (x m) : clockOf (recordEvent x m).aon = clockOf m.aon := by
  simp [recordEvent]

@[simp] theorem clock_logChange (cmd sess item target failed old new m) : clockOf (logChange cmd sess item target failed old new m).aon = clockOf m.aon := by
  simp [logChange]

@[simp] theorem clock_floodNotice (n except m) : clockOf (floodNotice n except m).aon = clockOf m.aon := by
  simp [floodNotice]

/-! ### Stock and the page table -/

@[simp] theorem clock_setPte (m sess page e) : clockOf (Mod.setPte m sess page e).aon = clockOf m.aon := by
  simp [Mod.setPte]

@[simp] theorem clock_setChunk (m k v) : clockOf (Mod.setChunk m k v).aon = clockOf m.aon := by
  simp [Mod.setChunk]

@[simp] theorem clock_zeroPage (m p) : clockOf (Mod.zeroPage m p).aon = clockOf m.aon := by
  unfold Mod.zeroPage
  split
  · rfl
  · exact clock_foldl (fun _ _ => clock_setChunk ..) ..

@[simp] theorem clock_touchPage (m sess page write) : clockOf (Mod.touchPage m sess page write).aon = clockOf m.aon := by
  simp [Mod.touchPage]

@[simp] theorem clock_stockWrite (sess sa : Nat) (bs : List Byte) (m : Mod) : clockOf (m.stockWrite sess sa bs).aon = clockOf m.aon := by
  induction bs generalizing sa m with
  | nil => rfl
  | cons b bs ih => exact (ih ..).trans (clock_setChunk ..)

@[simp] theorem clock_storeChunk (m q) : clockOf (Mod.storeChunk m q).aon = clockOf m.aon := by
  simp [Mod.storeChunk]

@[simp] theorem clock_freePage (m sess page) : clockOf (Mod.freePage m sess page).aon = clockOf m.aon := by
  simp [Mod.freePage]

@[simp] theorem clock_freeDeferred (m) : clockOf (Mod.freeDeferred m).aon = clockOf m.aon :=
  clock_foldl (fun _ _ => clock_setPte ..) ..

/-! ### Gangs and jobs -/

@[simp] theorem clock_completeJob (j status body m) : clockOf (completeJob j status body m).aon = clockOf m.aon := by
  simp [completeJob]

@[simp] theorem clock_settleIssued (r m) : clockOf (settleIssued r m).aon = clockOf m.aon := by
  unfold settleIssued
  rw [aon_onRegion]
  exact clock_foldl (fun m x => by rw [aon_setCore]) ..

@[simp] theorem clock_pruneBounds (r m) : clockOf (pruneBounds r m).aon = clockOf m.aon := by
  unfold pruneBounds
  split
  · rfl
  · rw [aon_onRegion]
    exact clock_foldl (fun m s => by rw [aon_onCore]) ..

@[simp] theorem clock_takeBoundary (r pos final m) : clockOf (takeBoundary r pos final m).aon = clockOf m.aon := by
  simp [takeBoundary]

@[simp] theorem clock_abandonWords (owned m) : clockOf (abandonWords owned m).aon = clockOf m.aon :=
  clock_foldl (fun m r => clock_foldl (fun m s => by rw [aon_onCore]) ..) ..

@[simp] theorem clock_endSite (r s m) : clockOf (endSite r s m).1.aon = clockOf m.aon := by
  unfold endSite
  exact (clock_foldl (fun m x => by rw [aon_onRegion]) ..).trans (by rw [aon_setCore])

@[simp] theorem clock_failPreempt (gang m) : clockOf (failPreempt gang m).aon = clockOf m.aon := by
  unfold failPreempt
  split
  · rfl
  · split
    · rfl
    · rw [clock_completeJob]
      exact clock_foldl (fun m g => by rw [aon_onRegion]) ..

@[simp] theorem clock_endPart (r status m) : clockOf (endPart r status m).aon = clockOf m.aon := by
  simp [endPart]

@[simp] theorem clock_stopPart (status r m) : clockOf (stopPart status r m).aon = clockOf m.aon := by
  simp [stopPart]

@[simp] theorem clock_stopPlacement (status g0 m) : clockOf (stopPlacement status g0 m).aon = clockOf m.aon := by
  unfold stopPlacement
  split <;> simp

@[simp] theorem clock_stopIssue (r status m) : clockOf (stopIssue r status m).aon = clockOf m.aon := by
  simp [stopIssue]

/-! ### SAFE_HOLD and events raised -/

@[simp] theorem clock_finishChunk (m q) : clockOf (finishChunk m q).aon = clockOf m.aon := by
  simp [finishChunk]

@[simp] theorem clock_holdJob (m j) : clockOf (holdJob m j).aon = clockOf m.aon := by
  unfold holdJob
  split <;> simp

@[simp] theorem clock_doneSafeHold (r : Nat) (m old : Mod) : clockOf (doneSafeHold r m old).aon = clockOf m.aon := by
  unfold doneSafeHold
  split
  · exact clock_recordEvent ..
  · rfl

@[simp] theorem clock_holdRegion (m r) : clockOf (holdRegion m r).aon = clockOf m.aon := by
  unfold holdRegion
  rw [aon_onRegion, clock_doneSafeHold, clock_endPart]

@[simp] theorem clock_clearRegion (r m) : clockOf (clearRegion r m).aon = clockOf m.aon := by
  simp [clearRegion]

@[simp] theorem clock_loseMain (m) : clockOf (loseMain m).aon = clockOf m.aon := by
  unfold loseMain
  simp

@[simp] theorem clock_holdPort (m p) : clockOf (holdPort m p).aon = clockOf m.aon := by
  simp [holdPort]

@[simp] theorem clock_enterSafeHold (cause m) : clockOf (enterSafeHold cause m).aon = clockOf m.aon := by
  simp [enterSafeHold, clockOf_eta]

@[simp] theorem clock_raiseEvent (code source count gang d0 d flags m) : clockOf (raiseEvent code source count gang d0 d flags m).aon = clockOf m.aon := by
  simp only [raiseEvent]
  repeat' split
  all_goals simp

@[simp] theorem clock_applyEff (m site e) : clockOf (Mod.applyEff m site e).aon = clockOf m.aon := by
  simp [Mod.applyEff]

/-! ### Cores and traces -/

@[simp] theorem clock_coreSlot (f op m) : clockOf (coreSlot f op m).aon = clockOf m.aon := by
  unfold coreSlot
  split <;> simp

@[simp] theorem clock_traceRecord (r pos row slot last m) : clockOf (traceRecord r pos row slot last m).aon = clockOf m.aon := by
  unfold traceRecord
  extract_lets t sa bs
  split
  · rfl
  · rw [aon_onRegion, clock_stockWrite]

@[simp] theorem clock_traceWr (op m) : clockOf (traceWr op m).aon = clockOf m.aon := by
  unfold traceWr
  split <;> simp

/-! ### The sequencer -/

@[simp] theorem clock_kerfOverrun (r d m) : clockOf (kerfOverrun r d m).aon = clockOf m.aon := by
  simp [kerfOverrun]

@[simp] theorem clock_beginInterval (r ticks len eclass m) : clockOf (beginInterval r ticks len eclass m).aon = clockOf m.aon := by
  simp [beginInterval]

@[simp] theorem clock_kerfArrive (r iv m) : clockOf (kerfArrive r iv m).aon = clockOf m.aon := by
  simp [kerfArrive]

@[simp] theorem clock_digestWait (r m) : clockOf (digestWait r m).aon = clockOf m.aon := by
  simp [digestWait]

@[simp] theorem clock_kerfOp (r preempt scond sarg target m) : clockOf (kerfOp r preempt scond sarg target m).1.aon = clockOf m.aon := by
  simp only [kerfOp]
  repeat' split
  all_goals simp

@[simp] theorem clock_switchStep (r s m) : clockOf (switchStep r s m).aon = clockOf m.aon := by
  simp [switchStep]

@[simp] theorem clock_onEmerg (m r f) : clockOf (Mod.onEmerg m r f).aon = clockOf m.aon := by
  simp [Mod.onEmerg]

@[simp] theorem clock_governKerf (r m) : clockOf (governKerf r m).aon = clockOf m.aon := by
  simp [governKerf]

@[simp] theorem clock_energyCheck (r iv energy m) : clockOf (energyCheck r iv energy m).aon = clockOf m.aon := by
  simp [energyCheck]

@[simp] theorem clock_kerfRelease (r energy m) : clockOf (kerfRelease r energy m).aon = clockOf m.aon := by
  simp only [kerfRelease]
  split <;> simp

@[simp] theorem clock_launchOp (r sarg m) : clockOf (launchOp r sarg m).1.aon = clockOf m.aon := by
  simp only [launchOp]
  split <;> simp

@[simp] theorem clock_stockOp (r scond sarg m) : clockOf (stockOp r scond sarg m).1.aon = clockOf m.aon := by
  simp [stockOp]

@[simp] theorem clock_curveOp (r sarg m) : clockOf (curveOp r sarg m).aon = clockOf m.aon :=
  clock_foldl (fun m s => by rw [aon_onCore]) ..

@[simp] theorem clock_stepOp (r scond sarg m) : clockOf (stepOp r scond sarg m).aon = clockOf m.aon :=
  (clock_foldl (fun m s => by rw [aon_onCore]) ..).trans (by rw [aon_onRegion])

@[simp] theorem clock_endOfGang (r m) : clockOf (endOfGang r m).1.aon = clockOf m.aon := by
  simp [endOfGang]

@[simp] theorem clock_loopOp (r scond sarg target m) : clockOf (loopOp r scond sarg target m).1.aon = clockOf m.aon := by
  simp [loopOp]

@[simp] theorem clock_brOp (r scond sarg target m) : clockOf (brOp r scond sarg target m).1.aon = clockOf m.aon := by
  simp [brOp]

@[simp] theorem clock_headerOp (r sop scond sarg target m) : clockOf (headerOp r sop scond sarg target m).1.aon = clockOf m.aon := by
  unfold headerOp
  split <;> simp

@[simp] theorem clock_broadcast (r b next m) : clockOf (broadcast r b next m).aon = clockOf m.aon := by
  simp [broadcast]

@[simp] theorem clock_issueBundle (r err m) : clockOf (issueBundle r err m).aon = clockOf m.aon := by
  unfold issueBundle
  extract_lets g b
  split
  · rfl
  · split
    · rw [clock_raiseEvent, clock_stopIssue]
    · split
      · exact clock_stopIssue ..
      · have h := clock_headerOp r (bSop b) (bScond b) (bSarg b) (bTarget b) m
        split
        · next hm => rwa [hm] at h
        · next hm => rw [clock_broadcast]; rwa [hm] at h

@[simp] theorem clock_headerRow (r sop scond sarg target m) : clockOf (headerRow r sop scond sarg target m).aon = clockOf m.aon := by
  unfold headerRow
  extract_lets g
  split
  · rfl
  · have h := clock_headerOp r sop scond sarg target m
    split
    · next hm => rwa [hm] at h
    · next hm => rw [aon_onRegion]; rwa [hm] at h

@[simp] theorem clock_checkStage (r m) : clockOf (checkStage r m).aon = clockOf m.aon := by
  simp only [checkStage]
  split <;> simp

@[simp] theorem clock_holdRelease (r m) : clockOf (holdRelease r m).aon = clockOf m.aon := by
  simp only [holdRelease]
  repeat' split
  all_goals simp

@[simp] theorem clock_gangEnd (r m) : clockOf (gangEnd r m).aon = clockOf m.aon := by
  simp only [gangEnd]
  split <;> simp

@[simp] theorem clock_gangSettled (r m) : clockOf (gangSettled r m).aon = clockOf m.aon := by
  simp [gangSettled]

/-! ### The transfer engine and paging -/

@[simp] theorem clock_onEng (r f m) : clockOf (onEng r f m).aon = clockOf m.aon := by
  simp [onEng]

@[simp] theorem clock_descriptorTake (r m) : clockOf (descriptorTake r m).aon = clockOf m.aon := by
  simp only [descriptorTake]
  split <;> simp

@[simp] theorem clock_requestChunk (q m) : clockOf (requestChunk q m).aon = clockOf m.aon := by
  simp [requestChunk]

@[simp] theorem clock_transferIssue (r m) : clockOf (transferIssue r m).aon = clockOf m.aon := by
  simp only [transferIssue]
  split <;> simp

@[simp] theorem clock_sweepXfers (r m) : clockOf (sweepXfers r m).aon = clockOf m.aon := by
  simp [sweepXfers]

@[simp] theorem clock_pageOut (p a m) : clockOf (pageOut p a m).aon = clockOf m.aon := by
  unfold pageOut
  rw [clockOf_mk, clockOf_eta]

@[simp] theorem clock_pageIn (p a m) : clockOf (pageIn p a m).aon = clockOf m.aon :=
  clock_foldl (fun _ _ => clock_setChunk ..) ..

@[simp] theorem clock_evictOne (narrowDev m) : clockOf (evictOne narrowDev m).aon = clockOf m.aon := by
  unfold evictOne
  split
  · rfl
  · rw [clock_setPte, clock_ite]
    split
    · split
      · exact clock_pageOut ..
      · rfl
    · rfl

@[simp] theorem clock_makeResident (sess page m) : clockOf (makeResident sess page m).aon = clockOf m.aon := by
  unfold makeResident
  extract_lets e m1
  have h : clockOf m1.aon = clockOf m.aon := by simp [m1]
  split
  · rfl
  · split
    · simp only [clock_setPte, clock_pageIn, h]
    · exact h

@[simp] theorem clock_fillOne (sess sa fromHost source done m) : clockOf (fillOne sess sa fromHost source done m).aon = clockOf m.aon := by
  simp [fillOne]

@[simp] theorem clock_fillRows (sess sa bytes : Nat) (h : Bool) (src : W64) (n done : Nat) (m : Mod) :
    clockOf (fillRows sess sa bytes h src n done m).1.aon = clockOf m.aon := by
  induction n generalizing done m with
  | zero => rfl
  | succ n ih =>
    unfold fillRows
    split
    · simp [ih]
    · dsimp only
      split <;> simp [ih]
    · rfl

@[simp] theorem clock_hostChunk (j m) : clockOf (hostChunk j m).aon = clockOf m.aon := by
  unfold hostChunk
  split
  · exact clock_fillRows ..
  · rfl

@[simp] theorem clock_startChunk (i r m) : clockOf (startChunk i r m).aon = clockOf m.aon := by
  simp only [startChunk]
  split <;> simp

@[simp] theorem clock_wheelPeriod (i m) : clockOf (wheelPeriod i m).aon = clockOf m.aon := by
  simp only [wheelPeriod]
  repeat' split
  all_goals simp

@[simp] theorem clock_loadChunk (q x fail m) : clockOf (loadChunk q x fail m).aon = clockOf m.aon := by
  simp [loadChunk]

@[simp] theorem clock_putChunk (q x fail m) : clockOf (putChunk q x fail m).aon = clockOf m.aon := by
  simp [putChunk]

@[simp] theorem clock_chunkAccess (i retries fail m) : clockOf (chunkAccess i retries fail m).aon = clockOf m.aon := by
  simp only [chunkAccess]
  repeat' split
  all_goals simp

@[simp] theorem clock_pageService (sess page m) : clockOf (pageService sess page m).aon = clockOf m.aon := by
  simp [pageService]

@[simp] theorem clock_storeFail (r st idx x p m) : clockOf (storeFail r st idx x p m).aon = clockOf m.aon := by
  simp [storeFail]

@[simp] theorem clock_storeRowRead (r err m) : clockOf (storeRowRead r err m).aon = clockOf m.aon := by
  simp only [storeRowRead]
  repeat' split
  all_goals simp

@[simp] theorem clock_landStock (r l j parity m) : clockOf (landStock r l j parity m).aon = clockOf m.aon := by
  simp [landStock]

@[simp] theorem clock_landingRow (site parity m) : clockOf (landingRow site parity m).aon = clockOf m.aon := by
  simp only [landingRow]
  repeat' split
  all_goals simp

@[simp] theorem clock_landingPortService (site m) : clockOf (landingPortService site m).aon = clockOf m.aon := by
  simp only [landingPortService]
  split <;> simp

@[simp] theorem clock_tokenPlaced (r m) : clockOf (tokenPlaced r m).aon = clockOf m.aon := by
  simp only [tokenPlaced]
  repeat' split
  all_goals simp

/-! ### Messages -/

@[simp] theorem clock_messageArrival (s m) : clockOf (messageArrival s m).aon = clockOf m.aon := by
  simp only [messageArrival]
  split <;> simp

@[simp] theorem clock_niFlit (s f x m) : clockOf (niFlit s f x m).aon = clockOf m.aon := by
  simp only [niFlit]
  repeat' split
  all_goals simp

@[simp] theorem clock_sendFlit (s o i c f parity m) : clockOf (sendFlit s o i c f parity m).aon = clockOf m.aon := by
  simp only [sendFlit]
  repeat' split
  all_goals simp

@[simp] theorem clock_dropLost (s m) : clockOf (dropLost s m).aon = clockOf m.aon := by
  refine clock_foldl (fun m i => clock_foldl (fun m c => ?_) ..) ..
  split
  · split <;> rfl
  · rfl

@[simp] theorem clock_flitHop (s o parity m) : clockOf (flitHop s o parity m).aon = clockOf m.aon := by
  unfold flitHop
  extract_lets m1
  split
  · rfl
  · split
    · exact clock_dropLost ..
    · rw [clock_sendFlit, ← clock_dropLost s m]
      exact clock_foldl (fun m x => by rw [aon_onCore]) ..

@[simp] theorem clock_splineCross (s o m) : clockOf (splineCross s o m).aon = clockOf m.aon := by
  unfold splineCross
  split <;> simp

@[simp] theorem clock_messageTransmit (s err m) : clockOf (messageTransmit s err m).aon = clockOf m.aon := by
  simp only [messageTransmit]
  repeat' split
  all_goals simp

@[simp] theorem clock_ringPlace (s m) : clockOf (ringPlace s m).aon = clockOf m.aon := by
  simp only [ringPlace]
  repeat' split
  all_goals simp

@[simp] theorem clock_recvService (s err m) : clockOf (recvService s err m).aon = clockOf m.aon := by
  unfold recvService
  extract_lets g c
  split
  · rfl
  · split
    · rfl
    · extract_lets k c at' h n head row dst nothing e c sent
      split
      · rfl
      · split
        · rfl
        · split
          · exact clock_applyEff ..
          · rw [clock_ite, aon_setCore, aon_setCore, ite_self]

/-! ### Links -/

@[simp] theorem clock_losePartners (lost m) : clockOf (losePartners lost m).aon = clockOf m.aon := by
  simp [losePartners]

@[simp] theorem clock_touchTopo (old m : Mod) : clockOf (touchTopo old m).aon = clockOf m.aon := by
  unfold touchTopo
  extract_lets reach lost _ m1 _ m2
  have h : clockOf m2.aon = clockOf m.aon := (clock_ite m1 _).trans (ite_self _)
  rw [clock_ite, clock_losePartners, h, ite_self]

@[simp] theorem clock_helloSend (p m) : clockOf (helloSend p m).aon = clockOf m.aon := by
  simp [helloSend]

@[simp] theorem clock_setPortState (p st reason m) : clockOf (setPortState p st reason m).aon = clockOf m.aon := by
  simp only [setPortState]
  repeat' split
  all_goals simp

@[simp] theorem clock_failoverTo (p q m) : clockOf (failoverTo p q m).aon = clockOf m.aon := by
  simp [failoverTo]

@[simp] theorem clock_leaveUp (p st reason m) : clockOf (leaveUp p st reason m).aon = clockOf m.aon := by
  unfold leaveUp
  extract_lets old sis m1 m2 m3
  have h3 : clockOf m3.aon = clockOf m2.aon := by
    revert m3
    cases sis with
    | none => exact aon_onPort .. ▸ rfl
    | some q => exact clock_failoverTo ..
  rw [clock_touchTopo, clock_raiseEvent, h3, clock_setPortState, aon_onPort]

@[simp] theorem clock_movePort (p st reason m) : clockOf (movePort p st reason m).aon = clockOf m.aon := by
  unfold movePort
  split
  · exact clock_leaveUp ..
  · extract_lets entering m1 m2
    rw [clock_touchTopo, clock_ite, clock_raiseEvent]
    exact (ite_self _).trans (clock_setPortState ..)

@[simp] theorem clock_judgeHello (p m) : clockOf (judgeHello p m).aon = clockOf m.aon := by
  simp only [judgeHello]
  repeat' split
  all_goals simp

@[simp] theorem clock_helloReceived (p h m) : clockOf (helloReceived p h m).aon = clockOf m.aon := by
  unfold helloReceived
  extract_lets st other m1
  split
  · rfl
  · split
    · rfl
    · rw [clock_judgeHello, clock_touchTopo, aon_onPort]

@[simp] theorem clock_portTrained (p m) : clockOf (portTrained p m).aon = clockOf m.aon := by
  simp [portTrained]

@[simp] theorem clock_portTrainingTimeout (p m) : clockOf (portTrainingTimeout p m).aon = clockOf m.aon := by
  simp [portTrainingTimeout]

@[simp] theorem clock_portDown (p m) : clockOf (portDown p m).aon = clockOf m.aon := by
  simp [portDown]

@[simp] theorem clock_flitReceive (p f fec m) : clockOf (flitReceive p f fec m).aon = clockOf m.aon := by
  unfold flitReceive
  extract_lets x st h ty good seqd _ x1 put' _ taken x2
  have hput : ∀ y, clockOf (put' y).aon = clockOf m.aon := fun y => by rw [aon_onPort]
  split
  · rfl
  · split
    · exact hput _
    · split
      · exact hput _
      · split
        · split
          · exact hput _
          · extract_lets y
            split
            · rw [aon_onPort, hput]
            · exact hput _
        · split
          · rw [clock_ite, hput, hput, ite_self]
          · rw [clock_ite, clock_movePort, hput, ite_self]

@[simp] theorem clock_retryFrom (p seq m) : clockOf (retryFrom p seq m).aon = clockOf m.aon := by
  simp [retryFrom]

@[simp] theorem clock_markFlit (p txStick echoTx echoRx arrival m) : clockOf (markFlit p txStick echoTx echoRx arrival m).aon = clockOf m.aon := by
  simp [markFlit]

@[simp] theorem clock_noRoute (p m) : clockOf (noRoute p m).aon = clockOf m.aon := by
  simp [noRoute]

/-- A message offered to a link of the module changes nothing of the clock. -/
theorem clock_switchOut {m m' : Mod} {d cls : Nat} {h : W128} {abort sent : Bool} {bs : List Byte} {q : Nat}
    (hs : switchOut m d cls h abort bs = some (q, sent, m')) : clockOf m'.aon = clockOf m.aon := by
  obtain ⟨p, -, hp⟩ := Option.map_eq_some_iff.1 hs
  extract_lets x lch at hp
  rw [show m' = (q, sent, m').2.2 from rfl, ← hp]
  split
  · rfl
  · split <;> rfl

@[simp] theorem clock_linkEgress (p j m) : clockOf (linkEgress p j m).aon = clockOf m.aon := by
  unfold linkEgress
  split
  · rfl
  · split
    · rfl
    · extract_lets pop
      have hpop : ∀ n, clockOf (pop n).aon = clockOf n.aon := fun _ => rfl
      split
      · rw [clock_noRoute, hpop]
      · next h =>
        obtain ⟨d, -, h⟩ := Option.bind_eq_some_iff.1 h
        rw [clock_ite, hpop, clock_switchOut h, ite_self]

@[simp] theorem clock_messageForward (p m) : clockOf (messageForward p m).aon = clockOf m.aon := by
  unfold messageForward
  split
  · rfl
  · split
    · rfl
    · split
      · rw [clock_noRoute, aon_onPort]
      · next h =>
        obtain ⟨d, -, h⟩ := Option.bind_eq_some_iff.1 h
        split
        · rw [aon_onPort, aon_onPort, clock_switchOut h]
        · exact clock_switchOut h

@[simp] theorem clock_ingressInject (p m) : clockOf (ingressInject p m).aon = clockOf m.aon := by
  unfold ingressInject
  repeat' split
  all_goals simp

@[simp] theorem clock_sendChallenge (p m) : clockOf (sendChallenge p m).aon = clockOf m.aon := by
  simp [sendChallenge]

@[simp] theorem clock_settleVerif (p v m) : clockOf (settleVerif p v m).aon = clockOf m.aon := by
  unfold settleVerif
  extract_lets m1
  have h : clockOf m1.aon = clockOf m.aon := by rw [clock_touchTopo, aon_onPort]
  rw [clock_ite, clock_judgeHello, h, ite_self]

@[simp] theorem clock_challengeReceived (p nonce serial m) : clockOf (challengeReceived p nonce serial m).aon = clockOf m.aon := by
  simp [challengeReceived]

@[simp] theorem clock_challengeRetry (p m) : clockOf (challengeRetry p m).aon = clockOf m.aon := by
  simp [challengeRetry]

@[simp] theorem clock_abandonRemote (owned m) : clockOf (abandonRemote owned m).aon = clockOf m.aon := by
  simp [abandonRemote]

@[simp] theorem clock_noticeIn (p n m) : clockOf (noticeIn p n m).aon = clockOf m.aon := by
  unfold noticeIn
  split
  · rfl
  · split
    · split
      · rfl
      · rw [clock_touchTopo, clock_floodNotice]
    · split
      · rfl
      · rw [clock_abandonRemote, clock_ite, clock_floodNotice]
        exact ite_self _
    · split
      · rfl
      · exact clock_floodNotice ..
    · split
      · rfl
      · exact clock_floodNotice ..
    · split
      · rfl
      · exact clock_settleVerif ..
    · rfl

@[simp] theorem clock_plugInsert (p watts m) : clockOf (plugInsert p watts m).aon = clockOf m.aon := by
  simp [plugInsert]

/-! ### Power -/

@[simp] theorem clock_envelopeMark (m) : clockOf (envelopeMark m).aon = clockOf m.aon := by
  simp [envelopeMark]

@[simp] theorem clock_lowerLimit (m) : clockOf (lowerLimit m).aon = clockOf m.aon := by
  simp [lowerLimit]

@[simp] theorem clock_leaveStandby (m) : clockOf (leaveStandby m).aon = clockOf m.aon := by
  simp [leaveStandby, clockOf_eta]

@[simp] theorem clock_applyChange (r m) : clockOf (applyChange r m).aon = clockOf m.aon := by
  simp only [applyChange]
  repeat' split
  all_goals simp

@[simp] theorem clock_wakeRegion (r step m) : clockOf (wakeRegion r step m).aon = clockOf m.aon := by
  simp [wakeRegion]

@[simp] theorem clock_regionWake (r m) : clockOf (regionWake r m).aon = clockOf m.aon := by
  simp [regionWake]

@[simp] theorem clock_regionSleep (r m) : clockOf (regionSleep r m).aon = clockOf m.aon := by
  simp [regionSleep]

@[simp] theorem clock_regionOff (r m) : clockOf (regionOff r m).aon = clockOf m.aon := by
  simp [regionOff]

@[simp] theorem clock_standbyEntry (m) : clockOf (standbyEntry m).aon = clockOf m.aon := by
  simp [standbyEntry, clockOf_eta]

@[simp] theorem clock_detect (r cause m) : clockOf (detect r cause m).aon = clockOf m.aon := by
  simp [detect]

@[simp] theorem clock_sensorSample (r temps amps m) : clockOf (sensorSample r temps amps m).aon = clockOf m.aon := by
  simp [sensorSample, clockOf_eta]

@[simp] theorem clock_overCurrent (r m) : clockOf (overCurrent r m).aon = clockOf m.aon := by
  simp [overCurrent]

@[simp] theorem clock_emergencyMark (r m) : clockOf (emergencyMark r m).aon = clockOf m.aon := by
  simp [emergencyMark]

@[simp] theorem clock_emergencyStep (r m) : clockOf (emergencyStep r m).aon = clockOf m.aon := by
  simp only [emergencyStep]
  repeat' split
  all_goals simp

@[simp] theorem clock_telemetryRewrite (x m) : clockOf (telemetryRewrite x m).aon = clockOf m.aon := by
  simp [telemetryRewrite]

/-! ### Fences and tests -/

@[simp] theorem clock_setFences (r cs m) : clockOf (setFences r cs m).aon = clockOf m.aon := by
  simp [setFences]

@[simp] theorem clock_coreFenced (site code withdrawn m) : clockOf (coreFenced site code withdrawn m).aon = clockOf m.aon := by
  simp [coreFenced]

@[simp] theorem clock_failGang (site m) : clockOf (failGang site m).aon = clockOf m.aon := by
  simp [failGang]

@[simp] theorem clock_fenceCoreOnly (site m) : clockOf (fenceCoreOnly site m).aon = clockOf m.aon := by
  simp [fenceCoreOnly]

@[simp] theorem clock_voidRoutes (site m) : clockOf (voidRoutes site m).aon = clockOf m.aon := by
  simp [voidRoutes]

@[simp] theorem clock_fenceFull (site m) : clockOf (fenceFull site m).aon = clockOf m.aon := by
  simp [fenceFull]

@[simp] theorem clock_withdrawRegion (site m) : clockOf (withdrawRegion site m).aon = clockOf m.aon := by
  simp [withdrawRegion]

@[simp] theorem clock_fenceFault (site m) : clockOf (fenceFault site m).aon = clockOf m.aon := by
  simp [fenceFault]

@[simp] theorem clock_coreFault (site cause m) : clockOf (coreFault site cause m).aon = clockOf m.aon := by
  unfold coreFault
  repeat' split
  all_goals simp

@[simp] theorem clock_routerParityFailure (site input m) : clockOf (routerParityFailure site input m).aon = clockOf m.aon := by
  unfold routerParityFailure
  repeat' split
  all_goals simp

@[simp] theorem clock_routerRemove (site m) : clockOf (routerRemove site m).aon = clockOf m.aon := by
  simp [routerRemove]

@[simp] theorem clock_startTests (m) : clockOf (startTests m).aon = clockOf m.aon :=
  clock_foldl (fun m r => by rw [aon_onRegion]) ..

@[simp] theorem clock_selfTestDone (r cores routers m) : clockOf (selfTestDone r cores routers m).aon = clockOf m.aon := by
  simp [selfTestDone]

/-! ### Requests -/

@[simp] theorem clock_postRequest (code q m) : clockOf (postRequest code q m).aon = clockOf m.aon := by
  simp [postRequest]

@[simp] theorem clock_answerPosted (mb status body m) : clockOf (answerPosted mb status body m).aon = clockOf m.aon := by
  simp [answerPosted]

@[simp] theorem clock_addJob (c q k m) : clockOf (addJob c q k m).aon = clockOf m.aon := by
  simp [addJob]

@[simp] theorem clock_completeNow (q c x m) : clockOf (completeNow q c x m).aon = clockOf m.aon := by
  unfold completeNow
  split <;> simp

/-- A command whose effect leaves the clock. -/
def KeepsClock (c : Cmd) : Prop := ∀ q m, clockOf (c.run q m).m.aon = clockOf m.aon

theorem clock_serveCmd {c : Cmd} (hc : KeepsClock c) (q : Req) (m : Mod) : clockOf (serveCmd c q m).aon = clockOf m.aon := by
  unfold serveCmd
  extract_lets st a
  have ha : clockOf a.m.aon = clockOf m.aon := hc q m
  split
  · exact clock_answerPosted ..
  · split
    · extract_lets m1
      have h1 : clockOf m1.aon = clockOf m.aon := by rw [clock_answerPosted, clock_addJob, ha]
      split
      · rw [clock_completeNow, h1]
      · exact h1
    · rw [clock_answerPosted, ha]

@[simp] theorem clock_mailboxCmd {c : Cmd} (hc : KeepsClock c) (q : Req) (m : Mod) : clockOf (mailboxCmd c q m).aon = clockOf m.aon := by
  unfold mailboxCmd
  extract_lets m1
  have h1 : clockOf m1.aon = clockOf m.aon := clock_postRequest ..
  split
  · rfl
  · rw [clock_ite, clock_serveCmd hc, h1, ite_self]

@[simp] theorem clock_unknownCmd (code : Nat) (q : Req) (m : Mod) : clockOf (unknownCmd code q m).aon = clockOf m.aon := by
  unfold unknownCmd
  extract_lets m1
  have h1 : clockOf m1.aon = clockOf m.aon := clock_postRequest ..
  split
  · rfl
  · rw [clock_ite, clock_answerPosted, h1, ite_self]

@[simp] theorem clock_answerWaiting (mbs status m) : clockOf (answerWaiting mbs status m).aon = clockOf m.aon := by
  simp [answerWaiting]

/-! ### Power-on and the pins -/

@[simp] theorem clock_onPins (m f) : clockOf (Mod.onPins m f).aon = clockOf m.aon := by
  simp [Mod.onPins, clockOf_eta]

@[simp] theorem clock_pwrgdAuxAssert (x8 smb m) : clockOf (pwrgdAuxAssert x8 smb m).aon = clockOf m.aon := by
  simp [pwrgdAuxAssert]

@[simp] theorem clock_bootEntry (m) : clockOf (bootEntry m).aon = clockOf m.aon := by
  simp [bootEntry, clockOf_eta]

@[simp] theorem clock_perstN (asserted clockA clockB m) : clockOf (perstN asserted clockA clockB m).aon = clockOf m.aon := by
  simp [perstN]

@[simp] theorem clock_bootGo (v m) : clockOf (bootGo v m).aon = clockOf m.aon := by
  simp [bootGo, clockOf_eta]

@[simp] theorem clock_verifyDone (m) : clockOf (verifyDone m).aon = clockOf m.aon := by
  unfold verifyDone
  split <;> simp [clockOf_eta]

@[simp] theorem clock_startDomains (m) : clockOf (startDomains m).aon = clockOf m.aon := by
  simp [startDomains]

@[simp] theorem clock_tirixRuns (m) : clockOf (tirixRuns m).aon = clockOf m.aon := by
  simp [tirixRuns, clockOf_eta]

@[simp] theorem clock_pwrgdMainAssert (m) : clockOf (pwrgdMainAssert m).aon = clockOf m.aon := by
  simp [pwrgdMainAssert]

@[simp] theorem clock_precharge (m) : clockOf (precharge m).aon = clockOf m.aon := by
  simp [precharge]

@[simp] theorem clock_stockTrainingDone (dev passed m) : clockOf (stockTrainingDone dev passed m).aon = clockOf m.aon := by
  simp [stockTrainingDone]

@[simp] theorem clock_narrowSetUp (east m) : clockOf (narrowSetUp east m).aon = clockOf m.aon := by
  simp [narrowSetUp]

@[simp] theorem clock_markEntries (m) : clockOf (markEntries m).aon = clockOf m.aon := by
  unfold markEntries
  split
  · rfl
  · split
    · rw [clock_lowerLimit, clock_touchTopo]
      rfl
    · rfl

@[simp] theorem clock_pwrgdMainDeassert (m) : clockOf (pwrgdMainDeassert m).aon = clockOf m.aon := by
  simp [pwrgdMainDeassert]

@[simp] theorem clock_mainUndervoltage (m) : clockOf (mainUndervoltage m).aon = clockOf m.aon := by
  simp [mainUndervoltage]

@[simp] theorem clock_flowLoss (m) : clockOf (flowLoss m).aon = clockOf m.aon := by
  simp [flowLoss]

@[simp] theorem clock_flowOkAssert (m) : clockOf (flowOkAssert m).aon = clockOf m.aon := by
  simp [flowOkAssert]

@[simp] theorem clock_holdIn (m) : clockOf (holdIn m).aon = clockOf m.aon := by
  simp [holdIn]

@[simp] theorem clock_holdInRelease (m) : clockOf (holdInRelease m).aon = clockOf m.aon := by
  simp [holdInRelease]

@[simp] theorem clock_referenceLost (m) : clockOf (referenceLost m).aon = clockOf m.aon := by
  simp [referenceLost]

@[simp] theorem clock_referenceRestored (m) : clockOf (referenceRestored m).aon = clockOf m.aon := by
  simp [referenceRestored]

@[simp] theorem clock_safeHoldEntry (cause m) : clockOf (safeHoldEntry cause m).aon = clockOf m.aon := by
  simp [safeHoldEntry]

/-! ### Digest records -/

@[simp] theorem clock_digestPut (bs : List Byte) (counted : Bool) (x : Mod × DigRing) :
    clockOf (digestPut bs counted x).1.aon = clockOf x.1.aon := clock_stockWrite ..

@[simp] theorem clock_ringRecord (f : Nat → W64 → List Byte) (body : List Byte) (m : Mod) (g : DigRing) :
    clockOf (ringRecord f body m g).1.aon = clockOf m.aon := by
  unfold ringRecord
  extract_lets n room x hdr
  have h : clockOf x.1.aon = clockOf m.aon := by
    unfold x
    rw [clock_ite_fst, clock_digestPut, ite_self]
  rw [← h]
  exact (clock_stockWrite ..).trans (clock_digestPut ..)

@[simp] theorem clock_writeRegionRec (r s p ring m) : clockOf (writeRegionRec r s p ring m).aon = clockOf m.aon := by
  unfold writeRegionRec
  extract_lets g m1 ds dig rows
  have h1 : clockOf m1.aon = clockOf m.aon := clock_foldl (fun m k => by rw [aon_onCore]) ..
  split
  next m2 ring2 h =>
  extract_lets m3 m4
  have h2 : clockOf m2.aon = clockOf m1.aon := by
    have := congrArg (fun x => clockOf x.1.aon) h
    exact this.symm.trans (clock_ringRecord ..)
  have h3 : clockOf m3.aon = clockOf m2.aon := clock_foldl (fun m k => by rw [aon_onCore]) ..
  rw [aon_setPlacement, aon_onRegion, h3, h2, h1]

@[simp] theorem clock_writeModuleRec (r l p ring m) : clockOf (writeModuleRec r l p ring m).aon = clockOf m.aon := by
  unfold writeModuleRec
  extract_lets rs dig flags rows stick st mask
  split
  next m2 ring2 h =>
  extract_lets m3
  have h2 : clockOf m2.aon = clockOf m.aon := by
    have := congrArg (fun x => clockOf x.1.aon) h
    exact this.symm.trans (clock_ringRecord ..)
  rw [aon_setPlacement, aon_onRegion, h2]

@[simp] theorem clock_digestRecordWrite (r m) : clockOf (digestRecordWrite r m).aon = clockOf m.aon := by
  simp only [digestRecordWrite]
  repeat' split
  all_goals simp

/-! ### Releases -/

@[simp] theorem clock_releasePlacement (g0 m) : clockOf (releasePlacement g0 m).aon = clockOf m.aon := by
  simp [releasePlacement]

@[simp] theorem clock_unloadImage (i m) : clockOf (unloadImage i m).aon = clockOf m.aon := by
  simp [unloadImage]

@[simp] theorem clock_freeStock (sess m) : clockOf (freeStock sess m).aon = clockOf m.aon := by
  simp [freeStock]

@[simp] theorem clock_closeSession (s m) : clockOf (closeSession s m).aon = clockOf m.aon := by
  simp [closeSession, clockOf_eta]

/-! ### Sessions and the owner -/

@[simp] theorem clock_openSessionRun (q m) : clockOf (openSessionRun q m).m.aon = clockOf m.aon := by
  simp [openSessionRun]

@[simp] theorem clock_closeSessionRun (q m) : clockOf (closeSessionRun q m).m.aon = clockOf m.aon := by
  unfold closeSessionRun
  split <;> simp

@[simp] theorem clock_installOwnerRun (q m) : clockOf (installOwnerRun q m).m.aon = clockOf m.aon := by
  simp [installOwnerRun, clockOf_eta]

@[simp] theorem clock_proveNonceRun (x m) : clockOf (proveNonceRun x m).m.aon = clockOf m.aon := by
  simp [proveNonceRun]

@[simp] theorem clock_bindOwner (m) : clockOf (bindOwner m).aon = clockOf m.aon := by
  simp [bindOwner, clockOf_eta]

@[simp] theorem clock_proveProofRun (q m) : clockOf (proveProofRun q m).m.aon = clockOf m.aon := by
  unfold proveProofRun
  split <;> simp

@[simp] theorem clock_pufHelperRun (q m) : clockOf (pufHelperRun q m).m.aon = clockOf m.aon := by
  unfold pufHelperRun
  split <;> simp

@[simp] theorem clock_pufDone (mb digest m) : clockOf (pufDone mb digest m).aon = clockOf m.aon := by
  unfold pufDone
  repeat' split
  all_goals simp [clockOf_eta]

@[simp] theorem clock_certRun (q m) : clockOf (certRun q m).m.aon = clockOf m.aon := by
  unfold certRun
  repeat' split
  all_goals simp

/-! ### Stock commands -/

@[simp] theorem clock_setUpPage (sess first host pageable writable narrow k p m) : clockOf (setUpPage sess first host pageable writable narrow k p m).aon = clockOf m.aon := by
  simp [setUpPage]

@[simp] theorem clock_stockAllocRun (q m) : clockOf (stockAllocRun q m).m.aon = clockOf m.aon := by
  simp only [stockAllocRun]
  split <;> simp

@[simp] theorem clock_stockFreeRun (q m) : clockOf (stockFreeRun q m).m.aon = clockOf m.aon := by
  simp [stockFreeRun]

@[simp] theorem clock_mapHostRun (q m) : clockOf (mapHostRun q m).m.aon = clockOf m.aon := by
  simp [mapHostRun]

@[simp] theorem clock_setPinned (sess first n on m) : clockOf (setPinned sess first n on m).aon = clockOf m.aon :=
  clock_foldl (fun _ _ => clock_setPte ..) ..

@[simp] theorem clock_pinRun (on q m) : clockOf (pinRun on q m).m.aon = clockOf m.aon := by
  simp [pinRun]

@[simp] theorem clock_pinDone (mb m) : clockOf (pinDone mb m).aon = clockOf m.aon := by
  unfold pinDone
  split <;> simp

@[simp] theorem clock_stockFillRun (q m) : clockOf (stockFillRun q m).m.aon = clockOf m.aon := by
  simp [stockFillRun]

@[simp] theorem clock_fillDone (mb m) : clockOf (fillDone mb m).aon = clockOf m.aon := by
  simp only [fillDone]
  repeat' split
  all_goals simp

@[simp] theorem clock_wheelSetRun (q m) : clockOf (wheelSetRun q m).m.aon = clockOf m.aon := by
  simp [wheelSetRun]

/-! ### Cycles and marks -/

@[simp] theorem clock_cycleCores (r held m) : clockOf (cycleCores r held m).aon = clockOf m.aon := by
  simp only [cycleCores]
  split <;> simp

@[simp] theorem clock_cycleCounts (r m) : clockOf (cycleCounts r m).aon = clockOf m.aon := by
  simp [cycleCounts]

@[simp] theorem clock_gaugeCycle (gauge r m) : clockOf (gaugeCycle gauge r m).aon = clockOf m.aon := by
  simp [gaugeCycle]

@[simp] theorem clock_cycleEdge (r gauge m) : clockOf (cycleEdge r gauge m).aon = clockOf m.aon := by
  simp [cycleEdge]

@[simp] theorem clock_shim (r gauge m) : clockOf (shim r gauge m).aon = clockOf m.aon := by
  simp [shim]

@[simp] theorem clock_completeChange (m) : clockOf (completeChange m).aon = clockOf m.aon := by
  simp [completeChange, clockOf_eta]

@[simp] theorem clock_setApplied (r m) : clockOf (setApplied r m).aon = clockOf m.aon := by
  simp [setApplied, clockOf_eta]

@[simp] theorem clock_changeAck (r m) : clockOf (changeAck r m).aon = clockOf m.aon := by
  simp [changeAck]

@[simp] theorem clock_modeApply (r m) : clockOf (modeApply r m).aon = clockOf m.aon := by
  simp only [modeApply]
  repeat' split
  all_goals simp

@[simp] theorem clock_changeMark (m) : clockOf (changeMark m).aon = clockOf m.aon := by
  simp [changeMark]

@[simp] theorem clock_regionEvents (r m) : clockOf (regionEvents r m).aon = clockOf m.aon := by
  simp [regionEvents]

@[simp] theorem clock_markEvents (m) : clockOf (markEvents m).aon = clockOf m.aon := by
  simp [markEvents]

@[simp] theorem clock_progressMark (r m) : clockOf (progressMark r m).aon = clockOf m.aon := by
  simp [progressMark]

@[simp] theorem clock_progressStall (r m) : clockOf (progressStall r m).aon = clockOf m.aon := by
  simp only [progressStall]
  split <;> simp

@[simp] theorem clock_regionMark (r m) : clockOf (regionMark r m).aon = clockOf m.aon := by
  simp [regionMark]

@[simp] theorem clock_signalEvents (m) : clockOf (signalEvents m).aon = clockOf m.aon := by
  simp [signalEvents]

@[simp] theorem clock_heartbeatLost (m) : clockOf (heartbeatLost m).aon = clockOf m.aon := by
  simp [heartbeatLost, clockOf_eta]

/-! ### Gang commands -/

@[simp] theorem clock_programLoadRun (q m) : clockOf (programLoadRun q m).m.aon = clockOf m.aon := by
  simp [programLoadRun]

@[simp] theorem clock_copyImage (f len ps m) : clockOf (copyImage f len ps m).aon = clockOf m.aon :=
  clock_foldl (fun _ _ => clock_setChunk ..) ..

@[simp] theorem clock_programLoadDone (mb m) : clockOf (programLoadDone mb m).aon = clockOf m.aon := by
  unfold programLoadDone
  split
  · rfl
  · next j _ =>
    split
    · next src len interlock stock _ =>
      extract_lets a m1 f
      have h1 : clockOf m1.aon = clockOf m.aon := by
        unfold m1
        rw [clock_ite, clock_foldl (fun _ _ => clock_makeResident ..), ite_self]
      split
      · rw [clock_completeJob, h1]
      · split
        · rw [clock_completeJob, h1]
        · rw [clock_completeJob, clock_copyImage]
          exact h1
    · rfl

@[simp] theorem clock_programUnloadRun (q m) : clockOf (programUnloadRun q m).m.aon = clockOf m.aon := by
  simp [programUnloadRun]

@[simp] theorem clock_writePlaces (sites m) : clockOf (writePlaces sites m).aon = clockOf m.aon :=
  clock_foldl (fun m x => by rw [aon_onCore]) ..

@[simp] theorem clock_gangPlaceRun (q m) : clockOf (gangPlaceRun q m).m.aon = clockOf m.aon := by
  simp only [gangPlaceRun]
  repeat' split
  all_goals simp

@[simp] theorem clock_gangReleaseRun (q m) : clockOf (gangReleaseRun q m).m.aon = clockOf m.aon := by
  unfold gangReleaseRun
  split <;> simp

@[simp] theorem clock_scrubRegion (r sess m) : clockOf (scrubRegion r sess m).aon = clockOf m.aon := by
  unfold scrubRegion
  extract_lets g
  split
  · exact clock_foldl (fun m s => by rw [aon_onCore]) ..
  · rfl

@[simp] theorem clock_widthCores (r sess half sites m) : clockOf (widthCores r sess half sites m).aon = clockOf m.aon := by
  unfold widthCores
  extract_lets g
  split
  · exact clock_foldl (fun m s => by rw [aon_onCore]) ..
  · rfl

@[simp] theorem clock_wakeFor (b m) : clockOf (wakeFor b m).aon = clockOf m.aon := by
  simp [wakeFor]

@[simp] theorem clock_startPart (p i base seed gstep layer m b) : clockOf (startPart p i base seed gstep layer m b).aon = clockOf m.aon := by
  unfold startPart
  extract_lets maskOpen rough m1 m2 m3 m4
  have h2 : clockOf m2.aon = clockOf m1.aon := clock_foldl (fun m x => by rw [aon_onCore]) ..
  have h3 : clockOf m3.aon = clockOf m2.aon := by rw [aon_onRegion]
  rw [aon_onGang, clock_beginInterval, h3, h2, clock_widthCores, clock_scrubRegion, clock_wakeFor]

@[simp] theorem clock_wakeRoutes (g0 m) : clockOf (wakeRoutes g0 m).aon = clockOf m.aon := by
  unfold wakeRoutes
  split <;> simp

@[simp] theorem clock_writeRingHeader (g m) : clockOf (writeRingHeader g m).aon = clockOf m.aon := by
  unfold writeRingHeader
  split <;> simp

@[simp] theorem clock_startPlacement (q p i steps ring m) : clockOf (startPlacement q p i steps ring m).m.aon = clockOf m.aon := by
  simp [startPlacement]

@[simp] theorem clock_gangStartRun (q m) : clockOf (gangStartRun q m).m.aon = clockOf m.aon := by
  simp only [gangStartRun]
  repeat' split
  all_goals simp

@[simp] theorem clock_gangStopRun (q m) : clockOf (gangStopRun q m).m.aon = clockOf m.aon := by
  unfold gangStopRun
  split <;> simp

@[simp] theorem clock_onParts (p f m) : clockOf (onParts p f m).aon = clockOf m.aon :=
  clock_foldl (fun m g => by rw [aon_onRegion]) ..

@[simp] theorem clock_gangPreemptRun (q m) : clockOf (gangPreemptRun q m).m.aon = clockOf m.aon := by
  unfold gangPreemptRun
  split <;> simp

@[simp] theorem clock_savePart (m x) : clockOf (savePart m x).aon = clockOf m.aon := by
  unfold savePart
  extract_lets g saved m1 m2
  have h1 : clockOf m1.aon = clockOf m.aon := clock_foldl (fun m s => by rw [aon_onCore]) ..
  rw [aon_onGang, aon_onRegion, h1]

@[simp] theorem clock_preemptSave (g0 m) : clockOf (preemptSave g0 m).aon = clockOf m.aon := by
  unfold preemptSave
  split <;> simp

@[simp] theorem clock_resumePart (p i base m b) : clockOf (resumePart p i base m b).aon = clockOf m.aon := by
  unfold resumePart
  extract_lets rough m1
  split
  · rfl
  · next sv _ =>
    extract_lets m2 m3
    have h2 : clockOf m2.aon = clockOf m1.aon := clock_foldl (fun m x => by rw [aon_onCore]) ..
    rw [aon_onGang, aon_onRegion, h2, clock_scrubRegion, clock_wakeFor]

@[simp] theorem clock_resumePlacement (q p i rs steps m) : clockOf (resumePlacement q p i rs steps m).m.aon = clockOf m.aon := by
  simp [resumePlacement]

@[simp] theorem clock_gangResumeRun (q m) : clockOf (gangResumeRun q m).m.aon = clockOf m.aon := by
  unfold gangResumeRun
  repeat' split
  all_goals simp

@[simp] theorem clock_gangResumeDone (mb m) : clockOf (gangResumeDone mb m).aon = clockOf m.aon := by
  unfold gangResumeDone
  repeat' split
  all_goals simp

@[simp] theorem clock_gangStatusRun (q m) : clockOf (gangStatusRun q m).m.aon = clockOf m.aon := by
  simp only [gangStatusRun]
  split <;> simp

/-! ### Modes and policy -/

@[simp] theorem clock_stepStageRun (q m) : clockOf (stepStageRun q m).m.aon = clockOf m.aon := by
  unfold stepStageRun
  split
  · rfl
  · extract_lets xs t log _ m1 m2
    split
    · rfl
    · have h2 : clockOf m2.aon = clockOf m1.aon := clock_foldl (fun m x => by rw [aon_onRegion]) ..
      exact (clock_logChange ..).trans ((clock_logChange ..).trans h2)

@[simp] theorem clock_logCommit (q m) : clockOf (logCommit q m).aon = clockOf m.aon := by
  simp [logCommit]

@[simp] theorem clock_commitRegion (change value m r) : clockOf (commitRegion change value m r).aon = clockOf m.aon := by
  simp [commitRegion]

@[simp] theorem clock_commitAll (mark change value m) : clockOf (commitAll mark change value m).aon = clockOf m.aon := by
  simp [commitAll, clockOf_eta]

@[simp] theorem clock_modeCommitRun (q m) : clockOf (modeCommitRun q m).m.aon = clockOf m.aon := by
  simp [modeCommitRun]

@[simp] theorem clock_modeWithdrawRun (q m) : clockOf (modeWithdrawRun q m).m.aon = clockOf m.aon := by
  simp [modeWithdrawRun]

@[simp] theorem clock_limitChange (cmd value m) : clockOf (limitChange cmd value m).aon = clockOf m.aon := by
  simp [limitChange]

@[simp] theorem clock_limitRun (cmd : Nat) (q : Req) (old raises new : Nat) {set : Nat → Nat → Mod → Mod} (m : Mod)
    (h : ∀ v n m, clockOf (set v n m).aon = clockOf m.aon) : clockOf (limitRun cmd q old raises new set m).m.aon = clockOf m.aon := by
  unfold limitRun
  split
  · exact (clock_limitChange ..).trans (clock_logChange ..)
  · refine (clock_limitChange ..).trans ((clock_logChange ..).trans ?_)
    rw [clock_ite, clock_lowerLimit, h, ite_self]

@[simp] theorem clock_envelopeSetRun (q m) : clockOf (envelopeSetRun q m).m.aon = clockOf m.aon :=
  clock_limitRun _ _ _ _ _ _ (fun _ _ _ => rfl)

@[simp] theorem clock_ceilingSetRun (q m) : clockOf (ceilingSetRun q m).m.aon = clockOf m.aon :=
  clock_limitRun _ _ _ _ _ _ (fun _ _ _ => rfl)

@[simp] theorem clock_eventAckRun (q m) : clockOf (eventAckRun q m).m.aon = clockOf m.aon := by
  simp [eventAckRun]

@[simp] theorem clock_logReadRun (q m) : clockOf (logReadRun q m).m.aon = clockOf m.aon := by
  simp [logReadRun]

@[simp] theorem clock_fenceCoreRun (q m) : clockOf (fenceCoreRun q m).m.aon = clockOf m.aon := by
  simp [fenceCoreRun]

@[simp] theorem clock_resumePort (m p) : clockOf (resumePort m p).aon = clockOf m.aon := by
  simp [resumePort]

@[simp] theorem clock_leaveHold (m) : clockOf (leaveHold m).aon = clockOf m.aon := by
  simp [leaveHold, clockOf_eta]

@[simp] theorem clock_safeHoldClearRun (q m) : clockOf (safeHoldClearRun q m).m.aon = clockOf m.aon := by
  simp [safeHoldClearRun]

@[simp] theorem clock_policyDone (q : Req) (old new : Nat) (m m' : Mod) : clockOf (policyDone q old new m m').m.aon = clockOf m'.aon :=
  clock_logChange ..

@[simp] theorem clock_eventPolicyRun (q m) : clockOf (eventPolicyRun q m).m.aon = clockOf m.aon := by
  simp [eventPolicyRun]

@[simp] theorem clock_progressMarksRun (q m) : clockOf (progressMarksRun q m).m.aon = clockOf m.aon := by
  unfold progressMarksRun
  split <;> simp

@[simp] theorem clock_endWaiting (m) : clockOf (endWaiting m).aon = clockOf m.aon :=
  clock_foldl (fun m r => by rw [aon_onRegion]) ..

@[simp] theorem clock_syncIoRun (q m) : clockOf (syncIoRun q m).m.aon = clockOf m.aon := by
  simp [syncIoRun, clockOf_eta]

@[simp] theorem clock_bar2WindowRun (q m) : clockOf (bar2WindowRun q m).m.aon = clockOf m.aon := by
  simp [bar2WindowRun]

/-! ### Module commands -/

@[simp] theorem clock_rejudge (m) : clockOf (rejudge m).aon = clockOf m.aon := by
  simp [rejudge]

@[simp] theorem clock_setPartitionRun (q m) : clockOf (setPartitionRun q m).m.aon = clockOf m.aon := by
  simp [setPartitionRun]

@[simp] theorem clock_challengeRun (q m) : clockOf (challengeRun q m).m.aon = clockOf m.aon := by
  simp [challengeRun]

@[simp] theorem clock_challengeDone (mb m) : clockOf (challengeDone mb m).aon = clockOf m.aon := by
  unfold challengeDone
  split <;> simp

@[simp] theorem clock_requireRun (q m) : clockOf (requireRun q m).m.aon = clockOf m.aon := by
  simp [requireRun]

@[simp] theorem clock_anchorRun (q m) : clockOf (anchorRun q m).m.aon = clockOf m.aon := by
  simp [anchorRun]

/-! ### Observation -/

@[simp] theorem clock_clampReadRun (q m) : clockOf (clampReadRun q m).m.aon = clockOf m.aon := by
  unfold clampReadRun
  repeat' split
  all_goals simp

@[simp] theorem clock_clampSetWordRun (q m) : clockOf (clampSetWordRun q m).m.aon = clockOf m.aon := by
  unfold clampSetWordRun
  split <;> simp

@[simp] theorem clock_clampSetRingRun (q m) : clockOf (clampSetRingRun q m).m.aon = clockOf m.aon := by
  unfold clampSetRingRun
  repeat' split
  all_goals simp

@[simp] theorem clock_countersRun (q m) : clockOf (countersRun q m).m.aon = clockOf m.aon := by
  unfold countersRun
  repeat' split
  all_goals simp

@[simp] theorem clock_traceConfigRun (q m) : clockOf (traceConfigRun q m).m.aon = clockOf m.aon := by
  simp [traceConfigRun]

@[simp] theorem clock_digestReadRun (q m) : clockOf (digestReadRun q m).m.aon = clockOf m.aon := by
  unfold digestReadRun
  split <;> simp

@[simp] theorem clock_peekPort (q d m s) : clockOf (peekPort q d m s).aon = clockOf m.aon := by
  simp [peekPort]

@[simp] theorem clock_corePeekRun (q m) : clockOf (corePeekRun q m).m.aon = clockOf m.aon := by
  unfold corePeekRun
  repeat' split
  all_goals simp

/-! ### SPDM -/

@[simp] theorem clock_attestRun (r x m) : clockOf (attestRun r x m).m.aon = clockOf m.aon := by
  simp [attestRun]

@[simp] theorem clock_spdmRequest (via r m) : clockOf (spdmRequest via r m).aon = clockOf m.aon := by
  unfold spdmRequest
  split
  · exact clock_mailboxCmd (c := attestCmd r) (clock_attestRun r) ..
  · split <;> rfl
  · split <;> rfl

/-! ### Register writes and BAR2 -/

@[simp] theorem keepsClock_helloCmd : KeepsClock helloCmd := fun _ _ => rfl

@[simp] theorem keepsClock_openSessionCmd : KeepsClock openSessionCmd := clock_openSessionRun

@[simp] theorem keepsClock_closeSessionCmd : KeepsClock closeSessionCmd := clock_closeSessionRun

@[simp] theorem keepsClock_installOwnerCmd : KeepsClock installOwnerCmd := clock_installOwnerRun

@[simp] theorem keepsClock_proveNonceCmd : KeepsClock proveNonceCmd := clock_proveNonceRun

@[simp] theorem keepsClock_proveProofCmd : KeepsClock proveProofCmd := clock_proveProofRun

@[simp] theorem keepsClock_pufHelperCmd : KeepsClock pufHelperCmd := clock_pufHelperRun

@[simp] theorem keepsClock_certCmd : KeepsClock certCmd := clock_certRun

@[simp] theorem keepsClock_stockAllocCmd : KeepsClock stockAllocCmd := clock_stockAllocRun

@[simp] theorem keepsClock_stockFreeCmd : KeepsClock stockFreeCmd := clock_stockFreeRun

@[simp] theorem keepsClock_stockMapHostCmd : KeepsClock stockMapHostCmd := clock_mapHostRun

@[simp] theorem keepsClock_pinCmd (on : Bool) : KeepsClock (pinCmd on) := clock_pinRun on

@[simp] theorem keepsClock_stockFillCmd : KeepsClock stockFillCmd := clock_stockFillRun

@[simp] theorem keepsClock_wheelSetCmd : KeepsClock wheelSetCmd := clock_wheelSetRun

@[simp] theorem keepsClock_programLoadCmd : KeepsClock programLoadCmd := clock_programLoadRun

@[simp] theorem keepsClock_programUnloadCmd : KeepsClock programUnloadCmd := clock_programUnloadRun

@[simp] theorem keepsClock_gangPlaceCmd : KeepsClock gangPlaceCmd := clock_gangPlaceRun

@[simp] theorem keepsClock_gangReleaseCmd : KeepsClock gangReleaseCmd := clock_gangReleaseRun

@[simp] theorem keepsClock_gangStartCmd : KeepsClock gangStartCmd := clock_gangStartRun

@[simp] theorem keepsClock_gangStopCmd : KeepsClock gangStopCmd := clock_gangStopRun

@[simp] theorem keepsClock_gangPreemptCmd : KeepsClock gangPreemptCmd := clock_gangPreemptRun

@[simp] theorem keepsClock_gangResumeCmd : KeepsClock gangResumeCmd := clock_gangResumeRun

@[simp] theorem keepsClock_gangStatusCmd : KeepsClock gangStatusCmd := clock_gangStatusRun

@[simp] theorem keepsClock_stepStageCmd : KeepsClock stepStageCmd := clock_stepStageRun

@[simp] theorem keepsClock_modeCommitCmd : KeepsClock modeCommitCmd := clock_modeCommitRun

@[simp] theorem keepsClock_modeWithdrawCmd : KeepsClock modeWithdrawCmd := clock_modeWithdrawRun

@[simp] theorem keepsClock_envelopeSetCmd : KeepsClock envelopeSetCmd := clock_envelopeSetRun

@[simp] theorem keepsClock_ceilingSetCmd : KeepsClock ceilingSetCmd := clock_ceilingSetRun

@[simp] theorem keepsClock_telemetryReadCmd : KeepsClock telemetryReadCmd := fun _ _ => rfl

@[simp] theorem keepsClock_eventAckCmd : KeepsClock eventAckCmd := clock_eventAckRun

@[simp] theorem keepsClock_logReadCmd : KeepsClock logReadCmd := clock_logReadRun

@[simp] theorem keepsClock_fenceCoreCmd : KeepsClock fenceCoreCmd := clock_fenceCoreRun

@[simp] theorem keepsClock_safeHoldClearCmd : KeepsClock safeHoldClearCmd := clock_safeHoldClearRun

@[simp] theorem keepsClock_eventPolicyCmd : KeepsClock eventPolicyCmd := clock_eventPolicyRun

@[simp] theorem keepsClock_progressMarksCmd : KeepsClock progressMarksCmd := clock_progressMarksRun

@[simp] theorem keepsClock_syncIoCmd : KeepsClock syncIoCmd := clock_syncIoRun

@[simp] theorem keepsClock_bar2WindowCmd : KeepsClock bar2WindowCmd := clock_bar2WindowRun

@[simp] theorem keepsClock_getDescriptorCmd : KeepsClock getDescriptorCmd := fun _ _ => rfl

@[simp] theorem keepsClock_getTopologyCmd : KeepsClock getTopologyCmd := fun _ _ => rfl

@[simp] theorem keepsClock_setPartitionCmd : KeepsClock setPartitionCmd := clock_setPartitionRun

@[simp] theorem keepsClock_linkDisableCmd : KeepsClock linkDisableCmd := fun _ _ => clock_foldl (fun _ _ => clock_movePort ..) ..

@[simp] theorem keepsClock_linkEnableCmd : KeepsClock linkEnableCmd :=
  fun _ _ => clock_foldl (fun m p => by rw [clock_ite, clock_movePort, ite_self]) ..

@[simp] theorem keepsClock_linkChallengeCmd : KeepsClock linkChallengeCmd := clock_challengeRun

@[simp] theorem keepsClock_requireVerifiedCmd : KeepsClock requireVerifiedCmd := clock_requireRun

@[simp] theorem keepsClock_trustAnchorCmd : KeepsClock trustAnchorCmd := clock_anchorRun

@[simp] theorem keepsClock_clampReadCmd : KeepsClock clampReadCmd := clock_clampReadRun

@[simp] theorem keepsClock_clampSetWordCmd : KeepsClock clampSetWordCmd := clock_clampSetWordRun

@[simp] theorem keepsClock_clampSetRingCmd : KeepsClock clampSetRingCmd := clock_clampSetRingRun

@[simp] theorem keepsClock_countersReadCmd : KeepsClock countersReadCmd := clock_countersRun

@[simp] theorem keepsClock_traceConfigCmd : KeepsClock traceConfigCmd := clock_traceConfigRun

@[simp] theorem keepsClock_digestReadCmd : KeepsClock digestReadCmd := clock_digestReadRun

@[simp] theorem keepsClock_corePeekCmd : KeepsClock corePeekCmd := clock_corePeekRun

@[simp] theorem keepsClock_attestCmd (r : SpdmReq) : KeepsClock (attestCmd r) := clock_attestRun r

theorem keepsClock_subCommand {code : Nat} {q : Req} {c : Cmd} (h : subCommand code q = some c) : KeepsClock c := by
  have chosen : ∀ {p : Prop} [Decidable p] {a b : Cmd}, KeepsClock a → KeepsClock b → KeepsClock (if p then a else b) := by
    intro p _ a b ha hb
    split
    · exact ha
    · exact hb
  unfold subCommand at h
  split at h <;> cases h
  · exact chosen keepsClock_proveProofCmd keepsClock_proveNonceCmd
  · split <;> simp
  · exact keepsClock_pinCmd _
  · exact chosen keepsClock_gangReleaseCmd keepsClock_gangPlaceCmd
  · exact chosen keepsClock_clampSetRingCmd keepsClock_clampSetWordCmd
  · exact chosen keepsClock_modeWithdrawCmd keepsClock_modeCommitCmd
  · split <;> simp

/-- Every command that a posted request names leaves the clock. -/
theorem keepsClock_commandFor {code : Nat} {q : Req} {c : Cmd} (h : commandFor code q = some c) : KeepsClock c := by
  have plain : ∀ c ∈ plainCommands, KeepsClock c := by simp [plainCommands]
  unfold commandFor at h
  split at h
  · cases h
    exact keepsClock_attestCmd _
  · split at h
    · next hs =>
      cases h
      exact keepsClock_subCommand hs
    · exact plain c (List.mem_of_find?_eq_some h)

@[simp] theorem clock_servePosted (mb m) : clockOf (servePosted mb m).aon = clockOf m.aon := by
  unfold servePosted
  extract_lets b n q
  split
  · rfl
  · split
    · exact clock_answerPosted ..
    · next c hc =>
      have hk := keepsClock_commandFor hc
      exact clock_serveCmd (by split <;> exact hk) ..

@[simp] theorem clock_enableMsix (on m) : clockOf (enableMsix on m).aon = clockOf m.aon := by
  simp [enableMsix]

@[simp] theorem clock_writeMailbox (mb o bytes m) : clockOf (writeMailbox mb o bytes m).aon = clockOf m.aon := by
  simp [writeMailbox]

@[simp] theorem clock_writeEvents (o bytes m) : clockOf (writeEvents o bytes m).aon = clockOf m.aon := by
  simp [writeEvents]

@[simp] theorem clock_writeBoot (o bytes m) : clockOf (writeBoot o bytes m).aon = clockOf m.aon := by
  simp [writeBoot]

@[simp] theorem clock_writeBar0 (off bytes m) : clockOf (writeBar0 off bytes m).aon = clockOf m.aon := by
  simp only [writeBar0]
  split <;> simp

@[simp] theorem clock_bar2Serve (off write bytes m) : clockOf (bar2Serve off write bytes m).aon = clockOf m.aon := by
  simp [bar2Serve]

@[simp] theorem clock_bar2Access (off write bytes m) : clockOf (bar2Access off write bytes m).aon = clockOf m.aon := by
  simp [bar2Access]

@[simp] theorem clock_bar2Complete (m) : clockOf (bar2Complete m).aon = clockOf m.aon := by
  unfold bar2Complete
  split <;> simp

/-! ### Updates -/

@[simp] theorem clock_updateRow (s err m) : clockOf (updateRow s err m).aon = clockOf m.aon := by
  simp [updateRow]

@[simp] theorem clock_updateCopyWrite (s m) : clockOf (updateCopyWrite s m).aon = clockOf m.aon := by
  simp [updateCopyWrite]

@[simp] theorem clock_updateReplicaSend (s m) : clockOf (updateReplicaSend s m).aon = clockOf m.aon := by
  simp [updateReplicaSend]

@[simp] theorem clock_updateAck (s m) : clockOf (updateAck s m).aon = clockOf m.aon := by
  simp [updateAck]

end Sys2Proof.Proofs
end

section
/-!
PROOFS. What each command does to the clock, the bounds of its interval and trim, and the stick that never decreases.
-/

namespace Sys2Proof.Proofs

open Sys2Proof Sys2Proof.Machine Sys2Proof.Laws

/-! ### Every command that does not move the clock -/

/-- The commands that move the clock: a reference cycle, a mark, the synchronisation input, and a power-on. -/
def timed : Instr → Bool
  | .referenceCycle _ | .mark | .syncIoEdge | .auxEntry _ | .auxPowerLoss => true
  | _ => false

theorem clock_runIf {ok : Bool} {f : Mod → Mod} {s t : State} (hf : ∀ m, clockOf (f m).aon = clockOf m.aon) (h : s.runIf ok f = .next t) :
    clockOf t.m.aon = clockOf s.m.aon := by
  unfold State.runIf at h
  split at h
  · cases h
    exact hf s.m
  · cases h

/-- A command without a frame of its own above is a small effect written at its instruction; the others leave the clock by their frames. -/
theorem clock_exec {i : Instr} {s t : State} (hi : timed i = false) (h : exec i s = .next t) : clockOf t.m.aon = clockOf s.m.aon := by
  cases i
  case referenceCycle | mark | syncIoEdge | auxEntry | auxPowerLoss => cases hi
  all_goals dsimp only [exec] at h
  case gangFirstRelease | launchRelease =>
    refine clock_runIf (fun m => ?_) h
    extract_lets g
    split
    · rw [clock_ite, aon_onRegion, ite_self]
    · rfl
  case accRowWritten =>
    refine clock_runIf (fun m => ?_) h
    split
    · rw [aon_onCore]
    · rfl
  case setEndpointId =>
    refine clock_runIf (fun m => ?_) h
    split <;> rfl
  all_goals exact clock_runIf (fun m => by simp) h

/-! ### The commands that move it -/

/-- The clock after a mark (R35 to R37): the stick with the trim and the jump, and the trim of the next mark. -/
def marked (m : Mod) : Clock :=
  let stick := m.aon.stickAt m.aon.refCycles (m.aon.trim + jumpOf m)
  let d := nextTrim m.thetas
  ⟨stick, m.aon.markNumber + 1, stick, 0, ((46080 : Int) + d).toNat, d⟩

theorem clock_doMark (m : Mod) : clockOf (doMark m).aon = marked m := by
  unfold doMark
  extract_lets old m1 _ m2 m3 m4 m5 m6 _ m7
  have h2 : clockOf m2.aon = marked m := by rfl
  have h3 : clockOf m3.aon = clockOf m2.aon := clock_touchTopo ..
  have h4 : clockOf m4.aon = clockOf m3.aon := clock_foldl (f := fun m r => progressMark r m) (fun m r => clock_progressMark r m) ..
  have h5 : clockOf m5.aon = clockOf m4.aon := clock_foldl (f := fun m r => regionMark r (emergencyMark r m))
    (fun m r => (clock_regionMark ..).trans (clock_emergencyMark ..)) ..
  have h6 : clockOf m6.aon = clockOf m5.aon := (clock_changeMark _).trans (clock_envelopeMark _)
  clear_value m6
  have h7 : clockOf m7.aon = clockOf m6.aon := rfl
  rw [clock_signalEvents, clock_markEntries, clock_markEvents, h7, h6, h5, h4, h3, h2]

theorem clock_mark (m : Mod) : clockOf (mark m).aon = clockOf m.aon ∨ clockOf (mark m).aon = marked m := by
  unfold mark
  split
  · exact Or.inl rfl
  · exact Or.inr (clock_doMark m)

/-- SYNC_IO_EDGE leaves the clock or takes the mark. -/
theorem clock_syncIoEdge (m : Mod) : clockOf (syncIoEdge m).aon = clockOf m.aon ∨ clockOf (syncIoEdge m).aon = marked m := by
  unfold syncIoEdge
  extract_lets a m1 acquire
  split
  · exact Or.inl rfl
  · split
    · exact Or.inl rfl
    · exact Or.inl rfl
    · exact Or.inl (clock_foldl (fun m r => by rw [aon_onRegion]) ..)
    · split
      · exact Or.inr (clock_doMark _)
      · split
        · exact Or.inl rfl
        · exact Or.inl rfl

/-- A reference cycle counts, and moves the stick to its value less what a mark that falls on it trims back (R33, R35). -/
theorem clock_referenceCycle (sync : Bool) (m : Mod) :
    clockOf (referenceCycle sync m).aon = clockOf m.aon ∨ m.aon.refCycles < 1024 ∧ ∃ d ≤ 0,
      clockOf (referenceCycle sync m).aon = { clockOf m.aon with stick := m.aon.stickAt (m.aon.refCycles + 1) d, refCycles := m.aon.refCycles + 1 } := by
  unfold referenceCycle
  split
  · exact Or.inl rfl
  · next h =>
    refine Or.inr ⟨by omega, if markFalls sync m then min 0 m.aon.trim else 0, by split <;> omega, ?_⟩
    exact clock_foldl (fun m r => by rw [clock_ite, aon_onRegion, ite_self]) ..

theorem clock_powerOff (m : Mod) : clockOf m.powerOff.aon = clockOf {} := rfl

theorem clock_auxEntry (external : Bool) (m : Mod) :
    clockOf (auxEntry external m).aon = clockOf m.aon ∨ clockOf (auxEntry external m).aon = clockOf {} := by
  unfold auxEntry
  extract_lets p n pins
  split
  · exact Or.inl rfl
  · exact Or.inr rfl

/-- What one step does to the clock. -/
inductive Moves (s : State) (c : Clock) : Prop
  | kept (h : c = clockOf s.m.aon)
  | cycle (d : Int) (hd : d ≤ 0) (hr : s.m.aon.refCycles < 1024)
      (h : c = { clockOf s.m.aon with stick := s.m.aon.stickAt (s.m.aon.refCycles + 1) d, refCycles := s.m.aon.refCycles + 1 })
  | mark (h : c = marked s.m)
  | begun (hi : s.pending.head? = some .auxPowerLoss ∨ ∃ x, s.pending.head? = some (.auxEntry x)) (h : c = clockOf {})

theorem step_moves {s t : State} (h : step s = .next t) : Moves s (clockOf t.m.aon) := by
  unfold step at h
  split at h
  · cases h
    exact .kept rfl
  · next i rest hp =>
    have hhead : s.pending.head? = some i := by rw [hp]; rfl
    by_cases hi : timed i = false
    · exact .kept (clock_exec (s := { s with pending := rest }) hi h)
    · cases i
      case auxEntry x =>
        cases h
        rcases clock_auxEntry x s.m with h | h
        · exact .kept h
        · exact .begun (.inr ⟨x, hhead⟩) h
      case auxPowerLoss =>
        cases h
        exact .begun (.inl hhead) (clock_powerOff _)
      case referenceCycle sync =>
        cases h
        rcases clock_referenceCycle sync s.m with h | ⟨hr, d, hd, h⟩
        · exact .kept h
        · exact .cycle d hd hr h
      case mark =>
        cases h
        rcases clock_mark s.m with h | h
        · exact .kept h
        · exact .mark h
      case syncIoEdge =>
        cases h
        rcases clock_syncIoEdge s.m with h | h
        · exact .kept h
        · exact .mark h
      all_goals exact absurd rfl hi

/-! ### The bounds and the stick -/

theorem abs_nextTrim_le (ts : List Int) : |nextTrim ts| ≤ 32 := by
  unfold nextTrim
  extract_lets us
  split
  · decide
  · rw [abs_le]
    omega

/-- The jump is half of some peer's offset at the most. -/
theorem jumpOf_lt {m : Mod} {n : Nat} (hn : 0 < n) (h : ∀ x ∈ m.thetas, x < n) : jumpOf m < n := by
  unfold jumpOf
  split
  · exact hn
  · refine List.foldlRecOn (motive := fun a => a < n) _ _ hn (fun a ha x hx => ?_)
    have := h x hx
    split <;> omega

/-- The stick never falls at a value that it can hold (R36). -/
theorem stick_le_stickAt (a : Aon) (cycles : Nat) (d : Int) (h : (a.stickAtMark.toNat + 45 * cycles : Int) + d < 2 ^ 64) :
    a.stick.toNat ≤ (a.stickAt cycles d).toNat := by
  have hs := a.stick.isLt
  rw [Aon.stickAt, BitVec.toNat_ofNat, Nat.mod_eq_of_lt (by omega)]
  exact le_max_left ..

/-- Settles O38: a step leaves the clock, counts a reference cycle, takes a mark or begins a power-on. -/
theorem intervalAndTrimStayBounded : Obligations.IntervalAndTrimStayBounded := by
  unfold Obligations.IntervalAndTrimStayBounded
  intro s t h hr ht
  change (clockOf t.m.aon).refCycles ≤ 1024 ∧ |(clockOf t.m.aon).trim| ≤ 32
  cases step_moves h with
  | kept h => exact h ▸ ⟨hr, ht⟩
  | cycle d hd hlt h => exact h ▸ ⟨hlt, ht⟩
  | mark h => exact h ▸ ⟨Nat.zero_le _, abs_nextTrim_le _⟩
  | begun _ h => exact h ▸ ⟨Nat.zero_le _, by decide⟩

/-- Settles O39: the stick is moved by `stickAt` only, but for a new power-on. -/
theorem stickNeverDecreases : Obligations.StickNeverDecreases := by
  unfold Obligations.StickNeverDecreases
  intro s t h hloss hentry hr _ hmark htrim hthetas
  change s.m.aon.stick.toNat ≤ (clockOf t.m.aon).stick.toNat
  cases step_moves h with
  | kept h => exact h ▸ le_rfl
  | cycle d hd hlt h => exact h ▸ stick_le_stickAt _ _ _ (by omega)
  | mark h =>
    have := jumpOf_lt (m := s.m) (n := 2 ^ 62) (by decide) (by exact_mod_cast hthetas)
    rw [abs_le] at htrim
    exact h ▸ stick_le_stickAt _ _ _ (by omega)
  | begun hb _ =>
    obtain hb | ⟨x, hb⟩ := hb
    · exact absurd hb hloss
    · exact absurd hb (hentry x)

end Sys2Proof.Proofs
end

section
/-!
PROOFS. What leaves a region's view of the stick, and what SAFE_HOLD takes from it.
-/

namespace Sys2Proof.Proofs

open Sys2Proof Sys2Proof.Machine Sys2Proof.Laws

/-! ### What a region's clock tells: its domain, its view and how far the view goes -/

/-- A region's domain and its view of the stick (R41, R43). -/
structure RegionView where
  dom : DomState
  view : Nat
  valid : Bool
  cap : Nat

def viewOf (g : Region) : RegionView := ⟨g.dom, g.view, g.viewValid, g.viewCap⟩

/-- The module's state and the view of one region. -/
def snap (r : Nat) (m : Mod) : ModState × RegionView := (m.aon.state, viewOf (m.region r))

section
variable (r : Nat)

theorem snap_onRegion (m : Mod) (k : Nat) {f : Region → Region} (h : ∀ g, viewOf (f g) = viewOf g := by exact fun _ => rfl) :
    snap r (m.onRegion k f) = snap r m := by
  rw [snap, snap, aon_onRegion, region_onRegion_ite]
  split
  · next e => rw [h, e]
  · rfl

theorem snap_setCore (m : Mod) (k : Nat) (c : Core) : snap r (m.setCore k c) = snap r m := rfl

theorem snap_onCore (m : Mod) (k : Nat) (f : Core → Core) : snap r (m.onCore k f) = snap r m := rfl

theorem snap_onGang (m : Mod) (id : Nat) (f : Gang → Gang) : snap r (m.onGang id f) = snap r m := rfl

theorem snap_foldl {α : Type} {f : Mod → α → Mod} (h : ∀ m a, snap r (f m a) = snap r m) (l : List α) (m : Mod) :
    snap r (l.foldl f m) = snap r m :=
  foldl_keeps (R := fun a b : Mod => snap r b = snap r a) (fun _ => rfl) (fun _ _ _ h h' => h'.trans h) h l m

theorem snap_sendMsix (v : Nat) (m : Mod) : snap r (sendMsix v m) = snap r m := by
  obtain ⟨h, e⟩ := sendMsix_host v m
  rw [e]
  rfl

theorem snap_recordEvent (x : EvRec) (m : Mod) : snap r (recordEvent x m) = snap r m := rfl

theorem snap_floodNotice (n : NoticeIn) (except : Option Nat) (m : Mod) : snap r (floodNotice n except m) = snap r m := by
  obtain ⟨p, e⟩ := floodNotice_ports n except m
  rw [e]
  rfl

theorem snap_completeJob (j : Job) (status : Nat) (body : List Byte) (m : Mod) : snap r (completeJob j status body m) = snap r m := by
  obtain ⟨_, _, _, e⟩ := completeJob_jobs j status body m
  rw [e]
  rfl

theorem snap_voidTicks (m : Mod) (k : Nat) : snap r (m.voidTicks k) = snap r m := by
  unfold Mod.voidTicks
  split
  · exact snap_onRegion ..
  · rfl

theorem snap_settleIssued (k : Nat) (m : Mod) : snap r (settleIssued k m) = snap r m := by
  unfold settleIssued
  exact (snap_onRegion ..).trans (snap_foldl r (fun _ _ => snap_setCore ..) ..)

theorem snap_takeBoundary (k pos : Nat) (final : Bool) (m : Mod) : snap r (takeBoundary k pos final m) = snap r m := by
  obtain ⟨⟨_, _, e⟩, hother, ⟨_, hsame⟩, -⟩ := takeBoundary_onlyDigests k pos final m
  refine Eq.trans (congrArg₂ Prod.mk (by rw [e]) ?_) (snap_onRegion r m k (f := boundaryAt pos final))
  rcases eq_or_ne r k with rfl | h
  · rw [hsame]
    rfl
  · rw [hother r h]

theorem snap_abandonWords (owned : W128 → Bool) (m : Mod) : snap r (abandonWords owned m) = snap r m :=
  snap_foldl r (fun _ _ => snap_foldl r (fun _ _ => snap_onCore ..) ..) ..

theorem snap_endSite (k site : Nat) (m : Mod) : snap r (endSite k site m).1 = snap r m := by
  unfold endSite
  exact (snap_foldl r (fun m _ => snap_onRegion r m k) ..).trans rfl

theorem snap_failPreempt (gang : Nat) (m : Mod) : snap r (failPreempt gang m) = snap r m := by
  unfold failPreempt
  split
  · rfl
  · split
    · rfl
    · refine (snap_completeJob ..).trans (snap_foldl r (fun m g => snap_onRegion r m _ fun x => ?_) ..)
      split <;> rfl

theorem snap_endSites (k : Nat) (sites : List Nat) (a : Mod × Nat) :
    snap r (sites.foldl (fun (a : Mod × Nat) s => let x := endSite k s a.1; (x.1, a.2 + x.2)) a).1 = snap r a.1 :=
  foldl_keeps (R := fun a b : Mod × Nat => snap r b.1 = snap r a.1) (f := fun a s => let x := endSite k s a.1; (x.1, a.2 + x.2))
    (fun _ => rfl) (fun _ _ _ h h' => h'.trans h) (fun a s => snap_endSite r k s a.1) sites a

theorem snap_endPart (k status : Nat) (m : Mod) : snap r (endPart k status m) = snap r m := by
  unfold endPart
  extract_lets g m1
  have h1 : snap r m1 = snap r m := by
    unfold m1
    split
    · exact snap_takeBoundary ..
    · rfl
  split
  · rfl
  · split
    next m2 n h =>
    extract_lets m3 m4 m5
    have h2 : snap r m2 = snap r m := by
      rw [← h1, ← snap_endSites r k g.site (m1, 0), h]
    have h5 : snap r m5 = snap r m := (snap_failPreempt ..).trans ((snap_onRegion ..).trans h2)
    split
    · exact h5
    · exact (snap_floodNotice ..).trans ((snap_abandonWords ..).trans h5)

theorem snap_stopPart (status k : Nat) (m : Mod) : snap r (stopPart status k m) = snap r m := by
  unfold stopPart
  split
  · exact (snap_endPart ..).trans (snap_settleIssued ..)
  · rfl

theorem snap_stopPlacement (status g0 : Nat) (m : Mod) : snap r (stopPlacement status g0 m) = snap r m := by
  unfold stopPlacement
  split
  · rfl
  · refine snap_foldl r (fun m g => ?_) ..
    split
    · exact snap_stopPart ..
    · rfl

theorem snap_losePartners (lost : List Nat) (m : Mod) : snap r (losePartners lost m) = snap r m := by
  unfold losePartners
  exact (snap_foldl r (fun _ _ => snap_abandonWords ..) ..).trans (snap_foldl r (fun _ _ => snap_stopPlacement ..) ..)

theorem snap_touchTopo (old m : Mod) : snap r (touchTopo old m) = snap r m := by
  unfold touchTopo
  extract_lets reach lost _ m1 _ m2
  have h : snap r m2 = snap r m := by
    unfold m2
    split <;> rfl
  split
  · exact h
  · exact (snap_losePartners ..).trans h

theorem snap_onEmerg (m : Mod) (k : Nat) (f : Emerg → Emerg) : snap r (m.onEmerg k f) = snap r m := rfl

theorem snap_state {m : Mod} (t : Mod) (h : snap r t = snap r m) : t.aon.state = m.aon.state := congrArg Prod.fst h

/-! ### SAFE_HOLD's entry -/

/-- The always-on domain and power's records are kept. -/
def KeepsAon (m t : Mod) : Prop := t.aon = m.aon ∧ t.power = m.power

theorem KeepsAon.refl (m : Mod) : KeepsAon m m := ⟨rfl, rfl⟩

theorem KeepsAon.trans (a b c : Mod) (h : KeepsAon a b) (h' : KeepsAon b c) : KeepsAon a c := ⟨h'.1.trans h.1, h'.2.trans h.2⟩

theorem keepsAon_foldl {α : Type} {f : Mod → α → Mod} (h : ∀ m a, KeepsAon m (f m a)) (l : List α) (m : Mod) : KeepsAon m (l.foldl f m) :=
  foldl_keeps KeepsAon.refl KeepsAon.trans h l m

theorem GangEndOnly.keepsAon {m t : Mod} (h : GangEndOnly m t) : KeepsAon m t := by
  obtain ⟨_, _, _, _, _, _, _, rfl⟩ := h
  exact ⟨rfl, rfl⟩

theorem keepsAon_endPart (k status : Nat) (m : Mod) : KeepsAon m (endPart k status m) := by
  by_cases h : (m.region k).run.running = true
  · exact (endPart_ends h).1.keepsAon
  · unfold endPart
    rw [if_pos (by simp [h])]
    exact .refl m

theorem keepsAon_finishChunk (m : Mod) (q : ChunkReq) : KeepsAon m (finishChunk m q) := by
  unfold finishChunk
  split
  · obtain ⟨⟨_, _, e⟩, -⟩ := storeChunk_stockOnly m q
    rw [e]
    exact ⟨rfl, rfl⟩
  · exact .refl m

theorem keepsAon_holdRegion (m : Mod) (k : Nat) : KeepsAon m (holdRegion m k) := by
  have hd : KeepsAon (endPart k 6 m) (doneSafeHold k (endPart k 6 m) m) := by
    unfold doneSafeHold
    split
    · exact ⟨rfl, rfl⟩
    · exact .refl _
  unfold holdRegion
  exact .trans _ _ _ (.trans _ _ _ (keepsAon_endPart k 6 m) hd) ⟨rfl, rfl⟩

theorem keepsAon_freeDeferred (m : Mod) : KeepsAon m m.freeDeferred := by
  obtain ⟨a, e⟩ := freeDeferred_alloc m
  rw [e]
  exact ⟨rfl, rfl⟩

theorem keepsAon_holdJob (m : Mod) (j : Job) : KeepsAon m (holdJob m j) := by
  unfold holdJob
  split
  · exact (keepsRuns_completeJob ..).1.keepsAon
  · exact (keepsRuns_completeJob ..).1.keepsAon

theorem keepsAon_holdPort (m : Mod) (p : Nat) : KeepsAon m (holdPort m p) := by
  unfold holdPort
  extract_lets x m1
  have h1 : KeepsAon m m1 := by
    unfold m1
    split
    · exact ⟨rfl, rfl⟩
    · exact .refl m
  split
  · exact h1
  · exact h1

theorem keepsAon_loseMain (m : Mod) : KeepsAon m (loseMain m) := by
  have h := keepsAon_foldl (f := fun m k => clearRegion k m)
    (fun m k => ⟨by rw [clearRegion, aon_onRegion], by rw [clearRegion, power_onRegion]⟩) allRegions m
  unfold loseMain
  extract_lets m1
  exact ⟨h.1, h.2⟩

/-- What the entry does to the always-on domain and to power's records. -/
theorem enterSafeHold_enters (cause : Nat) {m : Mod} (h : m.aon.state ≠ .off) (hs : m.aon.state ≠ .safeHold) :
    (enterSafeHold cause m).aon.state = .safeHold ∧ (enterSafeHold cause m).aon.safeCause = BitVec.ofNat 8 cause ∧
      (enterSafeHold cause m).power = m.power := by
  unfold enterSafeHold
  rw [if_neg h]
  extract_lets again _ m1 started m2 _ _ m3 m4 m5 m6 edge _ _ _ _ m7 m8
  rw [if_neg hs]
  have p1 : m1.power = m.power := rfl
  clear_value m1
  have p2 : m2.power = m1.power := (keepsAon_foldl keepsAon_finishChunk started m1).2
  clear_value m2
  have h3 : m3.aon.state = .safeHold ∧ m3.aon.safeCause = BitVec.ofNat 8 cause ∧ m3.power = m2.power := ⟨rfl, rfl, rfl⟩
  clear_value m3
  have h4 : KeepsAon m3 m4 := by
    unfold m4
    exact .trans _ _ _ (keepsAon_foldl keepsAon_holdRegion allRegions m3) (keepsAon_freeDeferred _)
  clear_value m4
  have h5 : KeepsAon m4 m5 := keepsAon_foldl keepsAon_holdJob ..
  clear_value m5
  have h6 : KeepsAon m5 m6 := by
    unfold m6
    exact keepsAon_foldl keepsAon_holdPort (List.range 24) m5
  clear_value m6
  have h7 : KeepsAon m6 m7 := ⟨rfl, rfl⟩
  clear_value m7
  have h8 : KeepsAon m7 m8 := by
    unfold m8
    split
    · exact keepsAon_loseMain m7
    · exact .refl m7
  have h38 : KeepsAon m3 m8 := h4.trans _ _ _ (h5.trans _ _ _ (h6.trans _ _ _ (h7.trans _ _ _ h8)))
  rw [recordEvent_events]
  exact ⟨(congrArg Aon.state h38.1).trans h3.1, (congrArg Aon.safeCause h38.1).trans h3.2.1, h38.2.trans (h3.2.2.trans (p2.trans p1))⟩

/-- An entry in SAFE_HOLD keeps it. -/
theorem enterSafeHold_again (cause : Nat) {m : Mod} (h : m.aon.state = .safeHold) :
    (enterSafeHold cause m).aon.state = .safeHold ∧ (enterSafeHold cause m).power = m.power := by
  unfold enterSafeHold
  rw [if_neg (by rw [h]; decide)]
  extract_lets again _ m1
  rw [if_pos h]
  split
  · obtain ⟨ha, hp⟩ := keepsAon_loseMain m1
    exact ⟨(congrArg Aon.state ha).trans h, hp⟩
  · exact ⟨h, rfl⟩

/-- A module that is on is in SAFE_HOLD after its entry. -/
theorem enterSafeHold_holds (cause : Nat) {m : Mod} (h : m.aon.state ≠ .off) : (enterSafeHold cause m).aon.state = .safeHold := by
  by_cases hs : m.aon.state = .safeHold
  · exact (enterSafeHold_again cause hs).1
  · exact (enterSafeHold_enters cause h hs).1

/-! ### What SAFE_HOLD may take from a view -/

/-- A module that is on stays on; SAFE_HOLD stays, and outside it the region's view is the same. -/
structure Steady (m t : Mod) : Prop where
  on (h : m.aon.state ≠ .off) : t.aon.state ≠ .off ∧ (t.aon.state = .safeHold ∨ m.aon.state ≠ .safeHold ∧ viewOf (t.region r) = viewOf (m.region r))

variable {r}

theorem Steady.refl (m : Mod) : Steady r m m := ⟨fun h => ⟨h, (em _).imp id (fun h => ⟨h, rfl⟩)⟩⟩

theorem Steady.trans (a b c : Mod) (h : Steady r a b) (h' : Steady r b c) : Steady r a c := by
  refine ⟨fun ha => ?_⟩
  obtain ⟨hb, hv⟩ := h.on ha
  obtain ⟨hc, hv'⟩ := h'.on hb
  refine ⟨hc, hv'.imp id (fun ⟨hb', hv'⟩ => ?_)⟩
  obtain ⟨ha', hv⟩ := hv.resolve_left hb'
  exact ⟨ha', hv'.trans hv⟩

theorem steady_of_snap {m t : Mod} (h : snap r t = snap r m) : Steady r m t := by
  refine ⟨fun hm => ?_⟩
  have hs := snap_state r t h
  refine ⟨hs ▸ hm, ?_⟩
  rcases em (t.aon.state = .safeHold) with ht | ht
  · exact .inl ht
  · exact .inr ⟨hs ▸ ht, congrArg Prod.snd h⟩

theorem steady_of_hold {m t : Mod} (h : m.aon.state ≠ .off → t.aon.state = .safeHold) : Steady r m t :=
  ⟨fun hm => ⟨by rw [h hm]; decide, .inl (h hm)⟩⟩

theorem steady_foldl {α : Type} {f : Mod → α → Mod} (h : ∀ m a, Steady r m (f m a)) (l : List α) (m : Mod) : Steady r m (l.foldl f m) :=
  foldl_keeps Steady.refl Steady.trans h l m

/-! ### The effects of a mark after the clock's -/

theorem steady_raiseEvent (code source count gang d0 d flags : Nat) (m : Mod) :
    Steady r m (raiseEvent code source count gang d0 d flags m) := by
  unfold raiseEvent
  extract_lets l held m1 g
  have h1 : Steady r m m1 := steady_of_snap (snap_recordEvent ..)
  split
  · exact .refl m
  · split
    · exact h1
    · split
      · split
        · exact h1.trans _ _ _ (steady_of_snap (snap_stopPlacement ..))
        · exact h1
      · exact h1.trans _ _ _ (steady_of_hold (enterSafeHold_holds 6))

theorem steady_completeChange (m : Mod) : Steady r m (completeChange m) := by
  unfold completeChange
  split
  · refine .trans _ _ _ ?_ (steady_raiseEvent ..)
    exact steady_of_snap rfl
  · exact .refl m

theorem steady_changeMark (m : Mod) : Steady r m (changeMark m) := by
  unfold changeMark
  extract_lets s _ _ m1 m2 late
  have h1 : snap r m1 = snap r m := by
    unfold m1
    split <;> rfl
  have h2 : snap r m2 = snap r m1 := snap_foldl r (fun m k => by dsimp only; split <;> rfl) ..
  split
  · exact .refl m
  · refine .trans _ _ _ (steady_of_snap ?_) (steady_completeChange _)
    split
    · exact (snap_foldl r (fun _ _ => snap_voidTicks ..) ..).trans (h2.trans h1)
    · exact h2.trans h1

theorem snap_envelopeMark (m : Mod) : snap r (envelopeMark m) = snap r m := by
  unfold envelopeMark
  split
  · rfl
  · refine (snap_foldl r (fun m x => ?_) ..).trans rfl
    split
    · exact snap_onEmerg ..
    · rfl

theorem snap_progressMark (k : Nat) (m : Mod) : snap r (progressMark k m) = snap r m := snap_onRegion ..

theorem snap_emergencyMark (k : Nat) (m : Mod) : snap r (emergencyMark k m) = snap r m := by
  unfold emergencyMark
  extract_lets n again e m1 m2 m3 e' present j free
  have h1 : snap r m1 = snap r m := by
    unfold m1
    split <;> rfl
  have h2 : snap r m2 = snap r m1 := by
    unfold m2
    split <;> rfl
  have h3 : snap r m3 = snap r m2 := by
    unfold m3
    split <;> rfl
  split
  · exact h3.trans (h2.trans h1)
  · exact (snap_onEmerg ..).trans (h3.trans (h2.trans h1))

theorem steady_markEvents (m : Mod) : Steady r m (markEvents m) := by
  have regions : ∀ (m : Mod) (k : Nat), Steady r m (regionEvents k m) := fun m k =>
    .trans _ _ _ (steady_of_snap (snap_onRegion ..)) (steady_foldl (fun _ _ => steady_raiseEvent ..) ..)
  unfold markEvents
  extract_lets m1 n
  have h1 : Steady r m m1 := steady_foldl regions ..
  clear_value m1
  split
  · exact h1
  · refine h1.trans _ _ _ (.trans _ _ _ ?_ (steady_raiseEvent ..))
    exact steady_of_snap rfl

theorem steady_markEntries (m : Mod) : Steady r m (markEntries m) := by
  unfold markEntries
  split
  · next h => exact ⟨fun _ => ⟨by simp, .inr ⟨by rw [h.1]; decide, rfl⟩⟩⟩
  · split
    · next h =>
      have e : ∀ x : Mod, snap r (lowerLimit x) = snap r x := fun _ => rfl
      refine ⟨fun _ => ?_⟩
      have e := (e _).trans (snap_touchTopo r m { m with aon := { m.aon with state := .full } })
      have hfull : (lowerLimit (touchTopo m { m with aon := { m.aon with state := .full } })).aon.state = .full := snap_state r _ e
      refine ⟨by rw [hfull]; decide, .inr ⟨by rw [h.1]; decide, congrArg Prod.snd e⟩⟩
    · exact .refl m

theorem snap_signalEvents (m : Mod) : snap r (signalEvents m) = snap r m := by
  unfold signalEvents
  split
  · exact snap_sendMsix ..
  · rfl

end

end Sys2Proof.Proofs
end

section
/-!
PROOFS. Reference cycles, marks and the synchronisation input.
-/

namespace Sys2Proof.Proofs

open Sys2Proof Sys2Proof.Machine Sys2Proof.Laws

/-! ### A mark in the regions -/

/-- A view at a mark: a clocked region's is at least the stick and goes to the span's end (R41, R43). -/
def markedView (c : Clock) (v : RegionView) : RegionView :=
  if v.dom = .awake then ⟨v.dom, max v.view (c.stick.toNat * 65536), true, (c.stick.toNat + c.span - 1) * 65536⟩ else v

theorem viewOf_regionMark (r : Nat) (m : Mod) : viewOf ((regionMark r m).region r) = markedView (clockOf m.aon) (viewOf (m.region r)) := by
  rw [regionMark, region_onRegion, markedView]
  by_cases h : (m.region r).dom = .awake
  · exact (congrArg viewOf (if_pos (by simp [Region.clocked, h]))).trans (if_pos h).symm
  · exact (congrArg viewOf (if_neg (by simp [Region.clocked, h]))).trans (if_neg h).symm

theorem snap_regionMark_other {r k : Nat} (h : r ≠ k) (m : Mod) : snap r (regionMark k m) = snap r m := by
  rw [snap, snap, regionMark, aon_onRegion, region_onRegion_other _ _ _ _ h]

/-- One region's part of a mark, after the monitor of its emergency step. -/
def regionStep (m : Mod) (k : Nat) : Mod := regionMark k (emergencyMark k m)

theorem clock_regionStep (m : Mod) (k : Nat) : clockOf (regionStep m k).aon = clockOf m.aon :=
  (clock_regionMark ..).trans (clock_emergencyMark ..)

theorem snap_regionStep_other {r k : Nat} (h : r ≠ k) (m : Mod) : snap r (regionStep m k) = snap r m :=
  (snap_regionMark_other h _).trans (snap_emergencyMark ..)

theorem snap_regionStep_same (r : Nat) (m : Mod) :
    snap r (regionStep m r) = (m.aon.state, markedView (clockOf m.aon) (viewOf (m.region r))) := by
  have he := snap_emergencyMark (r := r) r m
  simp only [snap, Prod.mk.injEq] at he
  rw [snap, regionStep, viewOf_regionMark, clock_emergencyMark, regionMark, aon_onRegion, he.1, he.2]

/-- Over distinct regions, one that is among them takes its mark once. -/
theorem snap_regionSteps {r : Nat} {l : List Nat} (hl : l.Nodup) (m : Mod) : snap r (l.foldl regionStep m) =
    (m.aon.state, if r ∈ l then markedView (clockOf m.aon) (viewOf (m.region r)) else viewOf (m.region r)) := by
  induction l generalizing m with
  | nil => rfl
  | cons k l ih =>
    obtain ⟨hk, hl⟩ := List.nodup_cons.1 hl
    rw [List.foldl_cons, ih hl, clock_regionStep]
    by_cases h : r = k
    · subst h
      have hs := snap_regionStep_same r m
      rw [if_neg hk, if_pos List.mem_cons_self]
      exact hs
    · have hs := snap_regionStep_other h m
      simp only [snap, Prod.mk.injEq] at hs
      rw [hs.1, hs.2]
      simp [h]

/-- What a mark does: the clock's, and the view of each clocked region unless it ends in SAFE_HOLD. -/
def MarkOf (m t : Mod) : Prop :=
  clockOf t.aon = marked m ∧ (t.aon.state ≠ .safeHold → ∀ r < 25, viewOf (t.region r) = markedView (marked m) (viewOf (m.region r)))

theorem doMark_marks {m : Mod} (h : m.aon.state ≠ .off) : MarkOf m (doMark m) := by
  refine ⟨clock_doMark m, fun ht r hr => ?_⟩
  revert ht
  unfold doMark
  extract_lets old m1 _ m2 m3 m4 m5 m6 _ m7
  have c2 : clockOf m2.aon = marked m := rfl
  have s2 : snap r m2 = snap r m := rfl
  clear_value m2
  have c3 : clockOf m3.aon = clockOf m2.aon := clock_touchTopo ..
  have s3 : snap r m3 = snap r m2 := snap_touchTopo ..
  have c4 : clockOf m4.aon = clockOf m3.aon := clock_foldl (f := fun m r => progressMark r m) (fun m r => clock_progressMark r m) ..
  have s4 : snap r m4 = snap r m3 := snap_foldl r (f := fun m r => progressMark r m) (fun m k => snap_progressMark k m) ..
  clear_value m4
  have s5 : snap r m5 = (m4.aon.state, if r ∈ allRegions then markedView (clockOf m4.aon) (viewOf (m4.region r)) else viewOf (m4.region r)) :=
    snap_regionSteps List.nodup_range m4
  clear_value m5
  have s6 : Steady r m5 m6 := .trans _ _ _ (steady_of_snap (snap_envelopeMark m5)) (steady_changeMark _)
  clear_value m6
  have s7 : Steady r m5 m7 := s6.trans _ _ _ (steady_of_snap rfl)
  have s8 : Steady r m5 (signalEvents (markEntries (markEvents m7))) :=
    s7.trans _ _ _ ((steady_markEvents m7).trans _ _ _ ((steady_markEntries _).trans _ _ _ (steady_of_snap (snap_signalEvents _))))
  intro ht
  have s4 := s4.trans (s3.trans s2)
  simp only [snap, Prod.mk.injEq] at s4 s5
  have h5 : m5.aon.state ≠ .off := by rw [s5.1, s4.1]; exact h
  obtain ⟨-, hv⟩ := (s8.on h5).2.resolve_left ht
  rw [hv, s5.2, if_pos (show r ∈ allRegions from List.mem_range.2 hr), s4.2, c4, c3, c2]

/-! ### The stick, the trim and the jump of a mark (R35 to R37) -/

theorem stickAt_of_le {a : Aon} {cycles : Nat} {d : Int} (h : (a.stick.toNat : Int) ≤ a.stickAtMark.toNat + 45 * cycles + d)
    (h' : (a.stickAtMark.toNat + 45 * cycles : Int) + d < 2 ^ 64) :
    ((a.stickAt cycles d).toNat : Int) = a.stickAtMark.toNat + 45 * cycles + d := by
  rw [Aon.stickAt, BitVec.toNat_ofNat, Nat.mod_eq_of_lt (by omega)]
  omega

theorem stickAt_cycle {a : Aon} (h : a.stick.toNat = a.stickAtMark.toNat + 45 * a.refCycles) (hlt : a.stick.toNat + 45 < 2 ^ 64) :
    a.stickAt (a.refCycles + 1) 0 = a.stick + 45 := by
  refine BitVec.eq_of_toNat_eq ?_
  have := stickAt_of_le (a := a) (cycles := a.refCycles + 1) (d := 0) (by push_cast; omega) (by push_cast; omega)
  rw [BitVec.toNat_add, show (45 : W64).toNat = 45 from rfl, Nat.mod_eq_of_lt hlt]
  push_cast at this
  omega

/-- A running greatest, from `a` on, of half the offsets that call for a jump. -/
theorem foldl_jump (l : List Int) (a : Nat) :
    let j := l.foldl (fun a t => if 92160 < t then max a (t / 2).toNat else a) a
    a ≤ j ∧ (∀ x ∈ l, 92160 < x → x / 2 ≤ j) ∧ (j = a ∨ ∃ x ∈ l, 92160 < x ∧ (j : Int) = x / 2) := by
  induction l generalizing a with
  | nil => exact ⟨le_rfl, fun x hx => absurd hx List.not_mem_nil, .inl rfl⟩
  | cons t l ih =>
    rw [List.foldl_cons]
    obtain ⟨h1, h2, h3⟩ := ih (if 92160 < t then max a (t / 2).toNat else a)
    refine ⟨le_trans (by split <;> omega) h1, fun x hx hlt => ?_, ?_⟩
    · rcases List.mem_cons.1 hx with rfl | hx
      · simp only [if_pos hlt] at h1 ⊢
        omega
      · exact h2 x hx hlt
    · rcases h3 with h3 | ⟨x, hx, h⟩
      · rw [h3]
        by_cases hlt : 92160 < t
        · rw [if_pos hlt]
          rcases le_total a (t / 2).toNat with h | h
          · exact .inr ⟨t, List.mem_cons_self, hlt, by omega⟩
          · exact .inl (max_eq_left h)
        · rw [if_neg hlt]
          exact .inl rfl
      · exact .inr ⟨x, List.mem_cons_of_mem _ hx, h⟩

/-- The nearest whole quotient, and the even one of two as near. -/
theorem rneDiv_nearest (p : Int) {n : Nat} (hn : 0 < n) :
    |p - 2 * n * rneDiv p (2 * n)| ≤ n ∧ (|p - 2 * n * rneDiv p (2 * n)| = n → rneDiv p (2 * n) % 2 = 0) := by
  have hq : (0 : Int) < 2 * n := by omega
  have h1 := Int.emod_nonneg p hq.ne'
  have h2 := Int.emod_lt_of_pos p hq
  have h3 := Int.mul_ediv_add_emod p (2 * n)
  unfold rneDiv
  extract_lets f d
  have hf : p - 2 * n * f = p % (2 * n) := by
    rw [show f = p / (2 * n) from congrArg (p / ·) (by push_cast; rfl)]
    linarith
  have hd : d = 2 * (p % (2 * n)) := by
    rw [← hf]
    show 2 * (p - f * _) = _
    push_cast
    ring
  have hf' : p - 2 * n * (f + 1) = p % (2 * n) - 2 * n := by linarith
  rw [hd]
  clear_value f d
  push_cast
  split_ifs with c1 c2 c3
  · rw [hf, abs_of_nonneg h1]
    omega
  · rw [hf', abs_of_nonpos (by omega)]
    omega
  · rw [hf, abs_of_nonneg h1]
    omega
  · rw [hf', abs_of_nonpos (by omega)]
    omega

theorem mark_marks {m : Mod} (h : m.aon.state ≠ .off) (hr : 1024 ≤ m.aon.refCycles) : MarkOf m (mark m) := by
  unfold mark
  rw [if_neg (by simp [h]; omega)]
  exact doMark_marks h

/-- A mark looks at the clock, the ports and the regions only. -/
theorem MarkOf.of_same {m n t : Mod} (h : MarkOf n t) (hc : clockOf n.aon = clockOf m.aon) (hp : n.ports = m.ports) (hr : n.regions = m.regions) :
    MarkOf m t := by
  have ht : n.thetas = m.thetas := by
    unfold Mod.thetas Mod.port
    rw [hp]
  have hrun : n.anyRunning = m.anyRunning := by simp only [Mod.anyRunning, Mod.region, hr]
  have hm : marked n = marked m := by
    simp only [clockOf, Clock.mk.injEq] at hc
    obtain ⟨h1, h2, h3, h4, -, h6⟩ := hc
    simp only [marked, jumpOf, Aon.stickAt, ht, hrun, h1, h2, h3, h4, h6]
  obtain ⟨hc, hv⟩ := h
  rw [hm] at hc hv
  simp only [Mod.region, hr] at hv
  exact ⟨hc, hv⟩

section
variable {m : Mod}

/-- The stick at a mark before its jump (R33, R35). -/
def trimmedStick (m : Mod) : Int := m.aon.stickAtMark.toNat + 45 * m.aon.refCycles + m.aon.trim

theorem marked_stick (hle : (m.aon.stick.toNat : Int) ≤ trimmedStick m) (hlt : trimmedStick m + jumpOf m < 2 ^ 64) :
    ((marked m).stick.toNat : Int) = trimmedStick m + jumpOf m := by
  unfold trimmedStick at *
  exact (stickAt_of_le (by omega) (by omega)).trans (by ring)

/-- With no gang running the jump is half of the greatest offset above 46,080 ticks (R36). -/
theorem jumpOf_greatest (h : m.anyRunning = false) : (∀ x ∈ m.thetas, 92160 < x → x / 2 ≤ jumpOf m) ∧
    (jumpOf m = 0 ∨ ∃ x ∈ m.thetas, 92160 < x ∧ (jumpOf m : Int) = x / 2) := by
  rw [jumpOf, if_neg (by rw [h]; decide)]
  exact (foldl_jump m.thetas 0).2

theorem marked_span (m : Mod) : ((marked m).span : Int) = 46080 + (marked m).trim := by
  have := abs_le.1 (abs_nextTrim_le m.thetas)
  show (((46080 : Int) + nextTrim m.thetas).toNat : Int) = 46080 + nextTrim m.thetas
  omega

/-- The offsets a trim is taken from (R35). -/
def nearOffsets (ts : List Int) : List Int := ts.filter (fun t => decide (-92160 ≤ t) && decide (t ≤ 92160))

theorem nextTrim_none {ts : List Int} (h : nearOffsets ts = []) : nextTrim ts = 0 := by
  show (if (nearOffsets ts).isEmpty then 0 else _) = (0 : Int)
  rw [h]
  rfl

theorem nextTrim_nearest {ts : List Int} (h : nearOffsets ts ≠ []) :
    ∃ k : Int, nextTrim ts = max (-32) (min 32 k) ∧ |(nearOffsets ts).sum - 2 * (nearOffsets ts).length * k| ≤ (nearOffsets ts).length ∧
      (|(nearOffsets ts).sum - 2 * (nearOffsets ts).length * k| = (nearOffsets ts).length → k % 2 = 0) := by
  refine ⟨rneDiv (nearOffsets ts).sum (2 * (nearOffsets ts).length), ?_, rneDiv_nearest _ (List.length_pos_iff.2 h)⟩
  show (if (nearOffsets ts).isEmpty then 0 else max (-32) (min 32 (rneDiv ((nearOffsets ts).foldl (· + ·) 0) _))) = _
  rw [if_neg (by simpa using h), List.sum_eq_foldl]
  rfl

end

theorem markedView_awake {c : Clock} {g g' : Region} (h : viewOf g' = markedView c (viewOf g)) (hg : g.dom = .awake) :
    g'.view = max g.view (c.stick.toNat * 65536) ∧ g'.viewValid = true ∧ g'.viewCap = (c.stick.toNat + c.span - 1) * 65536 := by
  replace h := h.trans (if_pos hg)
  exact ⟨congrArg RegionView.view h, congrArg RegionView.valid h, congrArg RegionView.cap h⟩

/-! ### Region by region -/

/-- Over distinct regions, a fold that changes each of its own region only changes each once. -/
theorem foldl_each {F : Nat → Region → Region} {f : Mod → Nat → Mod}
    (h : ∀ m r k, (f m r).region k = if k = r then F r (m.region k) else m.region k) {l : List Nat} (hl : l.Nodup) (m : Mod) (k : Nat) :
    (l.foldl f m).region k = if k ∈ l then F k (m.region k) else m.region k := by
  induction l generalizing m with
  | nil => rfl
  | cons r l ih =>
    obtain ⟨hr, hl⟩ := List.nodup_cons.1 hl
    rw [List.foldl_cons, ih hl, h]
    by_cases e : k = r
    · subst e
      simp [hr]
    · simp [e]

/-- A fold of changes of regions changes nothing else. -/
theorem foldl_regionsOnly {α : Type} {f : Mod → α → Mod} (h : ∀ m a, ∃ rs, f m a = { m with regions := rs }) (l : List α) (m : Mod) :
    ∃ rs, l.foldl f m = { m with regions := rs } :=
  foldl_keeps (R := fun a b : Mod => ∃ rs, b = { a with regions := rs }) (fun a => ⟨a.regions, rfl⟩)
    (fun _ _ _ ⟨_, h⟩ ⟨_, h'⟩ => by subst h; exact ⟨_, h'⟩) h l m

/-- A region's part of a reference cycle: with its clock stopped for a step change, its view goes on by 45 ticks (R33). -/
def stoppedCycle (g : Region) : Region := if g.switching = 0 then g else { g.advance (45 * 65536) with switching := g.switching - 1 }

theorem stoppedCycle_eq (g : Region) : stoppedCycle g = { g with
    view := if g.switching = 0 ∨ g.viewValid = false then g.view else max g.view (min (g.view + 45 * 65536) g.viewCap)
    switching := g.switching - 1, time := (stoppedCycle g).time } := by
  unfold stoppedCycle
  by_cases h : g.switching = 0
  · simp only [h, if_true, true_or]
    cases g
    subst h
    rfl
  · simp only [h, if_false, false_or]
    cases hv : g.viewValid
    · simp [Region.advance, hv]
    · simp [Region.advance, hv, Region.setView]

theorem referenceCycle_region (sync : Bool) {m : Mod} (h : m.aon.state ≠ .off) (hr : m.aon.refCycles < 1024) (r : Nat) (h25 : r < 25) :
    (referenceCycle sync m).region r = stoppedCycle (m.region r) := by
  unfold referenceCycle
  rw [if_neg (by simp [h]; omega)]
  dsimp only
  refine (foldl_each (F := fun _ => stoppedCycle) (fun m r k => ?_) List.nodup_range _ r).trans (if_pos (List.mem_range.2 h25))
  unfold stoppedCycle
  split
  · next e => split <;> simp_all
  · next e => rw [region_onRegion_ite]; split <;> simp_all

theorem referenceCycle_leaves (sync : Bool) {m : Mod} (h : m.aon.state ≠ .off) (hr : m.aon.refCycles < 1024) :
    ∃ rs, referenceCycle sync m = { m with regions := rs, aon := { m.aon with
      stick := m.aon.stickAt (m.aon.refCycles + 1) (if markFalls sync m then min 0 m.aon.trim else 0), refCycles := m.aon.refCycles + 1
      pins := { m.aon.pins with syncHigh := sync, syncEdge := sync && !m.aon.pins.syncHigh, syncOut := false } } } := by
  unfold referenceCycle
  rw [if_neg (by simp [h]; omega)]
  refine foldl_regionsOnly (fun m r => ?_) ..
  split
  · exact ⟨m.regions, rfl⟩
  · exact ⟨_, rfl⟩

/-! ### The synchronisation input (R39, R40, R420) -/

/-- A trace that waits for the input is started. -/
def traceStarted (g : Region) : Region := if g.trace.trigger = 1 then { g with trace := { g.trace with armed := false } } else g

section
variable {m : Mod} (hon : m.aon.state ≠ .off) (hedge : m.aon.pins.syncEdge = true)
include hon hedge

/-- The sampled edge is cleared, and what follows is of the input's mode. -/
theorem syncIoEdge_mode : syncIoEdge m =
    let n := m.onPins (fun p => { p with syncEdge := false })
    match m.aon.syncIo with
    | .off => n
    | .markOut => n
    | .trigger => n.forRegions (fun m r => m.onRegion r traceStarted)
    | .markIn =>
      let acquire : Bool := m.aon.acquiring && !n.anyRunning
      if acquire && decide (16 ≤ m.aon.refCycles) || m.aon.refCycles == 1024 then
        doMark { n with aon := { n.aon with edgeTaken := true, acquiring := m.aon.acquiring && !acquire } }
      else if acquire then n
      else { n with aon := { n.aon with markInMiss := n.aon.markInMiss + 1, edgeIgnored := true } } := by
  unfold syncIoEdge
  rw [if_neg (by simp [hon, hedge])]
  rfl

theorem syncIoEdge_trigger (h : m.aon.syncIo = .trigger) : (∃ rs, syncIoEdge m = { m.onPins (fun p => { p with syncEdge := false }) with regions := rs }) ∧
    ∀ r < 25, (syncIoEdge m).region r = traceStarted (m.region r) := by
  rw [syncIoEdge_mode hon hedge, h]
  refine ⟨foldl_regionsOnly (fun m r => ⟨_, rfl⟩) .., fun r hr => ?_⟩
  exact (foldl_each (F := fun _ => traceStarted) (fun m r k => by rw [region_onRegion_ite]; split <;> simp_all) List.nodup_range _ r).trans
    (if_pos (List.mem_range.2 hr))

theorem syncIoEdge_takes (h : m.aon.syncIo = .markIn)
    (ht : m.aon.refCycles = 1024 ∨ (m.aon.acquiring = true ∧ m.anyRunning = false ∧ 16 ≤ m.aon.refCycles)) : MarkOf m (syncIoEdge m) := by
  rw [syncIoEdge_mode hon hedge, h]
  have hrun : (m.onPins (fun p => { p with syncEdge := false })).anyRunning = m.anyRunning := rfl
  dsimp only
  rw [hrun, if_pos (by
    rcases ht with ht | ⟨h1, h2, h3⟩
    · simp [ht]
    · simp [h1, h2, h3])]
  refine MarkOf.of_same (doMark_marks ?_) ?_ ?_ ?_
  · exact hon
  · rfl
  · rfl
  · rfl

theorem syncIoEdge_ignores (h : m.aon.syncIo = .markIn) (hr : m.aon.refCycles ≠ 1024) (ha : m.aon.acquiring = false ∨ m.anyRunning = true) :
    let n := m.onPins (fun p => { p with syncEdge := false })
    syncIoEdge m = { n with aon := { n.aon with markInMiss := m.aon.markInMiss + 1, edgeIgnored := true } } := by
  rw [syncIoEdge_mode hon hedge, h]
  have hrun : (m.onPins (fun p => { p with syncEdge := false })).anyRunning = m.anyRunning := rfl
  have hacq : (m.aon.acquiring && !m.anyRunning) = false := by
    rcases ha with h | h <;> simp [h]
  dsimp only
  rw [hrun, hacq, if_neg (by simpa using hr), if_neg (by decide)]
  rfl

end

/-- Settles O36: the clock's frames give the stick and the trim, `MarkOf` each clocked region's view at a mark. -/
theorem stickAndMarks : Obligations.StickAndMarks := by
  unfold Obligations.StickAndMarks
  intro s a trimmed twice near marked'
  have hmarked : ∀ t : State, MarkOf s.m t.m → marked' t := by
    intro t ⟨hc, hv⟩
    have hstick : t.m.aon.stick = (marked s.m).stick := congrArg Clock.stick hc
    have htrim : t.m.aon.trim = nextTrim s.m.thetas := congrArg Clock.trim hc
    have hspan : t.m.aon.span = (marked s.m).span := congrArg Clock.span hc
    refine ⟨fun hle hlt hrun => ?_, fun hle hlt hrun hnear => ?_, ?_, congrArg Clock.markNumber hc, congrArg Clock.refCycles hc, ?_, fun hn => ?_,
      fun hn => ?_, fun hs r hr hdom => ?_⟩
    · change trimmedStick s.m + 2 ^ 40 < 2 ^ 64 at hlt
      have hj : jumpOf s.m = 0 := if_pos hrun
      have := marked_stick (m := s.m) hle (by rw [hj]; omega)
      rw [hstick, this, hj]
      exact add_zero _
    · change trimmedStick s.m + 2 ^ 40 < 2 ^ 64 at hlt
      obtain ⟨h1, h2⟩ := jumpOf_greatest hrun
      refine ⟨jumpOf s.m, ?_, h1, h2⟩
      rw [hstick]
      refine marked_stick (m := s.m) hle ?_
      have : (jumpOf s.m : Int) < 2 ^ 40 := by
        rcases h2 with h2 | ⟨x, hx, -, h2⟩
        · omega
        · have := hnear x hx
          omega
      omega
    · exact (congrArg Clock.stickAtMark hc).trans hstick.symm
    · rw [hspan, htrim]
      exact marked_span s.m
    · rw [htrim]
      exact nextTrim_none hn
    · rw [htrim]
      exact nextTrim_nearest hn
    · rw [hstick, hspan]
      exact markedView_awake (hv hs r hr) hdom
  refine ⟨fun sync hon hr hstick hlt => ?_, fun hon hr => ⟨_, rfl, hmarked _ ?_⟩, fun hon hedge => ⟨fun hio => ?_, fun hio => ?_, fun hio ht => ?_, fun hio hr ha => ?_⟩⟩
  · obtain ⟨rs, e⟩ := referenceCycle_leaves sync hon hr
    refine ⟨_, rfl, ?_, fun hd => ?_, ?_, fun r hr25 => ?_⟩
    · rw [e]
    · rw [e]
      have hd : (if markFalls sync s.m = true then min 0 s.m.aon.trim else 0) = 0 := by
        rcases hd with hd | hd
        · rw [hd]; rfl
        · split
          · exact min_eq_left hd
          · rfl
      rw [hd]
      exact stickAt_cycle hstick hlt
    · rw [e]
    · have hstopped := stoppedCycle_eq (s.m.region r)
      rw [← referenceCycle_region sync hon hr r hr25] at hstopped
      exact hstopped
  · exact mark_marks hon hr
  · have hmode := syncIoEdge_mode (m := s.m) hon hedge
    refine congrArg (fun n : Mod => Host.Outcome.next { s with m := n }) (hmode.trans ?_)
    rcases hio with hio | hio
    · rw [show s.m.aon.syncIo = .off from hio]
    · rw [show s.m.aon.syncIo = .markOut from hio]
  · obtain ⟨⟨rs, e⟩, hregions⟩ := syncIoEdge_trigger (m := s.m) hon hedge hio
    refine ⟨_, rfl, ?_, fun r hr => (hregions r hr).trans ?_⟩
    · rw [e]
    · unfold traceStarted
      split <;> simp_all
  · exact ⟨_, rfl, hmarked _ (syncIoEdge_takes hon hedge hio ht)⟩
  · exact congrArg (fun n : Mod => Host.Outcome.next { s with m := n }) (syncIoEdge_ignores (m := s.m) hon hedge hio hr ha)

end Sys2Proof.Proofs
end

section
/-!
PROOFS. An edge of one region that changes another: a site outside its region.
-/

namespace Sys2Proof.Proofs

open Sys2Proof Sys2Proof.Machine Sys2Proof.Laws

/-- A core whose last DECW would take its word below 0: at the cycle edge the update is refused, an event of the mark (R364, R365). -/
def strayCore : Core := { ni := { clampPend := [(0, -1)] } }

/-- Region 0 clocked at step 1, with a site of region 1 in its list of sites. -/
def strayState : State :=
  { m := { regions := [(0, { dom := .awake, step := 1, site := [32] })], cores := [(32, strayCore)], desc := { fence := [(32, 0)] } }, pending := [] }

/-- The refused update's event is counted in the region of the site, which is not the region of the edge. -/
theorem strayState_event : ((cycleEdge 0 0 strayState.m).region 1).ev ≠ (strayState.m.region 1).ev := by
  decide

/-- Refutes O37: nothing keeps a region's list of sites within the region, and an event raised at a stray site's edge is counted in its own
region, so an edge of region 0 changes region 1. -/
theorem not_cyclesAndVisibility : ¬ Obligations.CyclesAndVisibility := by
  unfold Obligations.CyclesAndVisibility
  intro h
  obtain ⟨t, ht, -, hother, -⟩ := (h.1 strayState 0 0 rfl rfl (by decide)).1 (by decide) (by decide)
  have ht : t = { strayState with m := cycleEdge 0 0 strayState.m } := (Host.Outcome.next.inj ht).symm
  have h1 := hother 1 (by decide)
  rw [ht] at h1
  exact strayState_event (congrArg Region.ev h1)

end Sys2Proof.Proofs
end

section
/-!
PROOFS. A committed change at its boundary, and events of level 0 and 1.
-/

namespace Sys2Proof.Proofs

open Sys2Proof Sys2Proof.Machine Sys2Proof.Laws

/-! ### Events of level 0 and 1 -/

theorem raiseEvent_silent {m : Mod} {code : Nat} (h : m.level code = 0) (source count gang d0 d flags : Nat) :
    raiseEvent code source count gang d0 d flags m = m := by
  unfold raiseEvent
  exact if_pos h

theorem raiseEvent_logged {m : Mod} {code : Nat} (h : m.level code = 1) (source count gang d0 d flags : Nat) :
    raiseEvent code source count gang d0 d flags m = recordEvent (evRecord code source count gang d0 d flags m) m := by
  unfold raiseEvent
  dsimp only
  rw [if_neg (by omega), if_pos (.inr h)]

theorem evRecord_logged {m : Mod} {code : Nat} (h : m.level code = 1) (source count gang d0 d : Nat) :
    evRecord code source count gang d0 d 0 m =
      { code := code, flags := 0, source := source, stick := m.aon.stick, count := count, gang := gang, d0 := d0, d := BitVec.ofNat 64 d } := by
  rw [evRecord, if_neg (by omega)]

/-- What an event does to the queue depends on the queue and on whether the module is in SAFE_HOLD. -/
theorem recordEvent_congr {m t : Mod} (x : EvRec) (hs : t.aon.state = m.aon.state) (he : t.events = m.events) :
    (recordEvent x t).events = (recordEvent x m).events := by
  simp only [recordEvent, hs, he]

/-! ### A committed change in its region (R70 to R72) -/

/-- A region's modes, trace and held step after its committed change. -/
def modesChanged (g : Region) : Region :=
  let pick (i : Nat) (old : Bool) : Bool := if bit g.pendChange i then bit g.pendValue i else old
  let endTrace : Bool := pick 1 g.digestOn && !g.digestOn && g.trace.on && g.trace.tap == 1
  { g with
    pendingChange := false, pendChange := 0, ack := false, stagedStep := none
    reprMode := pick 0 g.reprMode, digestOn := pick 1 g.digestOn, accNearest := pick 2 g.accNearest
    trace := if endTrace then { g.trace with on := false } else g.trace
    dig := if endTrace then { g.dig with traceEnded := true } else g.dig }

/-- A staged step becomes the admitted step of a running gang. -/
def admitted (k : Nat) (g : Region) : Region := if g.run.running then { g with run := { g.run with admitted := k } } else g

/-- The region after its committed change, under the ceiling of its emergency step. -/
def changed (ceiling : Nat) (g : Region) : Region :=
  match g.stagedStep with
  | none => modesChanged g
  | some k => stepped (min k ceiling) (admitted k (modesChanged g))

/-- Of the whole module one region differs, and that region is now `x`. -/
def OnlyRegion (r : Nat) (m t : Mod) (x : Region) : Prop :=
  (∃ regions, t = { m with regions := regions }) ∧ (∀ k, k ≠ r → t.region k = m.region k) ∧ t.region r = x

theorem OnlyRegion.trans {r : Nat} {a b c : Mod} {x y : Region} (h : OnlyRegion r a b x) (h' : OnlyRegion r b c y) : OnlyRegion r a c y := by
  obtain ⟨⟨_, rfl⟩, hr, -⟩ := h
  obtain ⟨⟨rs, rfl⟩, hr', hx⟩ := h'
  exact ⟨⟨rs, rfl⟩, fun k hk => (hr' k hk).trans (hr k hk), hx⟩

theorem onlyRegion_refl (r : Nat) (m : Mod) : OnlyRegion r m m (m.region r) := ⟨⟨m.regions, rfl⟩, fun _ _ => rfl, rfl⟩

theorem onlyRegion_onRegion (r : Nat) (m : Mod) (f : Region → Region) : OnlyRegion r m (m.onRegion r f) (f (m.region r)) :=
  ⟨⟨_, rfl⟩, fun _ hk => region_onRegion_other _ _ _ _ hk, region_onRegion ..⟩

theorem onlyRegion_ite {r : Nat} {m a b : Mod} {x y : Region} {c : Prop} [Decidable c] (ha : OnlyRegion r m a x) (hb : OnlyRegion r m b y) :
    OnlyRegion r m (if c then a else b) (if c then x else y) := by
  split
  · exact ha
  · exact hb

theorem onlyRegion_switchStep {r k : Nat} {m n : Mod} {x : Region} (h : OnlyRegion r m n x) :
    OnlyRegion r m (switchStep r (n.underCeiling r k) n) (stepped (min k (m.emerg r).ceiling) x) := by
  have he : n.emerg r = m.emerg r := by
    obtain ⟨⟨_, rfl⟩, -⟩ := h
    rfl
  have h' := h.trans (onlyRegion_onRegion r n (stepped (n.underCeiling r k)))
  rw [h.2.2] at h'
  rw [switchStep_stepped, Mod.underCeiling, he]
  rwa [Mod.underCeiling, he] at h'

theorem applyChange_changed {r : Nat} {m : Mod} (h : (m.region r).pendingChange = true) :
    OnlyRegion r m (applyChange r m) (changed (m.emerg r).ceiling (m.region r)) := by
  unfold applyChange changed
  extract_lets g pick endTrace m1
  rw [if_neg (by simp [g, h])]
  have h1 : OnlyRegion r m m1 (modesChanged g) := onlyRegion_onRegion ..
  cases g.stagedStep with
  | none => exact h1
  | some k =>
    dsimp only
    refine onlyRegion_switchStep ?_
    have := onlyRegion_ite (c := g.run.running = true) (h1.trans (onlyRegion_onRegion r m1 (fun g => { g with run := { g.run with admitted := k } }))) h1
    rw [h1.2.2] at this
    exact this

/-- What an overrun found at the change leaves in the region: a tick promise lost, a count and an event. -/
def Late (g x : Region) : Prop := ∃ ev time void, x = { g with ev := ev, time := time, run := { g.run with tickVoid := void } }

theorem Late.voided {g x : Region} (h : Late g x) : Late g { x with run := { x.run with tickVoid := true } } := by
  obtain ⟨ev, time, _, rfl⟩ := h
  exact ⟨ev, time, true, rfl⟩

theorem kerfOverrun_late (r d : Nat) (m : Mod) : ∃ x, OnlyRegion r m (kerfOverrun r d m) x ∧ Late (m.region r) x := by
  obtain ⟨n, x, hn, hx, hl⟩ : ∃ n x, kerfOverrun r d m = n.voidTicks r ∧ OnlyRegion r m n x ∧ Late (m.region r) x :=
    ⟨_, _, rfl, onlyRegion_onRegion .., _, _, (m.region r).run.tickVoid, rfl⟩
  rw [hn, Mod.voidTicks]
  split
  · have h' := hx.trans (onlyRegion_onRegion r n (fun g => { g with run := { g.run with tickVoid := true } }))
    rw [hx.2.2] at h'
    exact ⟨_, h', hl.voided⟩
  · exact ⟨x, hx, hl⟩

/-- The change in the region, and what a step's two cycles add to a kerf that waits (R71, R72). -/
theorem modeApply_region {r : Nat} {m : Mod} (h : applyPoint m r = true) (hp : (m.region r).pendingChange = true) :
    ∃ n x, modeApply r m = completeChange (setApplied r n) ∧ OnlyRegion r m n x ∧ Late (changed (m.emerg r).ceiling (m.region r)) x := by
  have h1 := applyChange_changed hp
  have same : Late (changed (m.emerg r).ceiling (m.region r)) (changed (m.emerg r).ceiling (m.region r)) := ⟨_, _, _, rfl⟩
  unfold modeApply
  rw [if_neg (by simp [h])]
  extract_lets m1 g m2
  have h2 : ∃ x, OnlyRegion r m m2 x ∧ Late (changed (m.emerg r).ceiling (m.region r)) x := by
    unfold m2
    split
    · split
      · obtain ⟨x, hx, hl⟩ := kerfOverrun_late r _ m1
        rw [h1.2.2] at hl
        exact ⟨x, h1.trans hx, hl⟩
      · exact ⟨_, h1, same⟩
    · exact ⟨_, h1, same⟩
  obtain ⟨x, hx, hl⟩ := h2
  exact ⟨m2, x, rfl, hx, hl⟩

/-- The fields of a region that a committed change sets before its step. -/
def modesOf (g : Region) : Bool × Bool × Bool × Bool × Bool := (g.pendingChange, g.ack, g.reprMode, g.digestOn, g.accNearest)

theorem stepped_stepOf (k : Nat) (g : Region) : (stepped k g).step = if g.step = 0 ∨ k = 0 then g.step else k := by
  unfold stepped
  by_cases h : g.step = 0 ∨ k = 0
  · rw [if_pos (.inr h), if_pos h]
  · rw [if_neg h]
    split
    · next h' => exact h'.resolve_right h
    · rfl

theorem stepped_keeps (k : Nat) (g : Region) : modesOf (stepped k g) = modesOf g ∧ (stepped k g).run = g.run ∧
    ((stepped k g).step ≠ g.step → (stepped k g).switching = 2) := by
  obtain ⟨a, b, hs, hb⟩ := stepped_leaves k g
  rw [hs]
  exact ⟨rfl, rfl, fun h => hb (Ne.symm h)⟩

theorem admitted_keeps (k : Nat) (g : Region) : modesOf (admitted k g) = modesOf g ∧ (admitted k g).step = g.step ∧
    (admitted k g).run.admitted = if g.run.running then k else g.run.admitted := by
  unfold admitted
  split <;> exact ⟨rfl, rfl, rfl⟩

/-- What a committed change sets in its region. -/
theorem changed_fields (ceiling : Nat) (g : Region) :
    let x := changed ceiling g
    modesOf x = modesOf (modesChanged g) ∧
    x.step = (match g.stagedStep with
      | some v => if g.step = 0 ∨ min v ceiling = 0 then g.step else min v ceiling
      | none => g.step) ∧
    (x.step ≠ g.step → x.switching = 2) ∧
    x.run.admitted = (match g.stagedStep with
      | some v => if g.run.running then v else g.run.admitted
      | none => g.run.admitted) := by
  unfold changed
  cases g.stagedStep with
  | none => exact ⟨rfl, rfl, fun h => absurd rfl h, rfl⟩
  | some k =>
    obtain ⟨hm, hstep, hadm⟩ := admitted_keeps k (modesChanged g)
    obtain ⟨hm', hrun, hsw⟩ := stepped_keeps (min k ceiling) (admitted k (modesChanged g))
    have hs := stepped_stepOf (min k ceiling) (admitted k (modesChanged g))
    rw [hstep] at hs hsw
    exact ⟨hm'.trans hm, hs, hsw, (congrArg Run.admitted hrun).trans hadm⟩

/-! ### The change completes (R72) -/

theorem completeChange_waits {m : Mod} (h : m.aon.appliedMask ≠ 0x1FFFFFF) : completeChange m = m := by
  unfold completeChange
  exact if_neg (fun hc => h hc.2)

/-- The module with no change in flight. -/
def landed (m : Mod) : Mod :=
  { m with aon := { m.aon with inFlight := false }
           settings := { m.settings with flightSteps := [], flightWheel := none, flightChange := 0, flightValue := 0 } }

/-- With every region's bit set the change is no longer in flight, and STEP_APPLIED is raised. -/
theorem completeChange_completes {m : Mod} (hf : m.aon.inFlight = true) (h : m.aon.appliedMask = 0x1FFFFFF) (hl : m.level 0x0C = 1) :
    completeChange m = { landed m with
      events := (recordEvent { code := 0x0C, flags := 0, source := 0xFFFF, stick := m.aon.stick, count := 1, gang := 0, d0 := 0
                               d := m.aon.commitMark } m).events } := by
  have hl' : (landed m).level 0x0C = 1 := hl
  have hraise : completeChange m = raiseEvent 0x0C 0xFFFF 1 0 0 m.aon.commitMark.toNat 0 (landed m) := by
    unfold completeChange
    exact if_pos ⟨hf, h⟩
  rw [hraise, raiseEvent_logged hl', evRecord_logged hl', BitVec.ofNat_toNat, BitVec.setWidth_eq, recordEvent_events]
  exact congrArg (fun e => { landed m with events := e }) (recordEvent_congr _ rfl rfl)

theorem exec_changeAck (r : Fin 25) (s : State) : exec (.changeAck r) s = .next { s with m := changeAck r s.m } := rfl

theorem exec_modeApply (r : Fin 25) (s : State) : exec (.modeApply r) s = .next { s with m := modeApply r s.m } := rfl

theorem changeAck_latches {r : Nat} {m : Mod} (hd : (m.region r).dom = .awake) (hs : m.aon.state ≠ .safeHold)
    (h : (m.region r).pendingChange = true ∨ Tab.find m.settings.stagedSteps r ≠ none) :
    changeAck r m = m.onRegion r (fun g => { g with ack := true }) := by
  unfold changeAck
  exact if_pos ⟨hd, hs, h.imp id Option.isSome_iff_ne_none.2⟩

theorem applyPoint_due {r : Nat} {m : Mod} (hd : (m.region r).dom = .awake) (hs : m.aon.state ≠ .safeHold) (hp : (m.region r).pendingChange = true)
    (hf : m.aon.inFlight = true) (hm : m.aon.commitMark ≤ m.aon.markNumber) (ha : (m.region r).ack = true)
    (hk : (m.region r).run.running = true → (m.region r).seq.wait = .kerf) (he : (m.region r).run.running = false → (m.region r).run.ended = false) :
    applyPoint m r = true := by
  unfold applyPoint Mod.changeDue
  dsimp only
  cases hr : (m.region r).run.running with
  | false => simp [hd, hs, hp, hf, hm, ha, he hr]
  | true => simp [hd, hs, hp, hf, hm, ha, hk hr]

/-- MODE_APPLY at a committed change that is due: what it leaves of the module, and the region after it. -/
theorem modeApply_applies {r : Nat} {m : Mod} (h : applyPoint m r = true) (hp : (m.region r).pendingChange = true) (hf : m.aon.inFlight = true)
    (hl : m.level 0x0C = 1) :
    let t := modeApply r m
    let mask := sticky m.aon.appliedMask r
    Late (changed (m.emerg r).ceiling (m.region r)) (t.region r) ∧ t.aon.appliedMask = mask ∧
    (mask ≠ 0x1FFFFFF → t.aon.inFlight = true ∧ t.events = m.events) ∧
    (mask = 0x1FFFFFF → t.aon.inFlight = false ∧ t.events =
      (recordEvent { code := 0x0C, flags := 0, source := 0xFFFF, stick := m.aon.stick, count := 1, gang := 0, d0 := 0, d := m.aon.commitMark } m).events) ∧
    t.cores = m.cores ∧ t.stock = m.stock ∧ ∀ k, k ≠ r → t.region k = m.region k := by
  obtain ⟨n, x, ht, ⟨⟨rs, rfl⟩, hother, hx⟩, hlate⟩ := modeApply_region h hp
  intro t mask
  have ht : t = completeChange (setApplied r { m with regions := rs }) := ht
  by_cases hmask : mask = 0x1FFFFFF
  · rw [ht, completeChange_completes (m := setApplied r { m with regions := rs }) hf hmask hl]
    exact ⟨hx ▸ hlate, rfl, fun h => absurd hmask h, fun _ => ⟨rfl, recordEvent_congr _ rfl rfl⟩, rfl, rfl, hother⟩
  · rw [ht, completeChange_waits (m := setApplied r { m with regions := rs }) hmask]
    exact ⟨hx ▸ hlate, rfl, fun _ => ⟨hf, rfl⟩, fun h => absurd h hmask, rfl, rfl, hother⟩

end Sys2Proof.Proofs
end

section
/-!
PROOFS. Sensors, emergency steps, telemetry and the progress monitor.
-/

namespace Sys2Proof.Proofs

open Sys2Proof Sys2Proof.Machine Sys2Proof.Laws

/-! ### A sensor sample (R592, R594, R595) -/

/-- The readings kept for a region are its sample, and the others' are as they were. -/
theorem get_readings (t : Tab Nat) (r k : Nat) {temps : List W16} (hn : temps.length = 16) :
    Tab.get (temps.zipIdx.foldl (fun t x => Tab.set t (16 * r + x.2) x.1.toNat) t) k 0 =
      if k / 16 = r then (temps.getD (k % 16) 0).toNat else Tab.get t k 0 := by
  have hmap : temps.zipIdx.foldl (fun t x => Tab.set t (16 * r + x.2) x.1.toNat) t =
      (temps.zipIdx.map (fun x => (16 * r + x.2, x.1.toNat))).foldl (fun t x => Tab.set t x.1 x.2) t := by
    rw [List.foldl_map]
  have hmem : ∀ x ∈ temps.zipIdx.map (fun x => (16 * r + x.2, x.1.toNat)), ∃ i < 16, x = (16 * r + i, (temps.getD i 0).toNat) := by
    intro x hx
    obtain ⟨⟨a, i⟩, hi, rfl⟩ := List.mem_map.1 hx
    have hi := List.mem_zipIdx_iff_getElem?.1 hi
    obtain ⟨hlt, -⟩ := List.getElem?_eq_some_iff.1 hi
    exact ⟨i, hn ▸ hlt, by rw [List.getD_eq_getElem?_getD, hi]; rfl⟩
  rw [hmap]
  split
  · next e =>
    have hk : (k, (temps.getD (k % 16) 0).toNat) ∈ temps.zipIdx.map (fun x => (16 * r + x.2, x.1.toNat)) := by
      refine List.mem_map.2 ⟨(temps.getD (k % 16) 0, k % 16), List.mem_zipIdx_iff_getElem?.2 ?_, by dsimp only; congr 1; omega⟩
      have hlt : k % 16 < temps.length := by omega
      rw [List.getD_eq_getElem?_getD, List.getElem?_eq_getElem hlt]
      rfl
    refine get_sets_mem hk (fun x hx hxk => ?_) ..
    obtain ⟨i, hi, rfl⟩ := hmem x hx
    rw [show i = k % 16 by dsimp only at hxk; omega]
  · next e =>
    refine get_sets_other (fun x hx hxk => e ?_) ..
    obtain ⟨i, hi, rfl⟩ := hmem x hx
    dsimp only at hxk
    omega

/-- Of the module one region and the emergency records differ; the region is now `x` and its record `e`. -/
def Sensed (r : Nat) (m t : Mod) (x : Region) (e : Emerg) : Prop :=
  (∃ regions emerg, t = { m with regions := regions, power := { m.power with emerg := emerg } }) ∧ t.region r = x ∧ t.emerg r = e

section
variable {r : Nat} {m t : Mod} {x : Region} {e : Emerg}

theorem Sensed.onRegion (h : Sensed r m t x e) (f : Region → Region) : Sensed r m (t.onRegion r f) (f x) e := by
  obtain ⟨⟨_, _, rfl⟩, rfl, rfl⟩ := h
  exact ⟨⟨_, _, rfl⟩, region_onRegion .., rfl⟩

theorem Sensed.onEmerg (h : Sensed r m t x e) (f : Emerg → Emerg) : Sensed r m (t.onEmerg r f) x (f e) := by
  obtain ⟨⟨_, _, rfl⟩, rfl, rfl⟩ := h
  exact ⟨⟨_, _, rfl⟩, rfl, emerg_onEmerg ..⟩

theorem Sensed.ite {t' : Mod} {x' : Region} {e' : Emerg} {c : Prop} [Decidable c] (h : Sensed r m t x e) (h' : Sensed r m t' x' e') :
    Sensed r m (if c then t else t') (if c then x else x') (if c then e else e') := by
  split
  · exact h
  · exact h'

end

/-- The warning of a sample: re-armed below 92 °C, taken from 95 °C. -/
def warned (hot : Nat) (e : Emerg) : Emerg :=
  if 9500 ≤ hot ∧ e.warnArmed then { e with warnArmed := false } else if hot < 9200 then { e with warnArmed := true } else e

/-- JUNCTION at a sample: detected once from 105 °C. -/
def junctioned (hot mark : Nat) (e : Emerg) : Emerg :=
  if hot < 10500 then { e with junction := none }
  else if e.junction.isSome then e else { e with junction := some mark, causes := sticky e.causes 0 }

/-- The module with a region's sample recorded. -/
def recorded (r : Nat) (temps : List W16) (m : Mod) : Mod :=
  let m := { m with power := { m.power with
    sensors := temps.zipIdx.foldl (fun (t : Tab Nat) (x : W16 × Nat) => Tab.set t (16 * r + x.2) x.1.toNat) m.power.sensors
    tjMax := Tab.upd m.power.tjMax r 0 (max ((temps.map BitVec.toNat).foldl max 0)) } }
  { m with aon := { m.aon with pins := { m.aon.pins with thermAlert := m.power.sensors.any (fun x => decide (9500 ≤ x.2)) } } }

/-- A sample's effects but SAFE_HOLD. -/
theorem sensorSample_senses {r : Nat} {m : Mod} (hon : m.aon.state ≠ .off) (temps : List W16) (amps : Nat) :
    let hot := (temps.map BitVec.toNat).foldl max 0
    let g := { m.region r with tmaxInterval := max (m.region r).tmaxInterval hot }
    let e := junctioned hot m.aon.markNumber.toNat (warned hot (m.emerg r))
    ∃ n, sensorSample r temps amps m = (if 11500 ≤ hot then enterSafeHold 2 n else n) ∧
      Sensed r (recorded r temps m) n
        (if 9500 ≤ hot ∧ (m.emerg r).warnArmed then countEv g { code := 0x12, d0 := hottestAt temps, d := hot } else g)
        (if amps ≤ 9400 then { e with overCurrent := none } else e) := by
  intro hot g e
  unfold sensorSample
  rw [if_neg hon]
  extract_lets _ m1 alert _ _ m2 m3 e1 m4 m5 m6
  have h3 : Sensed r m2 m3 g e1 := ⟨⟨_, _, rfl⟩, region_onRegion .., rfl⟩
  have h4 : Sensed r m2 m4 (if 9500 ≤ hot ∧ e1.warnArmed = true then countEv g { code := 0x12, d0 := hottestAt temps, d := hot } else g)
      (warned hot e1) := by
    have := ((h3.onRegion (fun g => countEv g { code := 0x12, d0 := hottestAt temps, d := hot })).onEmerg (fun e => { e with warnArmed := false })).ite
      (c := 9500 ≤ hot ∧ e1.warnArmed = true) ((h3.onEmerg (fun e => { e with warnArmed := true })).ite (c := hot < 9200) h3)
    rw [ite_self] at this
    exact this
  have h5 : Sensed r m2 m5 (if 9500 ≤ hot ∧ e1.warnArmed = true then countEv g { code := 0x12, d0 := hottestAt temps, d := hot } else g) e := by
    have := (h4.onEmerg (fun e => { e with junction := none })).ite (c := hot < 10500)
      (h4.ite (c := (m4.emerg r).junction.isSome = true) ((h4.onEmerg (fun e => { e with junction := some m4.aon.markNumber.toNat })).onEmerg
        (fun e => { e with causes := sticky e.causes 0 })))
    rw [ite_self, ite_self] at this
    have hmark : m4.aon.markNumber = m.aon.markNumber := by
      obtain ⟨⟨_, _, hm⟩, -⟩ := h4
      exact (congrArg (fun t : Mod => t.aon.markNumber) hm :)
    refine ⟨this.1, this.2.1, this.2.2.trans ?_⟩
    rw [h4.2.2, hmark]
    rfl
  have h6 := (h5.onEmerg (fun e => { e with overCurrent := none })).ite (c := amps ≤ 9400) h5
  rw [ite_self] at h6
  exact ⟨m6, rfl, h6⟩

/-- What a sample's record keeps of the readings, and what the junction and the warning become. -/
theorem sampled_fields (hot amps mark : Nat) (e : Emerg) :
    let x := if amps ≤ 9400 then { junctioned hot mark (warned hot e) with overCurrent := none } else junctioned hot mark (warned hot e)
    (x.junction = if hot < 10500 then none else if e.junction = none then some mark else e.junction) ∧
    (x.causes = if 10500 ≤ hot ∧ e.junction = none then sticky e.causes 0 else e.causes) ∧
    (x.warnArmed = if 9500 ≤ hot then false else if hot < 9200 then true else e.warnArmed) := by
  have hw : (warned hot e).junction = e.junction ∧ (warned hot e).causes = e.causes ∧
      (warned hot e).warnArmed = if 9500 ≤ hot then false else if hot < 9200 then true else e.warnArmed := by
    unfold warned
    by_cases h1 : 9500 ≤ hot
    · cases he : e.warnArmed with
      | true => simp [h1]
      | false => simp [h1, he, show ¬ hot < 9200 by omega]
    · rw [if_neg (fun h => h1 h.1), if_neg h1]
      split <;> exact ⟨rfl, rfl, rfl⟩
  have hj : ∀ y : Emerg, (junctioned hot mark y).junction = (if hot < 10500 then none else if y.junction = none then some mark else y.junction) ∧
      (junctioned hot mark y).causes = (if 10500 ≤ hot ∧ y.junction = none then sticky y.causes 0 else y.causes) ∧
      (junctioned hot mark y).warnArmed = y.warnArmed := by
    intro y
    unfold junctioned
    by_cases h1 : hot < 10500
    · simp [h1]
    · cases hy : y.junction with
      | none => simp [h1, show 10500 ≤ hot by omega]
      | some k => simp [h1, hy]
  intro x
  obtain ⟨hj1, hj2, hj3⟩ := hj (warned hot e)
  rw [hw.1, hw.2.1] at hj2
  rw [hw.1] at hj1
  have hx : x.junction = (junctioned hot mark (warned hot e)).junction ∧ x.causes = (junctioned hot mark (warned hot e)).causes ∧
      x.warnArmed = (junctioned hot mark (warned hot e)).warnArmed := by
    unfold x
    split <;> exact ⟨rfl, rfl, rfl⟩
  exact ⟨hx.1.trans hj1, hx.2.1.trans hj2, hx.2.2.trans (hj3.trans hw.2.2)⟩

/-- SAFE_HOLD from 115 °C takes nothing of power's records. -/
theorem power_enterSafeHold (cause : Nat) {m : Mod} (h : m.aon.state ≠ .off) : (enterSafeHold cause m).power = m.power := by
  by_cases hs : m.aon.state = .safeHold
  · exact (enterSafeHold_again cause hs).2
  · exact (enterSafeHold_enters cause h hs).2.2

/-! ### Over-current and the emergency step (R592, R594) -/

theorem overCurrent_detects {r : Nat} {m : Mod} (hon : m.aon.state ≠ .off) (h : (m.emerg r).overCurrent = none) :
    ∃ emerg, overCurrent r m = { m with power := { m.power with emerg := emerg } } ∧ ∀ k, (overCurrent r m).emerg k =
      if k = r then { m.emerg r with overCurrent := some m.aon.markNumber.toNat, causes := sticky (m.emerg r).causes 1 } else m.emerg k := by
  have e : overCurrent r m = detect r 1 (m.onEmerg r (fun e => { e with overCurrent := some m.aon.markNumber.toNat })) := by
    unfold overCurrent
    exact if_neg (by simp [hon, h])
  refine ⟨_, e, fun k => ?_⟩
  rw [e, detect]
  unfold Mod.onEmerg Mod.emerg
  dsimp only
  rw [get_set, get_set, if_pos rfl, get_set]
  split <;> rfl

/-- The admitted step that a lowered limit leaves. -/
def lowered (l : Option Nat) (g : Region) : Region :=
  match l with
  | some k => admitted k g
  | none => g

theorem lowered_fields (l : Option Nat) (g : Region) : (lowered l g).step = g.step ∧ (lowered l g).run.running = g.run.running ∧
    (g.run.running = true → (lowered l g).run.admitted = l.getD g.run.admitted) := by
  cases l with
  | none => exact ⟨rfl, rfl, fun _ => rfl⟩
  | some k =>
    show (admitted k g).step = _ ∧ (admitted k g).run.running = _ ∧ (_ → (admitted k g).run.admitted = k)
    unfold admitted
    split
    · exact ⟨rfl, rfl, fun _ => rfl⟩
    · next h => exact ⟨rfl, rfl, fun h' => absurd h' h⟩

/-- A tick promise lost while a gang runs. -/
def voided (g : Region) : Region := if g.run.running then { g with run := { g.run with tickVoid := true } } else g

theorem voided_fields (g : Region) : (voided g).step = g.step ∧ (voided g).switching = g.switching ∧
    (voided g).run.admitted = g.run.admitted ∧ (g.run.running = true → (voided g).run.tickVoid = true) := by
  unfold voided
  split
  · exact ⟨rfl, rfl, rfl, fun _ => rfl⟩
  · next h => exact ⟨rfl, rfl, rfl, fun h' => absurd h' h⟩

theorem atRegion_voidTicks {r : Nat} {m n : Mod} {x : Region} (h : AtRegion r m n x) : AtRegion r m (n.voidTicks r) (voided x) ∧ (n.voidTicks r).power = n.power := by
  have hx := h.2.2
  unfold Mod.voidTicks voided
  rw [hx]
  split
  · have h' := h.trans (atRegion_onRegion r n n.power (fun g => { g with run := { g.run with tickVoid := true } }))
    rw [hx] at h'
    exact ⟨h', rfl⟩
  · exact ⟨h, rfl⟩

/-- The record of an emergency step once its causes are met. -/
def met (ceiling : Nat) (e : Emerg) : Emerg := { e with due := 0, lowered := none, ceiling := ceiling, absent := 0, restore := false }

/-- An emergency step's effects but its event. -/
theorem emergencyStep_sets {r : Nat} {m : Mod} (h : (m.emerg r).due ≠ 0) :
    let e := m.emerg r
    let g := m.region r
    let c := causeCeiling g.step e.due e.ceiling
    ∃ n, emergencyStep r m = raiseEvent 0x0D r 1 (if g.run.running then g.run.gang else 0) c e.due.toNat 0 n ∧
      AtRegion r m n (voided (stepped (min g.step (min c (if bit e.due 3 then e.lowered.getD g.step else g.step))) (lowered e.lowered g))) ∧
      n.emerg r = met c e ∧ n.power.emergencySteps = m.power.emergencySteps + 1 := by
  intro e g c
  unfold emergencyStep
  rw [if_neg h]
  extract_lets c' m1 m2 k m3 _ m4
  have h1 : AtRegion r m m1 g := atRegion_power ..
  have h2 : AtRegion r m m2 (lowered e.lowered g) ∧ m2.power = m1.power := by
    unfold m2
    cases e.lowered with
    | none => exact ⟨h1, rfl⟩
    | some v => exact ⟨h1.trans (atRegion_onRegion r m1 m1.power (admitted v)), rfl⟩
  have h3 : AtRegion r m m3 (stepped k (lowered e.lowered g)) := by
    have h' := h2.1.trans (atRegion_onRegion r m2 m2.power (stepped k))
    rw [h2.1.2.2] at h'
    exact h'
  have h4 : AtRegion r m m4 (stepped k (lowered e.lowered g)) := by
    have h' := h3.trans (atRegion_power r m3 m4.power)
    rw [h3.2.2] at h'
    exact h'
  obtain ⟨h5, hp⟩ := atRegion_voidTicks h4
  have hp2 : m3.power = m1.power := h2.2
  refine ⟨_, rfl, h5, ?_, ?_⟩
  · rw [Mod.emerg, hp]
    show Tab.get m3.power.emerg r {} = _
    rw [hp2]
    exact emerg_onEmerg ..
  · rw [hp]
    show m3.power.emergencySteps + 1 = _
    rw [hp2]
    rfl

/-- The stall is noted in the region, and a trace that waits for one starts. -/
def stalled (g : Region) : Region :=
  { g with run := { g.run with stalled := true }, trace := if g.trace.trigger = 2 then { g.trace with armed := false } else g.trace }

/-- A running part held over its gang's marks stalls once (R373). -/
theorem progressStall_stalls {r : Nat} {m : Mod} {p : Placement} (hp : m.placementOf (m.region r).run.gang = some p)
    (hrun : (m.region r).run.running = true) (hs : (m.region r).run.stalled = false) (hheld : p.progress ≤ (m.region r).run.heldMarks)
    (hstate : m.aon.state ≠ .safeHold) :
    progressStall r m = raiseEvent 1 r 1 (m.region r).run.gang (((m.region r).seq.pipe.head?.map (·.addr)).getD (m.region r).seq.addr)
      (((m.region r).seq.pipe.head?.map (·.pos)).getD (m.region r).seq.pos) 0 (m.onRegion r stalled) := by
  unfold progressStall
  dsimp only
  rw [hp]
  dsimp only
  rw [if_neg (by simp [hrun, hs, hstate, hheld])]
  cases (m.region r).seq.pipe with
  | nil => rfl
  | cons b l => rfl

theorem telemetryRewrite_rewrites (x : TelemIn) {m : Mod} (ht : m.aon.tirixRunning = true) (hb : m.aon.beatStopped = false)
    (hn : m.aon.markNumber.toNat % 16 = 0) (hr : m.aon.markNumber.toNat ≠ m.power.lastRewrite) :
    ∃ power, telemetryRewrite x m = { m with power := power } ∧ power.lastRewrite = m.aon.markNumber.toNat ∧ power.telem = telemRecord x m := by
  unfold telemetryRewrite
  extract_lets n w t hot m1
  rw [if_neg (by simp [ht, hb, n, hn, hr])]
  split
  · exact ⟨_, rfl, rfl, rfl⟩
  · exact ⟨_, rfl, rfl, rfl⟩

theorem exec_sensorSample (r : Fin 25) {temps : List W16} (amps : W32) (s : State) (h : temps.length = 16) :
    exec (.sensorSample r temps amps) s = .next { s with m := sensorSample r temps amps.toNat s.m } :=
  runIf_wf (decide_eq_true h) ..

theorem exec_telemetryRewrite (x : TelemIn) (s : State) : exec (.telemetryRewrite x) s = .next { s with m := telemetryRewrite x s.m } := rfl

theorem exec_progressStall (r : Fin 25) (s : State) : exec (.progressStall r) s = .next { s with m := progressStall r s.m } := rfl

/-- An event of level 0 or 1 leaves all but the event queue, and takes a record into it at level 1. -/
theorem raiseEvent_quiet {m : Mod} {code : Nat} (h : m.level code ≤ 1) (source count gang d0 d : Nat) :
    ∃ events, raiseEvent code source count gang d0 d 0 m = { m with events := events } ∧ (m.level code = 1 → events = (recordEvent
      { code := code, flags := 0, source := source, stick := m.aon.stick, count := count, gang := gang, d0 := d0, d := BitVec.ofNat 64 d } m).events) := by
  by_cases h1 : m.level code = 1
  · rw [raiseEvent_logged h1, evRecord_logged h1, recordEvent_events]
    exact ⟨_, rfl, fun _ => rfl⟩
  · rw [raiseEvent_silent (by omega)]
    exact ⟨m.events, rfl, fun h' => absurd h' h1⟩

/-- A warning's event is counted in the region, whose other state a sample does not read. -/
theorem ev_counted (c : Prop) [Decidable c] (g : Region) (k : Nat) (x : EvOut) :
    (if c then countEv { g with tmaxInterval := k } x else { g with tmaxInterval := k }).ev = if c then (countEv g x).ev else g.ev := by
  split <;> rfl

/-- A sensor sample from the state's side: the readings, the detections, and SAFE_HOLD from 115 °C. -/
theorem sensorSample_effect {r : Nat} {m : Mod} (hon : m.aon.state ≠ .off) {temps : List W16} (hn : temps.length = 16) (amps : Nat) :
    let hot := (temps.map BitVec.toNat).foldl max 0
    let t := sensorSample r temps amps m
    let e := m.emerg r
    let e' := t.emerg r
    (∀ k, Tab.get t.power.sensors k 0 = if k / 16 = r then (temps.getD (k % 16) 0).toNat else Tab.get m.power.sensors k 0) ∧
    Tab.get t.power.tjMax r 0 = max hot (Tab.get m.power.tjMax r 0) ∧
    (e'.junction = if hot < 10500 then none else if e.junction = none then some m.aon.markNumber.toNat else e.junction) ∧
    (e'.causes = if 10500 ≤ hot ∧ e.junction = none then sticky e.causes 0 else e.causes) ∧
    (e'.warnArmed = if 9500 ≤ hot then false else if hot < 9200 then true else e.warnArmed) ∧
    (hot < 11500 → ((t.region r).ev = if 9500 ≤ hot ∧ e.warnArmed then
        (countEv (m.region r) { code := 0x12, d0 := hottestAt temps, d := hot }).ev else (m.region r).ev) ∧
      t.aon = { m.aon with pins := t.aon.pins }) ∧
    (11500 ≤ hot → t.aon.state = .safeHold ∧ (m.aon.state ≠ .safeHold → t.aon.safeCause = 2)) := by
  intro hot t e e'
  obtain ⟨n, hsample, ⟨⟨rs, em, hmod⟩, hregion, hemerg⟩⟩ := sensorSample_senses (r := r) hon temps amps
  have ht : t = if 11500 ≤ hot then enterSafeHold 2 n else n := hsample
  obtain ⟨hj, hc, hw⟩ := sampled_fields hot amps m.aon.markNumber.toNat e
  have hnon : n.aon.state ≠ .off := by rw [hmod]; exact hon
  have hpower : t.power = n.power := by
    rw [ht]
    split
    · exact power_enterSafeHold 2 hnon
    · rfl
  have he : e' = n.emerg r := congrArg (fun p : Power => Tab.get p.emerg r {}) hpower
  rw [hemerg] at he
  refine ⟨fun k => ?_, ?_, he ▸ hj, he ▸ hc, he ▸ hw, fun hcool => ?_, fun hhot => ?_⟩
  · rw [hpower, hmod]
    exact get_readings _ r k hn
  · rw [hpower, hmod]
    exact (get_upd ..).trans (if_pos rfl)
  · rw [ht, if_neg (by omega), hregion, ev_counted, hmod]
    exact ⟨rfl, rfl⟩
  · rw [ht, if_pos hhot]
    refine ⟨enterSafeHold_holds 2 hnon, fun hs => (enterSafeHold_enters 2 hnon ?_).2.1⟩
    rw [hmod]
    exact hs

/-- An emergency step from the state's side, its event of level 0 or 1. -/
theorem emergencyStep_effect {r : Nat} {m : Mod} (h : (m.emerg r).due ≠ 0) (hl : m.level 0x0D ≤ 1) :
    let e := m.emerg r
    let g := m.region r
    let c := causeCeiling g.step e.due e.ceiling
    let step := min g.step (min c (if bit e.due 3 then e.lowered.getD g.step else g.step))
    let t := emergencyStep r m
    let g' := t.region r
    t.emerg r = met c e ∧ g'.step = (if step = 0 then g.step else step) ∧ (g'.step ≠ g.step → g'.switching = 2) ∧
    (g.run.running = true → g'.run.tickVoid = true) ∧ (g.run.running = true → g'.run.admitted = e.lowered.getD g.run.admitted) ∧
    t.power.emergencySteps = m.power.emergencySteps + 1 ∧ (m.level 0x0D = 1 → t.events = (recordEvent
      { code := 0x0D, flags := 0, source := r, stick := m.aon.stick, count := 1, gang := if g.run.running then g.run.gang else 0
        d0 := c, d := e.due.setWidth 64 } m).events) := by
  intro e g c step t g'
  obtain ⟨n, hn, ⟨⟨rs, pw, hmod⟩, -, hregion⟩, hemerg, hcount⟩ := emergencyStep_sets h
  have hlevel : n.level 0x0D = m.level 0x0D := by rw [hmod]; rfl
  obtain ⟨ev, hraise, hev⟩ := raiseEvent_quiet (hlevel ▸ hl) r 1 (if g.run.running then g.run.gang else 0) c e.due.toNat
  have ht : t = { n with events := ev } := hn.trans hraise
  obtain ⟨hlstep, hlrun, hladm⟩ := lowered_fields e.lowered g
  obtain ⟨-, hsrun, hsw⟩ := stepped_keeps step (lowered e.lowered g)
  have hstep := stepped_stepOf step (lowered e.lowered g)
  rw [hlstep] at hstep hsw
  obtain ⟨hvstep, hvsw, hvadm, hvoid⟩ := voided_fields (stepped step (lowered e.lowered g))
  rw [hsrun, hlrun] at hvoid
  rw [hsrun] at hvadm
  have hg : g' = voided (stepped step (lowered e.lowered g)) := by
    show t.region r = _
    rw [ht]
    exact hregion
  rw [hg, hvstep, hvsw, hvadm, hstep]
  refine ⟨by rw [ht]; exact hemerg, ?_, fun hne => hsw (hstep ▸ hne), hvoid, hladm, by rw [ht]; exact hcount, fun h1 => ?_⟩
  · by_cases h0 : g.step = 0 ∨ step = 0
    · have hz : step = 0 := h0.elim (fun h => by omega) id
      rw [if_pos h0, if_pos hz]
    · rw [if_neg h0, if_neg (fun h => h0 (.inr h))]
  · rw [ht, ← BitVec.ofNat_toNat]
    exact (hev (hlevel.trans h1)).trans (by rw [hmod]; exact recordEvent_congr _ rfl rfl)

/-- The progress monitor from the state's side, its event of level 1. -/
theorem progressStall_effect {r : Nat} {m : Mod} {p : Placement} (hp : m.placementOf (m.region r).run.gang = some p)
    (hrun : (m.region r).run.running = true) (hs : (m.region r).run.stalled = false) (hheld : p.progress ≤ (m.region r).run.heldMarks)
    (hstate : m.aon.state ≠ .safeHold) (hl : m.level 1 = 1) :
    let g := m.region r
    ∃ events, progressStall r m = { m.onRegion r stalled with events := events } ∧ events = (recordEvent
      { code := 1, flags := 0, source := r, stick := m.aon.stick, count := 1, gang := g.run.gang
        d0 := (g.seq.pipe.head?.map (·.addr)).getD g.seq.addr, d := BitVec.ofNat 64 ((g.seq.pipe.head?.map (·.pos)).getD g.seq.pos) } m).events := by
  intro g
  have hl' : (m.onRegion r stalled).level 1 = 1 := hl
  obtain ⟨ev, hraise, hev⟩ := raiseEvent_quiet (le_of_eq hl') r 1 g.run.gang ((g.seq.pipe.head?.map (·.addr)).getD g.seq.addr)
    ((g.seq.pipe.head?.map (·.pos)).getD g.seq.pos)
  exact ⟨ev, (progressStall_stalls hp hrun hs hheld hstate).trans hraise, (hev hl').trans (recordEvent_congr _ rfl rfl)⟩

/-- Settles O40: `modeApply_applies` for a committed change, and for each monitor what its records become. -/
theorem changesAndMonitors : Obligations.ChangesAndMonitors := by
  unfold Obligations.ChangesAndMonitors
  refine ⟨fun s r => ?_, fun s r => ?_⟩
  · intro g a hdom hstate
    refine ⟨fun h => ?_, fun hp hf hm ha hk he hl => ⟨_, exec_modeApply .., ?_⟩⟩
    · rw [RegionLeaves, exec_changeAck, changeAck_latches hdom hstate h]
    · obtain ⟨⟨ev, time, void, hx⟩, hrest⟩ := modeApply_applies (applyPoint_due hdom hstate hp hf hm ha hk he) hp hf hl
      obtain ⟨hmodes, hstep, hsw, hadm⟩ := changed_fields (s.m.emerg r).ceiling g
      simp only [modesOf, Prod.mk.injEq] at hmodes
      obtain ⟨h1, h2, h3, h4, h5⟩ := hmodes
      dsimp only
      rw [hx]
      exact ⟨h1, h2, h3, h4, h5, hstep, hsw, hadm, hrest⟩
  · intro g a e
    refine ⟨?_, fun hon h => ?_, fun hdue hl => ⟨_, rfl, emergencyStep_effect hdue hl⟩, ?_, fun p hp hrun hs hheld hstate hl => ?_⟩
    · intro temps amps hot hn hon
      obtain ⟨hsensors, hrest⟩ := sensorSample_effect hon hn amps.toNat
      exact ⟨_, exec_sensorSample r amps s hn, fun k _ => hsensors k, hrest⟩
    · obtain ⟨em, ho, hk⟩ := overCurrent_detects hon h
      exact ⟨_, rfl, by rw [show overCurrent r s.m = _ from ho], hk⟩
    · intro x n ht hb hn hr
      obtain ⟨p, hp, hlast, htelem⟩ := telemetryRewrite_rewrites x ht hb hn hr
      have hexec : exec (.telemetryRewrite x) s = .next { s with m := { s.m with power := p } } := by
        rw [exec_telemetryRewrite, hp]
      refine ⟨_, hexec, rfl, hlast, ?_⟩
      rw [htelem]
      exact ⟨rfl, rfl, rfl, rfl, rfl, rfl, rfl⟩
    · obtain ⟨ev, hp, hev⟩ := progressStall_effect hp hrun hs hheld hstate hl
      have hexec : exec (.progressStall r) s = .next { s with m := { s.m.onRegion r stalled with events := ev } } := by
        rw [exec_progressStall, hp]
      have hregion : (s.m.onRegion r stalled).region r = stalled g := region_onRegion ..
      refine ⟨_, hexec, rfl, hregion.trans ?_, hev⟩
      rw [show (Mod.region { s.m.onRegion r stalled with events := ev } r) = stalled g from hregion]
      rfl

end Sys2Proof.Proofs
end

section
/-!
PROOFS. A request answered in its mailbox, and a long-running command completed.
-/

namespace Sys2Proof.Proofs

open Sys2Proof Sys2Proof.Machine Sys2Proof.Laws

/-! ### A request answered -/

/-- The fields of a mailbox that its answer repeats. -/
def asked (b : Mailbox) : W32 × W16 × W64 := (b.seq, b.reqCommand, b.reqTag)

theorem mailbox_sendMsix (v k : Nat) (m : Mod) : (sendMsix v m).mailbox k = m.mailbox k := by
  obtain ⟨h, e⟩ := sendMsix_host v m
  rw [e]
  rfl

/-- A module answered from a mailbox that still holds the request. -/
theorem answerPosted_answers {i : Instr} {s : State} {q : Req} {code status : Nat} {body : List Byte} {y : Mod}
    (he : exec i s = .next { s with m := answerPosted q.no status body y })
    (hy : asked (y.mailbox q.no) = asked ((postRequest code q s.m).mailbox q.no)) :
    Answers i s { s with m := answerPosted q.no status body y } q code status body := by
  rw [postRequest_eq, mailbox_onMailbox, asked, asked, Prod.mk.injEq, Prod.mk.injEq] at hy
  obtain ⟨hseq, hcmd, htag⟩ := hy
  have hbox : (answerPosted q.no status body y).mailbox q.no = { y.mailbox q.no with
      rspCommand := (y.mailbox q.no).reqCommand, rspStatus := BitVec.ofNat 16 status, rspLength := BitVec.ofNat 32 body.length
      rspTag := (y.mailbox q.no).reqTag, rspBody := body, status := BitVec.ofNat 32 status, ack := (y.mailbox q.no).seq } := by
    unfold answerPosted
    dsimp only
    split
    · rw [mailbox_sendMsix, mailbox_onMailbox]
    · exact mailbox_onMailbox ..
  refine ⟨he, rfl, ?_⟩
  dsimp only
  rw [hbox]
  exact ⟨hseq, rfl, rfl, hcmd, rfl, rfl, htag, rfl⟩

section
variable {i : Instr} {s : State} {q : Req} {c : Cmd} {x : CmdRow} (ha : Allowed s.m i q) (hx : mailboxRow i = some (x, q))
  (he : exec i s = s.runIf (Instr.wf i) (mailboxCmd c q)) (hk : c.kinds = x.kinds) (hs : c.states = x.states)
  (hl : c.lengthOk (postRequest c.code q s.m) q = true) (hr : c.rights (postRequest c.code q s.m) q = true)
  (hg : c.long (postRequest c.code q s.m) q = false ∨ s.m.long q.no = false)
include ha hx he hk hs hl hr hg

/-- A request that passes its checks is served. -/
theorem exec_serves : c.check q (postRequest c.code q s.m) = 0 ∧ exec i s = .next { s with m := serveCmd c q (postRequest c.code q s.m) } := by
  obtain ⟨h1, h2⟩ := allowed_row ha hx
  rw [he, ha.wf, runIf_true, mailboxCmd_served ha.takes ha.serves]
  exact ⟨check_passes (hk ▸ h1) (hs ▸ h2) hl hr hg, rfl⟩

/-- A command that answers at once, its request still in the mailbox, answers it. -/
theorem short_answers (hc : c.code = x.code) {y : Mod} {status : Nat} {body : List Byte}
    (hrun : c.run q (postRequest c.code q s.m) = { m := y, status := status, body := body })
    (hy : asked (y.mailbox q.no) = asked ((postRequest c.code q s.m).mailbox q.no)) :
    Answers i s { s with m := answerPosted q.no status body y } q x.code status body := by
  obtain ⟨hcheck, hexec⟩ := exec_serves ha hx he hk hs hl hr hg
  refine answerPosted_answers ?_ (hc ▸ hy)
  rw [hexec, serveCmd]
  simp only [hcheck, hrun, ne_eq, not_true_eq_false, if_false]

/-- A command that goes on answers ACCEPTED, and its job is outstanding. -/
theorem long_answers (hc : c.code = x.code) {y : Mod} {k : JobKind} (hrun : c.run q (postRequest c.code q s.m) = { m := y, job := some k })
    (hy : asked (y.mailbox q.no) = asked ((postRequest c.code q s.m).mailbox q.no)) :
    Answers i s { s with m := answerPosted q.no 1 [] (addJob c q k y) } q x.code 1 [] := by
  obtain ⟨hcheck, hexec⟩ := exec_serves ha hx he hk hs hl hr hg
  refine answerPosted_answers (y := addJob c q k y) ?_ (hc ▸ hy)
  rw [hexec, serveCmd]
  simp only [hcheck, hrun, ne_eq, not_true_eq_false, if_false]

/-- A long-running command that changes nothing yet. -/
theorem long_begun (hc : c.code = x.code) {y : Mod} {k : JobKind} (hrun : c.run q (postRequest c.code q s.m) =
      { m := { y with mailboxes := (postRequest c.code q s.m).mailboxes }, job := some k })
    (hy : y.mailboxes = s.m.mailboxes) (hsess : y.sessId q.no = s.m.sessId q.no) : Begun i s q x.code k y := by
  obtain ⟨h1, h2⟩ := allowed_row ha hx
  unfold Begun Served
  rw [he, ha.wf, runIf_true, ← hc, served_long ha.takes ha.serves (check_passes (hk ▸ h1) (hs ▸ h2) hl hr hg) hrun hy hsess]

end

/-- Beside its mailbox an accepted request leaves one job more. -/
theorem answerPosted_addJob (c : Cmd) (q : Req) (k : JobKind) (y : Mod) :
    let t := answerPosted q.no 1 [] (addJob c q k y)
    (∃ j : Job, t.jobs = y.jobs ++ [j] ∧ j.kind = k ∧ j.mb = q.no) ∧ t.cores = y.cores ∧ t.regions = y.regions := by
  intro t
  obtain ⟨_, _, e⟩ := answerPosted_boxes q.no 1 [] (addJob c q k y)
  refine ⟨⟨_, (congrArg Mod.jobs e :), rfl, rfl⟩, (congrArg Mod.cores e :), (congrArg Mod.regions e :)⟩

/-! ### A long-running command completed -/

/-- A completion that ends its command. -/
theorem completeJob_ends {i : Instr} {s : State} {j : Job} {status : Nat} {body : List Byte} {y : Mod}
    (he : exec i s = .next { s with m := completeJob j status body y }) (hjobs : y.jobs = s.m.jobs) (hboxes : y.mailboxes = s.m.mailboxes) :
    Ends i s { s with m := completeJob j status body y } j status body := by
  have hmail : ∀ k, y.mailbox k = s.m.mailbox k := fun k => by rw [Mod.mailbox, Mod.mailbox, hboxes]
  refine ⟨he, rfl, ?_⟩
  unfold completeJob
  extract_lets m1 m2
  have h2 : m2.jobs = s.m.jobs.filter (fun x => !(x.mb == j.mb && x.seq == j.seq && x.command == j.command)) ∧
      m2.mailbox j.mb = { s.m.mailbox j.mb with
        cSeq := j.seq, cCommand := j.command, cStatus := BitVec.ofNat 16 status, cLength := BitVec.ofNat 32 body.length, cTag := j.tag
        cBody := body } := by
    refine ⟨by rw [← hjobs]; rfl, ?_⟩
    rw [← hmail j.mb]
    exact mailbox_onMailbox ..
  cases ho : j.orphan with
  | true => exact ⟨by rw [← hjobs]; rfl, fun _ => hboxes, fun h => (Bool.false_ne_true h.symm).elim⟩
  | false =>
    rw [if_neg Bool.false_ne_true]
    split
    · obtain ⟨h, e⟩ := sendMsix_host j.mb m2
      dsimp only
      rw [e]
      exact ⟨h2.1, fun h => (Bool.false_ne_true h).elim, fun _ => h2.2⟩
    · exact ⟨h2.1, fun h => (Bool.false_ne_true h).elim, fun _ => h2.2⟩

end Sys2Proof.Proofs
end

section
/-!
PROOFS. What a stop leaves: the requests in the mailboxes, the placements' images and the regions' gangs.
-/

namespace Sys2Proof.Proofs

open Sys2Proof Sys2Proof.Machine Sys2Proof.Laws

/-! ### What a stop leaves: the requests in the mailboxes, the placements' images and the regions' gangs -/

/-- The request in each mailbox, each placement's first gang and image, and the gang of each region. -/
def bound (m : Mod) : (Nat → W32 × W16 × W64) × List (Nat × Nat) × (Nat → Nat) :=
  (fun k => asked (m.mailbox k), m.placements.map (fun p => (p.g0, p.image)), fun r => (m.region r).run.gang)

theorem bound_onRegion (m : Mod) (r : Nat) {f : Region → Region} (h : ∀ g, (f g).run.gang = g.run.gang := by exact fun _ => rfl) :
    bound (m.onRegion r f) = bound m := by
  have hr : ∀ j, ((m.onRegion r f).region j).run.gang = (m.region j).run.gang := fun j => by
    rw [region_onRegion_ite]
    split
    · next e => rw [h, e]
    · rfl
  exact Prod.ext rfl (Prod.ext rfl (funext hr))

theorem bound_foldl {α : Type} {f : Mod → α → Mod} (h : ∀ m a, bound (f m a) = bound m) (l : List α) (m : Mod) : bound (l.foldl f m) = bound m :=
  foldl_keeps (R := fun a b => bound b = bound a) (fun _ => rfl) (fun _ _ _ h h' => h'.trans h) h l m

theorem bound_setCore (m : Mod) (k : Nat) (c : Core) : bound (m.setCore k c) = bound m := rfl

theorem bound_onCore (m : Mod) (k : Nat) (f : Core → Core) : bound (m.onCore k f) = bound m := rfl

theorem bound_onGang (m : Mod) (id : Nat) (f : Gang → Gang) : bound (m.onGang id f) = bound m := by
  unfold bound Mod.onGang
  rw [List.map_map]
  rfl

theorem bound_onMailbox (m : Mod) (k : Nat) {f : Mailbox → Mailbox} (h : ∀ b, asked (f b) = asked b := by exact fun _ => rfl) :
    bound (m.onMailbox k f) = bound m := by
  have hb : ∀ j, asked ((m.onMailbox k f).mailbox j) = asked (m.mailbox j) := fun j => by
    by_cases e : j = k
    · rw [e, mailbox_onMailbox, h]
    · rw [mailbox_onMailbox_other _ _ _ _ e]
  exact Prod.ext (funext hb) rfl

theorem bound_completeJob (j : Job) (status : Nat) (body : List Byte) (m : Mod) : bound (completeJob j status body m) = bound m := by
  unfold completeJob
  extract_lets m1 m2
  have h1 : bound m1 = bound m := rfl
  have h2 : bound m2 = bound m1 := bound_onMailbox ..
  split
  · exact h1
  · split
    · obtain ⟨_, e⟩ := sendMsix_host j.mb m2
      rw [e]
      exact h2.trans h1
    · exact h2.trans h1

theorem bound_floodNotice (n : NoticeIn) (except : Option Nat) (m : Mod) : bound (floodNotice n except m) = bound m := by
  obtain ⟨_, e⟩ := floodNotice_ports n except m
  rw [e]
  rfl

theorem bound_settleIssued (r : Nat) (m : Mod) : bound (settleIssued r m) = bound m := by
  unfold settleIssued
  exact (bound_onRegion ..).trans (bound_foldl (fun _ _ => bound_setCore ..) ..)

theorem bound_pruneBounds (r : Nat) (m : Mod) : bound (pruneBounds r m) = bound m := by
  unfold pruneBounds
  dsimp only
  split
  · rfl
  · exact (bound_onRegion ..).trans (bound_foldl (fun _ _ => bound_onCore ..) ..)

theorem bound_takeBoundary (r pos : Nat) (final : Bool) (m : Mod) : bound (takeBoundary r pos final m) = bound m :=
  (bound_pruneBounds ..).trans (bound_onRegion ..)

theorem bound_abandonWords (owned : W128 → Bool) (m : Mod) : bound (abandonWords owned m) = bound m :=
  bound_foldl (fun m _ => bound_foldl (fun _ _ => bound_onCore ..) _ m) ..

theorem bound_endSites (r : Nat) (sites : List Nat) (a : Mod × Nat) :
    bound (sites.foldl (fun (a : Mod × Nat) s => let x := endSite r s a.1; (x.1, a.2 + x.2)) a).1 = bound a.1 :=
  foldl_keeps (R := fun a b : Mod × Nat => bound b.1 = bound a.1) (f := fun a s => let x := endSite r s a.1; (x.1, a.2 + x.2))
    (fun _ => rfl) (fun _ _ _ h h' => h'.trans h) (fun _ _ => (bound_foldl (fun m _ => bound_onRegion m r) ..).trans (bound_setCore ..)) sites a

theorem bound_failPreempt (gang : Nat) (m : Mod) : bound (failPreempt gang m) = bound m := by
  unfold failPreempt
  split
  · rfl
  · split
    · rfl
    · refine (bound_completeJob ..).trans (bound_foldl (fun m g => bound_onRegion m _ fun x => ?_) ..)
      split <;> rfl

/-- No region's gang begins to run. -/
def Stops (m t : Mod) : Prop := ∀ j, (m.region j).run.running = false → (t.region j).run.running = false

theorem Stops.refl (m : Mod) : Stops m m := fun _ => id

theorem Stops.trans (a b c : Mod) (h : Stops a b) (h' : Stops b c) : Stops a c := fun j hj => h' j (h j hj)

theorem KeepsRuns.stops {m t : Mod} (h : KeepsRuns m t) : Stops m t := fun j hj => ((h.2 j).1).trans hj

/-- What a stop changes, what it leaves bound, and that it begins no run. -/
def StopOnly (m t : Mod) : Prop := GangEndOnly m t ∧ bound t = bound m ∧ Stops m t

theorem StopOnly.refl (m : Mod) : StopOnly m m := ⟨.refl m, rfl, .refl m⟩

theorem StopOnly.trans (a b c : Mod) (h : StopOnly a b) (h' : StopOnly b c) : StopOnly a c :=
  ⟨h.1.trans h'.1, h'.2.1.trans h.2.1, .trans _ _ _ h.2.2 h'.2.2⟩

theorem KeepsRuns.stopOnly {m t : Mod} (h : KeepsRuns m t) (hb : bound t = bound m) : StopOnly m t := ⟨h.1, hb, h.stops⟩

/-- The end of a part stops its region and begins no run. -/
theorem endPart_stops (r status : Nat) (m : Mod) :
    StopOnly m (endPart r status m) ∧ ((endPart r status m).region r).run.running = false := by
  unfold endPart
  extract_lets g m1
  split
  · next h => exact ⟨.refl m, by simpa [g] using h⟩
  · have h1 : StopOnly m m1 := by
      unfold m1
      split
      · exact (keepsRuns_takeBoundary ..).stopOnly (bound_takeBoundary ..)
      · exact .refl m
    split
    next m2 n hsites =>
    have h2 : StopOnly m1 m2 := by
      have := (keepsRuns_endSites r g.site (m1, 0)).stopOnly (bound_endSites r g.site (m1, 0))
      rwa [hsites] at this
    extract_lets m3 m4 m5
    have h3 : StopOnly m2 m3 := (keepsRuns_onGang ..).stopOnly (bound_onGang ..)
    have h4 : StopOnly m3 m4 := by
      refine ⟨gangEndOnly_onRegion .., bound_onRegion .., fun j hj => ?_⟩
      rw [region_onRegion_ite]
      split
      · rfl
      · exact hj
    have hr : (m4.region r).run.running = false := by rw [region_onRegion]
    have h5 : StopOnly m4 m5 := (keepsRuns_failPreempt ..).stopOnly (bound_failPreempt ..)
    have h := StopOnly.trans _ _ _ h1 (.trans _ _ _ h2 (.trans _ _ _ h3 (.trans _ _ _ h4 h5)))
    have hr := h5.2.2 r hr
    clear_value m5
    split
    · exact ⟨h, hr⟩
    · have h6 : ∀ n, StopOnly m5 (floodNotice n none (abandonWords (ownedLocal g.run.gang) m5)) := fun n =>
        (KeepsRuns.trans _ _ _ (keepsRuns_abandonWords ..) (keepsRuns_floodNotice ..)).stopOnly ((bound_floodNotice ..).trans (bound_abandonWords ..))
      exact ⟨.trans _ _ _ h (h6 _), (h6 _).2.2 r hr⟩

theorem stopPart_stops (status r : Nat) (m : Mod) : StopOnly m (stopPart status r m) ∧ ((stopPart status r m).region r).run.running = false := by
  unfold stopPart
  split
  · have h := endPart_stops r (endStatus (m.region r).seq.stopping status) (settleIssued r m)
    exact ⟨.trans _ _ _ ((keepsRuns_settleIssued r m).stopOnly (bound_settleIssued r m)) h.1, h.2⟩
  · next h => exact ⟨.refl m, by simpa using h⟩

theorem gang_of_bound {m t : Mod} (h : bound t = bound m) (r : Nat) : (t.region r).run.gang = (m.region r).run.gang :=
  congrFun (congrArg (fun x => x.2.2) h) r

theorem asked_of_bound {m t : Mod} (h : bound t = bound m) (k : Nat) : asked (t.mailbox k) = asked (m.mailbox k) :=
  congrFun (congrArg (fun x => x.1) h) k

/-- One part of a placement stopped where its region still holds it. -/
def stopGang (status : Nat) (m : Mod) (g : Gang) : Mod := if (m.region g.region).run.gang = g.id then stopPart status g.region m else m

theorem stopGang_stops (status : Nat) (m : Mod) (g : Gang) : StopOnly m (stopGang status m g) := by
  unfold stopGang
  split
  · exact (stopPart_stops ..).1
  · exact .refl m

theorem stopGangs_stops (status : Nat) (l : List Gang) (m : Mod) : StopOnly m (l.foldl (stopGang status) m) ∧
    ∀ g ∈ l, (m.region g.region).run.gang = g.id → ((l.foldl (stopGang status) m).region g.region).run.running = false := by
  induction l generalizing m with
  | nil => exact ⟨.refl m, fun g h => nomatch h⟩
  | cons a l ih =>
    have ha := stopGang_stops status m a
    obtain ⟨hl, hrun⟩ := ih (stopGang status m a)
    refine ⟨.trans _ _ _ ha hl, fun g hg hgang => ?_⟩
    rcases List.mem_cons.1 hg with rfl | hg
    · refine hl.2.2 _ ?_
      rw [stopGang, if_pos hgang]
      exact (stopPart_stops ..).2
    · exact hrun g hg ((gang_of_bound ha.2.1 _).trans hgang)

/-- A placement's stop ends every running part that its region still holds (R246). -/
theorem stopPlacement_stops (status g0 : Nat) (m : Mod) : StopOnly m (stopPlacement status g0 m) ∧
    ∀ p, m.placement g0 = some p → ∀ g ∈ p.gangs, (m.region g.region).run.gang = g.id →
      ((stopPlacement status g0 m).region g.region).run.running = false := by
  unfold stopPlacement
  split
  · next h => exact ⟨.refl m, fun p hp => by rw [h] at hp; exact nomatch hp⟩
  · next p h =>
    obtain ⟨hs, hr⟩ := stopGangs_stops status p.gangs m
    refine ⟨hs, fun p' hp => ?_⟩
    rw [h] at hp
    cases hp
    exact hr

end Sys2Proof.Proofs
end

section
/-!
PROOFS. The load of an image, and its end.
-/

namespace Sys2Proof.Proofs

open Sys2Proof Sys2Proof.Machine Sys2Proof.Laws

/-! ### The load of an image (R520) -/

theorem size_eq {q : Req} {n k : Nat} (h : q.body.length = n) (hk : (k + 3) / 4 * 4 = n) : q.size k = true := by
  rw [Req.size, h, hk]
  exact beq_self_eq_true n

theorem programLoad_begins {s : State} {q : Req} (ha : Allowed s.m (.programLoad q) q) (hsize : q.body.length = 16)
    (hprog : s.m.holds q.no 0 = true) (hlo : 128 ≤ q.fld 8 4) (hhi : q.fld 8 4 ≤ 2 ^ 30) (hlong : s.m.long q.no = false)
    (hstate : s.m.aon.state ≠ .standby) :
    Begun (.programLoad q) s q 0x30 (.load (BitVec.ofNat 64 (q.fld 0 8)) (q.fld 8 4) (q.fld 12 2 / 2 % 2 == 1) (q.fld 12 2 % 2 == 1)) s.m := by
  have hfree : leaveStandby (postRequest 0x30 q s.m) = postRequest 0x30 q s.m := if_neg hstate
  refine long_begun (c := programLoadCmd) ha rfl rfl rfl rfl ?_ ?_ (.inr hlong) rfl ?_ rfl rfl
  · show (q.size 0x0E && decide (128 ≤ q.fld 8 4 ∧ q.fld 8 4 ≤ 2 ^ 30)) = true
    rw [size_eq hsize rfl, Bool.true_and, decide_eq_true ⟨hlo, hhi⟩]
  · show (s.m.holds q.no 0 && true) = true
    rw [hprog, Bool.and_true]
  · show programLoadRun q (postRequest 0x30 q s.m) = _
    rw [programLoadRun, hfree]
    simp only [loadFlag, pow_one, pow_zero, Nat.div_one]
    rfl

/-- The copy of an image changes stock alone, and reads stock alone. -/
theorem copyImage_stock (f : Src) (len : Nat) (ps : List Nat) (l : List Image) (k : Nat) (m : Mod) :
    copyImage f len ps { m with images := l, nextImage := k } =
      { m with images := l, nextImage := k, stock := (copyImage f len ps m).stock } := by
  unfold copyImage
  generalize List.range ((len + 1023) / 1024) = cs
  induction cs generalizing m with
  | nil => rfl
  | cons c cs ih =>
    simp only [List.foldl_cons]
    exact ih (m.setChunk (pageChunk (ps.getD (c / 2048) 0) (c % 2048)) (imageChunk f len (1024 * c)))

/-- A long-running PROGRAM_LOAD. -/
def isLoad : JobKind → Bool
  | .load .. => true
  | _ => false

/-- The completed load of an image (R232, R520). -/
theorem programLoadDone_completes {m : Mod} {mb : Nat} {j : Job} {src : W64} {len : Nat} {interlock : Bool}
    (hj : Outstanding m mb isLoad j) (hk : j.kind = .load src len interlock false) :
    let f : Src := fun o => m.host.mem.get (src.toNat + o)
    (∀ st, loadImage j.session f len interlock m = .inr st → programLoadDone mb m = completeJob j st [] m) ∧
    ∀ i, loadImage j.session f len interlock m = .inl i →
      programLoadDone mb m = completeJob j 0 (le 2 i.id ++ le 1 i.parts.length ++ le 1 (b2n i.interlocked))
        { m with images := m.images ++ [i], nextImage := i.id % 65535 + 1, stock := (copyImage f len i.pages m).stock } := by
  intro f
  unfold programLoadDone
  split
  · next h => exact nomatch hj.symm.trans h
  · next j' h =>
    cases Option.some.inj (hj.symm.trans h)
    rw [hk]
    simp only [Bool.false_eq_true, if_false, false_and]
    refine ⟨fun st h => by rw [h], fun i h => ?_⟩
    rw [h, ← copyImage_stock]

theorem exec_programLoadDone (mb : Fin 31) (s : State) : exec (.programLoadDone mb) s = .next { s with m := programLoadDone mb.val s.m } := rfl

/-! ### Its end (PROGRAM_UNLOAD) -/

/-- A placement of an image stopped and released. -/
def freed (m : Mod) (g0 : Nat) : Mod := releasePlacement g0 (stopPlacement 1 g0 m)

theorem freed_frees (m : Mod) (g0 : Nat) : (freed m g0).images = m.images ∧ (∀ k, asked ((freed m g0).mailbox k) = asked (m.mailbox k)) ∧
    (freed m g0).placements.map (fun p => (p.g0, p.image)) = (m.placements.map (fun p => (p.g0, p.image))).filter (fun x => x.1 != g0) := by
  obtain ⟨⟨⟨_, _, _, _, _, _, _, he⟩, hb, -⟩, -⟩ := stopPlacement_stops 1 g0 m
  refine ⟨(congrArg Mod.images he :), fun k => (asked_of_bound hb k :), ?_⟩
  have hp : (stopPlacement 1 g0 m).placements.map (fun p => (p.g0, p.image)) = m.placements.map (fun p => (p.g0, p.image)) :=
    congrArg (fun x => x.2.1) hb
  rw [← hp, List.filter_map]
  rfl

theorem freed_all (l : List Nat) (m : Mod) : (l.foldl freed m).images = m.images ∧
    (∀ k, asked ((l.foldl freed m).mailbox k) = asked (m.mailbox k)) ∧
    ∀ x ∈ (l.foldl freed m).placements.map (fun p => (p.g0, p.image)), x ∈ m.placements.map (fun p => (p.g0, p.image)) ∧ x.1 ∉ l := by
  induction l generalizing m with
  | nil => exact ⟨rfl, fun _ => rfl, fun x hx => ⟨hx, List.not_mem_nil⟩⟩
  | cons g0 l ih =>
    obtain ⟨hi, hm, hp⟩ := freed_frees m g0
    obtain ⟨hi', hm', hp'⟩ := ih (freed m g0)
    refine ⟨hi'.trans hi, fun k => (hm' k).trans (hm k), fun x hx => ?_⟩
    obtain ⟨hx, hl⟩ := hp' x hx
    rw [hp, List.mem_filter] at hx
    exact ⟨hx.1, List.not_mem_cons_of_ne_of_not_mem (by simpa using hx.2) hl⟩

/-- An image unloaded is gone, and so are its placements; the requests in the mailboxes stay. -/
theorem unloadImage_unloads (i : Nat) (m : Mod) : (unloadImage i m).images = m.images.filter (fun x => x.id != i) ∧
    (∀ x ∈ (unloadImage i m).placements, x.image ≠ i) ∧ ∀ k, asked ((unloadImage i m).mailbox k) = asked (m.mailbox k) := by
  obtain ⟨hi, hm, hp⟩ := freed_all ((m.placements.filter (fun p => p.image == i)).map (·.g0)) m
  refine ⟨congrArg (List.filter (fun x : Image => x.id != i)) hi, fun x hx himage => ?_, hm⟩
  obtain ⟨hold, hnot⟩ := hp (x.g0, x.image) (List.mem_map_of_mem hx)
  obtain ⟨y, hy, hxy⟩ := List.mem_map.1 hold
  obtain ⟨h0, h1⟩ := Prod.mk.inj hxy
  exact hnot (List.mem_map.2 ⟨y, List.mem_filter.2 ⟨hy, by simp [h1, himage]⟩, h0⟩)

section
variable {s : State} {q : Req} (ha : Allowed s.m (.programUnload q) q) (hsize : q.body.length = 4) (hprog : s.m.holds q.no 0 = true)
include ha hsize hprog

theorem programUnload_fails (h : s.m.image (q.fld 0 2) = none) : Served (.programUnload q) s q 0x31 0x10A [] s.m := by
  have hnone : (postRequest 0x31 q s.m).image (q.fld 0 2) = none := h
  refine short_served (c := programUnloadCmd) ha rfl rfl rfl rfl rfl (size_eq hsize rfl) ?_ (.inl rfl) ?_ rfl
  · show (s.m.holds q.no 0 && s.m.ownsImage q.no (q.fld 0 2)) = true
    rw [hprog, Bool.true_and, Mod.ownsImage, h]
  · show programUnloadRun q (postRequest 0x31 q s.m) = _
    rw [programUnloadRun, hnone]
    rfl

theorem programUnload_answers {i : Image} (h : s.m.image (q.fld 0 2) = some i) (hown : s.m.owns q.no i.session = true) :
    ∃ t, Answers (.programUnload q) s t q 0x31 0 [] ∧
      t.m.images = s.m.images.filter (fun x => x.id != q.fld 0 2) ∧ ∀ x ∈ t.m.placements, x.image ≠ q.fld 0 2 := by
  have hsome : (postRequest 0x31 q s.m).image (q.fld 0 2) = some i := h
  obtain ⟨hi, hp, hm⟩ := unloadImage_unloads (q.fld 0 2) (postRequest 0x31 q s.m)
  have hans := short_answers (c := programUnloadCmd) (y := unloadImage (q.fld 0 2) (postRequest 0x31 q s.m)) (status := 0) (body := [])
    ha rfl rfl rfl rfl (size_eq hsize rfl) ?_ (.inl rfl) rfl ?_ (hm q.no)
  · refine ⟨_, hans, ?_⟩
    obtain ⟨_, _, e⟩ := answerPosted_boxes q.no 0 [] (unloadImage (q.fld 0 2) (postRequest 0x31 q s.m))
    dsimp only
    rw [e]
    exact ⟨hi, hp⟩
  · show (s.m.holds q.no 0 && s.m.ownsImage q.no (q.fld 0 2)) = true
    rw [hprog, Bool.true_and, Mod.ownsImage, h]
    exact hown
  · show programUnloadRun q (postRequest 0x31 q s.m) = _
    rw [programUnloadRun, hsome]
    rfl

end

end Sys2Proof.Proofs
end

section
/-!
PROOFS. A placement and its release.
-/

namespace Sys2Proof.Proofs

open Sys2Proof Sys2Proof.Machine Sys2Proof.Laws

/-! ### A placement (R521, R94) -/

/-- The gangs that a placement binds to regions. -/
def placedGangs (m : Mod) (i : Image) (rs : List Nat) (g0 : Nat) : List Gang :=
  (i.parts.zip rs).zipIdx.map (fun (x : (PartDecl × Nat) × Nat) =>
    ({ id := g0 + x.2, part := x.1.1.part, region := x.1.2, sites := (m.usableSites x.1.2).take x.1.1.cores } : Gang))

/-- The module with a placement of an image made. -/
def placed (m : Mod) (q : Req) (i : Image) (rs pages : List Nat) (g0 : Nat) : Mod :=
  { (placedGangs m i rs g0).foldl (fun m g => writePlaces g.sites m) m with
    nextGang := (g0 + i.parts.length - 1) % 65535 + 1
    placements := m.placements ++ [{ g0 := g0, session := m.sessId q.no, image := q.fld 0 2, gangs := placedGangs m i rs g0, sigs := placeSigs q
                                     partners := placePartners q, savePages := pages }] }

theorem foldl_boxes {α : Type} {b : Tab Mailbox} {f : Mod → α → Mod} (h : ∀ m a, f { m with mailboxes := b } a = { f m a with mailboxes := b })
    (l : List α) (m : Mod) : l.foldl f { m with mailboxes := b } = { l.foldl f m with mailboxes := b } := by
  induction l generalizing m with
  | nil => rfl
  | cons a l ih => rw [List.foldl_cons, h, ih, List.foldl_cons]

theorem writePlaces_boxes (sites : List Nat) (b : Tab Mailbox) (m : Mod) :
    writePlaces sites { m with mailboxes := b } = { writePlaces sites m with mailboxes := b } := foldl_boxes (fun _ _ => rfl) ..

/-- Placements, mailboxes and jobs are the same. -/
def SamePlacements (m t : Mod) : Prop := t.placements = m.placements ∧ t.mailboxes = m.mailboxes ∧ t.jobs = m.jobs

theorem SamePlacements.refl (m : Mod) : SamePlacements m m := ⟨rfl, rfl, rfl⟩

theorem SamePlacements.trans {a b c : Mod} (h : SamePlacements a b) (h' : SamePlacements b c) : SamePlacements a c :=
  ⟨h'.1.trans h.1, h'.2.1.trans h.2.1, h'.2.2.trans h.2.2⟩

theorem samePlacements_foldl {α : Type} {f : Mod → α → Mod} (h : ∀ m a, SamePlacements m (f m a)) (l : List α) (m : Mod) :
    SamePlacements m (l.foldl f m) :=
  foldl_keeps .refl (fun _ _ _ => .trans) h l m

theorem samePlacements_writePlaces (sites : List Nat) (m : Mod) : SamePlacements m (writePlaces sites m) :=
  samePlacements_foldl (f := fun m (x : Nat × Nat) => m.onCore x.1 (placeWords x.2 sites.length)) (fun _ _ => ⟨rfl, rfl, rfl⟩) ..

theorem writePlaces_placements (l : List Gang) (m : Mod) : SamePlacements m (l.foldl (fun m g => writePlaces g.sites m) m) :=
  samePlacements_foldl (fun m g => samePlacements_writePlaces g.sites m) l m

/-- Another mailbox table changes a placement's making no further. -/
theorem placed_boxes (q : Req) (i : Image) (rs pages : List Nat) (g0 : Nat) (b : Tab Mailbox) (m : Mod) :
    placed { m with mailboxes := b } q i rs pages g0 = { placed m q i rs pages g0 with mailboxes := b } := by
  unfold placed
  rw [foldl_boxes (fun m (g : Gang) => writePlaces_boxes g.sites b m)]
  rfl

theorem gangPlaceRun_places {m : Mod} {q : Req} {i : Image} {rs pages : List Nat} {g0 : Nat} (himage : m.image (q.fld 0 2) = some i)
    (hfree : ∀ x ∈ m.placements, x.image ≠ q.fld 0 2)
    (hchoose : chooseRegions (regionFits m (m.maskOf q.no)) (placeWant q i.parts.length) (i.parts.map (·.cores)) = some rs)
    (hfresh : freshIds m.nextGang i.parts.length m.gangIds = some g0)
    (hsigs : ∀ x ∈ placeSigs q, x.remote = false → x.gang ∈ m.gangIds ∨ (g0 ≤ x.gang ∧ x.gang < g0 + i.parts.length))
    (hquota : m.quotaUsed (m.sessId q.no) + savePagesOf i.parts ≤ m.quotaOf (m.sessId q.no))
    (hpages : m.tirixPages (savePagesOf i.parts) = some pages) (hrough : m.aon.state = .roughCut → placePartners q = []) :
    gangPlaceRun q m = { m := placed m q i rs pages g0, body := le 2 g0 ++ zeros 2 ++ regionBytes rs } := by
  have hparts : m.partsOf (q.fld 0 2) = i.parts := by rw [Mod.partsOf, himage]
  have hnone : ¬ ((m.image (q.fld 0 2)).isNone = true ∨ m.placements.any (fun p => p.image == q.fld 0 2) = true) := by
    rw [himage]
    simpa using hfree
  have hknown : ¬ ((placeSigs q).any (fun s => !s.remote && !(m.gangIds.contains s.gang || decide (g0 ≤ s.gang ∧ s.gang < g0 + i.parts.length))) = true) := by
    simp only [List.any_eq_true, not_exists, not_and]
    intro x hx h
    simp only [Bool.and_eq_true, Bool.not_eq_true', Bool.or_eq_false_iff, decide_eq_false_iff_not, List.contains_eq_mem] at h
    obtain ⟨hloc, hno, hrange⟩ := h
    exact (hsigs x hx hloc).elim hno hrange
  have hpart : ¬ (m.aon.state = .roughCut ∧ (!(placePartners q).isEmpty) = true) := fun ⟨h, h'⟩ => by
    rw [hrough h] at h'
    exact nomatch h'
  unfold gangPlaceRun
  dsimp only
  rw [hparts, if_neg hnone, hchoose, hfresh]
  dsimp only
  rw [if_neg hknown, if_neg (by omega), hpages]
  dsimp only
  rw [if_neg hpart, (writePlaces_placements ..).1]
  rfl

section
variable {s : State} {q : Req} {i : Image} (ha : Allowed s.m (.gangPlace q) q) (hsize : q.body.length = 0x328) (hprog : s.m.holds q.no 0 = true)
  (hsigs : q.byte 6 ≤ 32) (hwant : ∀ r ∈ (List.range i.parts.length).map (fun k => q.byte (8 + k)), r < 25 ∨ r = 0xFF)
  (himage : s.m.image (q.fld 0 2) = some i) (hown : s.m.owns q.no i.session = true)
include ha hsize hprog hsigs hwant himage hown

theorem gangPlace_served {y : Mod} {status : Nat} {body : List Byte}
    (hrun : gangPlaceRun q (postRequest 0x32 q s.m) = { m := { y with mailboxes := (postRequest 0x32 q s.m).mailboxes }, status := status, body := body })
    (hy : y.mailboxes = s.m.mailboxes) : Served (.gangPlace q) s q 0x32 status body y := by
  have himage' : (postRequest 0x32 q s.m).image (q.fld 0 2) = some i := himage
  have hparts : (postRequest 0x32 q s.m).partsOf (q.fld 0 2) = i.parts := by rw [Mod.partsOf, himage']
  refine short_served (c := gangPlaceCmd) ha rfl rfl rfl rfl rfl ?_ ?_ (.inl rfl) hrun hy
  · show placeLength (postRequest 0x32 q s.m) q = true
    rw [placeLength, size_eq hsize rfl, decide_eq_true hsigs, hparts, Bool.true_and, Bool.true_and, List.all_eq_true]
    intro r hr
    simpa using hwant r hr
  · show (s.m.holds q.no 0 && s.m.ownsImage q.no (q.fld 0 2)) = true
    rw [hprog, Bool.true_and, Mod.ownsImage, himage]
    exact hown

/-- An image already placed is placed no second time. -/
theorem gangPlace_fails (h : ∃ x ∈ s.m.placements, x.image = q.fld 0 2) : Served (.gangPlace q) s q 0x32 0x10A [] s.m := by
  refine gangPlace_served ha hsize hprog hsigs hwant himage hown ?_ rfl
  obtain ⟨x, hx, hi⟩ := h
  unfold gangPlaceRun
  exact if_pos (.inr (List.any_eq_true.2 ⟨x, hx, beq_iff_eq.2 hi⟩))

theorem gangPlace_places {rs pages : List Nat} {g0 : Nat} (hfree : ∀ x ∈ s.m.placements, x.image ≠ q.fld 0 2)
    (hchoose : chooseRegions (regionFits s.m (s.m.maskOf q.no)) (placeWant q i.parts.length) (i.parts.map (·.cores)) = some rs)
    (hfresh : freshIds s.m.nextGang i.parts.length s.m.gangIds = some g0)
    (hknown : ∀ x ∈ placeSigs q, x.remote = false → x.gang ∈ s.m.gangIds ∨ (g0 ≤ x.gang ∧ x.gang < g0 + i.parts.length))
    (hquota : s.m.quotaUsed (s.m.sessId q.no) + savePagesOf i.parts ≤ s.m.quotaOf (s.m.sessId q.no))
    (hpages : s.m.tirixPages (savePagesOf i.parts) = some pages) (hrough : s.m.aon.state = .roughCut → placePartners q = []) :
    Served (.gangPlace q) s q 0x32 0 (le 2 g0 ++ zeros 2 ++ regionBytes rs) (placed s.m q i rs pages g0) := by
  refine gangPlace_served ha hsize hprog hsigs hwant himage hown ?_ (writePlaces_placements ..).2.1
  rw [gangPlaceRun_places (m := postRequest 0x32 q s.m) himage hfree hchoose hfresh hknown hquota hpages hrough]
  exact congrArg (fun m => ({ m := m, body := le 2 g0 ++ zeros 2 ++ regionBytes rs } : Ans)) (placed_boxes ..)

end

/-! ### Its release (R522) -/

section
variable {s : State} {q : Req} {x : Placement} (ha : Allowed s.m (.gangPlaceRelease q) q) (hsize : q.body.length = 0x328)
  (hprog : s.m.holds q.no 0 = true) (hplaced : s.m.placement (q.fld 4 2) = some x) (hown : s.m.owns q.no x.session = true)
include ha hsize hprog hplaced hown

theorem gangPlaceRelease_served {y : Mod} {status : Nat}
    (hrun : gangReleaseRun q (postRequest 0x32 q s.m) = { m := { y with mailboxes := (postRequest 0x32 q s.m).mailboxes }, status := status })
    (hy : y.mailboxes = s.m.mailboxes) : Served (.gangPlaceRelease q) s q 0x32 status [] y := by
  refine short_served (c := gangReleaseCmd) ha rfl rfl rfl rfl rfl (size_eq hsize rfl) ?_ (.inl rfl) hrun hy
  show (s.m.holds q.no 0 && s.m.ownsPlacement q.no (q.fld 4 2)) = true
  rw [hprog, Bool.true_and, Mod.ownsPlacement, hplaced]
  exact hown

theorem gangPlaceRelease_fails (h : x.preempted = true ∨ ∃ g ∈ x.gangs, g.running = true) :
    Served (.gangPlaceRelease q) s q 0x32 0x10A [] s.m := by
  refine gangPlaceRelease_served ha hsize hprog hplaced hown ?_ rfl
  have hplaced' : (postRequest 0x32 q s.m).placement (q.fld 4 2) = some x := hplaced
  rw [gangReleaseRun, hplaced']
  exact if_pos (h.imp id (fun h => List.any_eq_true.2 h))

theorem gangPlaceRelease_frees (hpre : x.preempted = false) (hrun : ∀ g ∈ x.gangs, g.running = false) :
    Served (.gangPlaceRelease q) s q 0x32 0 [] { s.m with placements := s.m.placements.filter (fun y => y.g0 != x.g0) } := by
  refine gangPlaceRelease_served ha hsize hprog hplaced hown ?_ rfl
  have hplaced' : (postRequest 0x32 q s.m).placement (q.fld 4 2) = some x := hplaced
  rw [gangReleaseRun, hplaced']
  exact if_neg (by simpa [hpre] using hrun)

end

end Sys2Proof.Proofs
end

section
/-!
PROOFS. GANG_STOP, GANG_PREEMPT, the end of a resume, and GANG_STATUS.
-/

namespace Sys2Proof.Proofs

open Sys2Proof Sys2Proof.Machine Sys2Proof.Laws

theorem placement_g0 {m : Mod} {k : Nat} {p : Placement} (h : m.placement k = some p) : p.g0 = k := by
  simpa using List.find?_some h

/-! ### GANG_STOP (R246, R524) -/

section
variable {s : State} {q : Req} {p : Placement} (ha : Allowed s.m (.gangStop q) q) (hsize : q.body.length = 4) (hprog : s.m.holds q.no 0 = true)
  (hplaced : s.m.placement (q.fld 0 2) = some p) (hown : s.m.owns q.no p.session = true)
include ha hsize hprog hplaced hown

theorem gangStop_fails (h : ∀ g ∈ p.gangs, g.running = false) : Served (.gangStop q) s q 0x34 0x10A [] s.m := by
  have hplaced' : (postRequest 0x34 q s.m).placement (q.fld 0 2) = some p := hplaced
  refine short_served (c := gangStopCmd) ha rfl rfl rfl rfl rfl (size_eq hsize rfl) ?_ (.inl rfl) ?_ rfl
  · show (s.m.holds q.no 0 && s.m.ownsPlacement q.no (q.fld 0 2)) = true
    rw [hprog, Bool.true_and, Mod.ownsPlacement, hplaced]
    exact hown
  · show gangStopRun q (postRequest 0x34 q s.m) = _
    rw [gangStopRun, hplaced']
    exact if_neg (by simpa using h)

theorem gangStop_stops (h : ∃ g ∈ p.gangs, g.running = true) : ∃ t, Answers (.gangStop q) s t q 0x34 0 [] ∧
    ∀ g ∈ p.gangs, (s.m.region g.region).run.gang = g.id → (t.m.region g.region).run.running = false := by
  have hplaced' : (postRequest 0x34 q s.m).placement (q.fld 0 2) = some p := hplaced
  obtain ⟨⟨-, hb, -⟩, hstop⟩ := stopPlacement_stops 1 p.g0 (postRequest 0x34 q s.m)
  have hans := short_answers (c := gangStopCmd) (y := stopPlacement 1 p.g0 (postRequest 0x34 q s.m)) (status := 0) (body := [])
    ha rfl rfl rfl rfl (size_eq hsize rfl) ?_ (.inl rfl) rfl ?_ (asked_of_bound hb q.no)
  · refine ⟨_, hans, fun g hg hgang => ?_⟩
    obtain ⟨_, _, e⟩ := answerPosted_boxes q.no 0 [] (stopPlacement 1 p.g0 (postRequest 0x34 q s.m))
    dsimp only
    rw [e]
    exact hstop p (by rw [placement_g0 hplaced]; exact hplaced) g hg hgang
  · show (s.m.holds q.no 0 && s.m.ownsPlacement q.no (q.fld 0 2)) = true
    rw [hprog, Bool.true_and, Mod.ownsPlacement, hplaced]
    exact hown
  · show gangStopRun q (postRequest 0x34 q s.m) = _
    rw [gangStopRun, hplaced']
    exact if_pos (List.any_eq_true.2 h)

end

/-! ### GANG_PREEMPT (R241) -/

/-- A part's region asked to pre-empt. -/
def askPreempt (m : Mod) (g : Gang) : Mod :=
  m.onRegion g.region (fun x => if x.run.gang = g.id then { x with run := { x.run with preempting := true } } else x)

theorem askPreempt_region (m : Mod) (g : Gang) (j : Nat) : ((askPreempt m g).region j).run.gang = (m.region j).run.gang ∧
    ((m.region j).run.preempting = true → ((askPreempt m g).region j).run.preempting = true) := by
  unfold askPreempt
  rw [region_onRegion_ite]
  split
  · next e =>
    subst e
    split
    · exact ⟨rfl, fun _ => rfl⟩
    · exact ⟨rfl, id⟩
  · exact ⟨rfl, id⟩

/-- Every part that its region still holds is asked to pre-empt; only regions change. -/
theorem askPreempts_ask (l : List Gang) (m : Mod) : (∃ regions, l.foldl askPreempt m = { m with regions := regions }) ∧
    (∀ j, ((l.foldl askPreempt m).region j).run.gang = (m.region j).run.gang ∧
      ((m.region j).run.preempting = true → ((l.foldl askPreempt m).region j).run.preempting = true)) ∧
    ∀ g ∈ l, (m.region g.region).run.gang = g.id → ((l.foldl askPreempt m).region g.region).run.preempting = true := by
  induction l generalizing m with
  | nil => exact ⟨⟨m.regions, rfl⟩, fun _ => ⟨rfl, id⟩, fun g h => nomatch h⟩
  | cons a l ih =>
    obtain ⟨⟨regions, e⟩, hkeep, hask⟩ := ih (askPreempt m a)
    refine ⟨⟨regions, e⟩, fun j => ?_, fun g hg hgang => ?_⟩
    · obtain ⟨h1, h2⟩ := askPreempt_region m a j
      exact ⟨(hkeep j).1.trans h1, fun h => (hkeep j).2 (h2 h)⟩
    · rcases List.mem_cons.1 hg with rfl | hg
      · refine (hkeep _).2 ?_
        rw [askPreempt, region_onRegion, if_pos hgang]
      · exact hask g hg ((askPreempt_region m a _).1.trans hgang)

section
variable {s : State} {q : Req} {p : Placement} (ha : Allowed s.m (.gangPreempt q) q) (hsize : q.body.length = 4) (hprog : s.m.holds q.no 0 = true)
  (hplaced : s.m.placement (q.fld 0 2) = some p) (hown : s.m.owns q.no p.session = true) (hlong : s.m.long q.no = false)
include ha hsize hprog hplaced hown hlong

theorem gangPreempt_fails (h : ∃ g ∈ p.gangs, g.running = false) : Served (.gangPreempt q) s q 0x35 0x10A [] s.m := by
  have hplaced' : (postRequest 0x35 q s.m).placement (q.fld 0 2) = some p := hplaced
  refine short_served (c := gangPreemptCmd) ha rfl rfl rfl rfl rfl (size_eq hsize rfl) ?_ (.inr hlong) ?_ rfl
  · show (s.m.holds q.no 0 && s.m.ownsPlacement q.no (q.fld 0 2)) = true
    rw [hprog, Bool.true_and, Mod.ownsPlacement, hplaced]
    exact hown
  · show gangPreemptRun q (postRequest 0x35 q s.m) = _
    rw [gangPreemptRun, hplaced']
    exact if_pos (by simpa using h)

theorem gangPreempt_asks (h : ∀ g ∈ p.gangs, g.running = true) : ∃ t, Answers (.gangPreempt q) s t q 0x35 1 [] ∧
    (∃ y : Job, t.m.jobs = s.m.jobs ++ [y] ∧ y.kind = .preempt p.g0 ∧ y.mb = q.no) ∧ t.m.cores = s.m.cores ∧
    ∀ g ∈ p.gangs, (s.m.region g.region).run.gang = g.id → (t.m.region g.region).run.preempting = true := by
  have hplaced' : (postRequest 0x35 q s.m).placement (q.fld 0 2) = some p := hplaced
  obtain ⟨⟨regions, e⟩, -, hask⟩ := askPreempts_ask p.gangs (postRequest 0x35 q s.m)
  have hans := long_answers (c := gangPreemptCmd) (y := p.gangs.foldl askPreempt (postRequest 0x35 q s.m)) (k := .preempt p.g0)
    ha rfl rfl rfl rfl (size_eq hsize rfl) ?_ (.inr hlong) rfl ?_ (by rw [e]; rfl)
  · obtain ⟨hjob, hcores, hregions⟩ := answerPosted_addJob gangPreemptCmd q (.preempt p.g0) (p.gangs.foldl askPreempt (postRequest 0x35 q s.m))
    rw [show (p.gangs.foldl askPreempt (postRequest 0x35 q s.m)).jobs = s.m.jobs from (congrArg Mod.jobs e :)] at hjob
    refine ⟨_, hans, hjob, hcores.trans (congrArg Mod.cores e :), fun g hg hgang => ?_⟩
    simp only [Mod.region, hregions]
    exact hask g hg hgang
  · show (s.m.holds q.no 0 && s.m.ownsPlacement q.no (q.fld 0 2)) = true
    rw [hprog, Bool.true_and, Mod.ownsPlacement, hplaced]
    exact hown
  · show gangPreemptRun q (postRequest 0x35 q s.m) = _
    rw [gangPreemptRun, hplaced']
    exact if_neg (by simpa using h)

end

/-! ### GANG_RESUME_DONE (R244) -/

/-- A long-running GANG_RESUME. -/
def isResume : JobKind → Bool
  | .resume .. => true
  | _ => false

/-- A resume completes when a part has ended or every part has issued its PREEMPT_POINT again. -/
theorem gangResumeDone_completes {m : Mod} {mb : Nat} {j : Job} {g0 : Nat} {b : W64} {p : Placement} (hj : Outstanding m mb isResume j)
    (hk : j.kind = .resume g0 b) (hp : m.placement g0 = some p) : gangResumeDone mb m =
      if !p.gangs.all (·.running) then completeJob j 0x10A [] m
      else if p.gangs.all (fun g => !(m.region g.region).seq.resumeIssue) then completeJob j 0 (bytesOf b 8) m else m := by
  unfold gangResumeDone
  split
  · next h => exact nomatch hj.symm.trans h
  · next j' h =>
    cases Option.some.inj (hj.symm.trans h)
    rw [hk]
    dsimp only
    rw [hp]
    rfl

theorem exec_gangResumeDone (mb : Fin 31) (s : State) : exec (.gangResumeDone mb) s = .next { s with m := gangResumeDone mb.val s.m } := rfl

/-! ### GANG_STATUS (Table 14.11) -/

section
variable {s : State} {q : Req} (ha : Allowed s.m (.gangStatus q) q) (hsize : q.body.length = 4) (hobs : s.m.observesGang q.no (q.fld 0 2) = true)
include ha hsize hobs

theorem gangStatus_fails (h : s.m.placementOf (q.fld 0 2) = none) : Served (.gangStatus q) s q 0x37 0x10A [] s.m := by
  have hnone : (postRequest 0x37 q s.m).placementOf (q.fld 0 2) = none := h
  refine short_served (c := gangStatusCmd) ha rfl rfl rfl rfl rfl (size_eq hsize rfl) hobs (.inl rfl) ?_ rfl
  show gangStatusRun q (postRequest 0x37 q s.m) = _
  rw [gangStatusRun, hnone]
  rfl

theorem gangStatus_reports {p : Placement} {g : Gang} (hp : s.m.placementOf (q.fld 0 2) = some p)
    (hg : p.gangs.find? (fun x => x.id == q.fld 0 2) = some g) :
    Served (.gangStatus q) s q 0x37 0 (statusBody s.m p g (q.fld 2 2 % 2 == 1)) s.m := by
  have hsome : (postRequest 0x37 q s.m).placementOf (q.fld 0 2) = some p := hp
  refine short_served (c := gangStatusCmd) ha rfl rfl rfl rfl rfl (size_eq hsize rfl) hobs (.inl rfl) ?_ rfl
  show gangStatusRun q (postRequest 0x37 q s.m) = _
  rw [gangStatusRun, hsome, Option.bind_some, hg]
  rfl

end

/-- The status report of a gang, field by field. -/
theorem statusBody_fields (m : Mod) (p : Placement) (g : Gang) (report : Bool) :
    let x := m.region g.region
    let pick (a b : Nat) : Nat := if g.running then a else b
    let word := pick 0xFF g.status * 2 ^ 24 + pick 1 0 * 2 ^ 23 + 2 ^ 22 + pick (b2n x.run.preempting) 0 * 2 ^ 21 +
      pick (b2n x.run.tickVoid) (b2n g.tickVoid) * 2 ^ 20 + pick (b2n x.run.cycleVoid) (b2n g.cycleVoid) * 2 ^ 19 +
      b2n (((m.image p.image).map (·.interlocked)).getD false) * 2 ^ 18 + g.part * 2 ^ 13 + g.region * 2 ^ 8 +
      pick x.run.admitted g.admitted * 2 ^ 4 + (if x.run.gang = g.id then x.step else 0)
    statusBody m p g report = le 4 word ++ le 2 (pick x.seq.addr g.bundle % 2 ^ 15) ++ zeros 2 ++ bytesOf p.runBase 8 ++
      le 8 (pick x.seq.kerfBase g.kerfBase.toNat) ++ le 8 (pick x.seq.pos g.position.toNat) ++ le 8 (pick x.seq.g.toNat g.gstep.toNat) ++
      (if report then stallReport m g.id g.region else []) := by
  intro x pick word
  unfold statusBody
  dsimp only
  have hword : word = (if g.running then 0xFF else g.status) * 2 ^ 24 + (b2n g.running * 2 ^ 23 + 2 ^ 22 + b2n (g.running && x.run.preempting) * 2 ^ 21 +
      b2n (if g.running then x.run.tickVoid else g.tickVoid) * 2 ^ 20 + b2n (if g.running then x.run.cycleVoid else g.cycleVoid) * 2 ^ 19 +
      b2n (((m.image p.image).map (·.interlocked)).getD false) * 2 ^ 18 + g.part * 2 ^ 13 + g.region * 2 ^ 8 +
      (if g.running then x.run.admitted else g.admitted) * 16 + (if x.run.gang = g.id then x.step else 0)) := by
    unfold word pick
    cases g.running with
    | true => simp only [if_true, Bool.true_and, b2n, Nat.add_assoc, show 2 ^ 4 = 16 from rfl]
    | false => simp only [Bool.false_eq_true, if_false, Bool.false_and, b2n, Nat.add_assoc, show 2 ^ 4 = 16 from rfl]
  rw [hword]
  unfold pick
  cases m.image p.image with
  | none => cases g.running <;> rfl
  | some i => cases g.running <;> rfl

end Sys2Proof.Proofs
end

section
/-!
PROOFS. Waking regions, and a part started on its region.
-/

namespace Sys2Proof.Proofs

open Sys2Proof Sys2Proof.Machine Sys2Proof.Laws

/-! ### Waking regions (R576) -/

/-- The clock of a region is not stopped. -/
def Awake (g : Region) : Prop := g.dom ≠ .sleep ∧ g.dom ≠ .off

/-- Outside one region every region is the same. -/
def ElsewhereSame (r : Nat) (m t : Mod) : Prop := SamePlacements m t ∧ ∀ j, j ≠ r → t.region j = m.region j

theorem ElsewhereSame.trans {r : Nat} {a b c : Mod} (h : ElsewhereSame r a b) (h' : ElsewhereSame r b c) : ElsewhereSame r a c :=
  ⟨h.1.trans h'.1, fun j hj => (h'.2 j hj).trans (h.2 j hj)⟩

theorem ElsewhereSame.refl (r : Nat) (m : Mod) : ElsewhereSame r m m := ⟨.refl m, fun _ _ => rfl⟩

theorem elsewhereSame_onRegion (r : Nat) (m : Mod) (f : Region → Region) : ElsewhereSame r m (m.onRegion r f) :=
  ⟨⟨rfl, rfl, rfl⟩, fun _ h => region_onRegion_other _ _ _ _ h⟩

/-- A module whose regions and placements are the same. -/
theorem elsewhereSame_of_regions {r : Nat} {m t : Mod} (h : SamePlacements m t) (hr : t.regions = m.regions) : ElsewhereSame r m t :=
  ⟨h, fun j _ => by rw [Mod.region, Mod.region, hr]⟩

theorem leaveStandby_same (m : Mod) : SamePlacements m (leaveStandby m) ∧ (leaveStandby m).regions = m.regions := by
  unfold leaveStandby
  split <;> exact ⟨.refl _, rfl⟩

theorem applyChange_elsewhere (r : Nat) (m : Mod) : ElsewhereSame r m (applyChange r m) := by
  unfold applyChange
  extract_lets g pick endTrace m1
  have h1 : ElsewhereSame r m m1 := elsewhereSame_onRegion ..
  split
  · exact .refl r m
  · split
    · exact h1
    · refine ElsewhereSame.trans ?_ (elsewhereSame_onRegion ..)
      split
      · exact h1.trans (elsewhereSame_onRegion ..)
      · exact h1

theorem wakeRegion_wakes (r step : Nat) (m : Mod) : ElsewhereSame r m (wakeRegion r step m) ∧ Awake ((wakeRegion r step m).region r) ∧
    (Awake (m.region r) → wakeRegion r step m = m) := by
  unfold wakeRegion
  extract_lets g due s m1 m2
  split
  · next h =>
    have h1 : ElsewhereSame r m m1 := elsewhereSame_of_regions (leaveStandby_same m).1 (leaveStandby_same m).2
    have h2 : ElsewhereSame r m m2 := by
      unfold m2
      split
      · exact h1.trans (applyChange_elsewhere r m1)
      · exact h1
    refine ⟨h2.trans (elsewhereSame_onRegion ..), ?_, fun ⟨hs, ho⟩ => (h.elim hs ho).elim⟩
    rw [Awake, region_onRegion]
    exact ⟨(by decide : DomState.awake ≠ .sleep), (by decide : DomState.awake ≠ .off)⟩
  · next h =>
    exact ⟨.refl r m, ⟨fun e => h (.inl e), fun e => h (.inr e)⟩, fun _ => rfl⟩

theorem wakeFor_wakes (b : Begin) (m : Mod) : ElsewhereSame b.region m (wakeFor b m) ∧ Awake ((wakeFor b m).region b.region) := by
  obtain ⟨he, ha, -⟩ := wakeRegion_wakes b.region b.step m
  unfold wakeFor
  rw [switchStep_stepped]
  refine ⟨he.trans (elsewhereSame_onRegion ..), ?_⟩
  obtain ⟨_, _, hs, -⟩ := stepped_leaves ((wakeRegion b.region b.step m).underCeiling b.region b.step) ((wakeRegion b.region b.step m).region b.region)
  rw [region_onRegion, hs]
  exact ha

/-- Regions that are awake keep what they are. -/
def AwakeSame (m t : Mod) : Prop := SamePlacements m t ∧ ∀ j, Awake (m.region j) → t.region j = m.region j

theorem AwakeSame.refl (m : Mod) : AwakeSame m m := ⟨.refl m, fun _ _ => rfl⟩

theorem AwakeSame.trans (a b c : Mod) (h : AwakeSame a b) (h' : AwakeSame b c) : AwakeSame a c :=
  ⟨h.1.trans h'.1, fun j hj => (h'.2 j (by rw [h.2 j hj]; exact hj)).trans (h.2 j hj)⟩

theorem wakeRegion_awakeSame (r step : Nat) (m : Mod) : AwakeSame m (wakeRegion r step m) := by
  obtain ⟨⟨hp, he⟩, -, hsame⟩ := wakeRegion_wakes r step m
  refine ⟨hp, fun j hj => ?_⟩
  by_cases e : j = r
  · subst e
    rw [hsame hj]
  · exact he j e

/-- The regions that carry a placement's routes are woken; those awake keep what they are. -/
theorem wakeRoutes_awakeSame (g0 : Nat) (m : Mod) : AwakeSame m (wakeRoutes g0 m) := by
  unfold wakeRoutes
  split
  · exact .refl m
  · refine foldl_keeps .refl .trans (fun m r => ?_) _ m
    split
    · exact wakeRegion_awakeSame r 1 m
    · exact .refl m

/-! ### The parts begun on their regions -/

/-- A fold over parts on regions of their own leaves each region as its part's step left it. -/
theorem foldl_region {f : Mod → Begin → Mod} {P : Begin → Region → Prop} (l : List Begin) (hn : (l.map (·.region)).Nodup)
    (hother : ∀ m b j, j ≠ b.region → (f m b).region j = m.region j) (hsame : ∀ b ∈ l, ∀ m, P b ((f m b).region b.region)) (m : Mod) :
    ∀ b ∈ l, P b ((l.foldl f m).region b.region) := by
  have hkeep : ∀ (l : List Begin) (m : Mod) (j : Nat), j ∉ l.map (·.region) → (l.foldl f m).region j = m.region j := by
    intro l
    induction l with
    | nil => exact fun _ _ _ => rfl
    | cons b l ih =>
      intro m j hj
      rw [List.map_cons, List.mem_cons, not_or] at hj
      exact (ih _ j hj.2).trans (hother m b j hj.1)
  induction l generalizing m with
  | nil => exact fun b hb => nomatch hb
  | cons a l ih =>
    rw [List.map_cons, List.nodup_cons] at hn
    intro b hb
    rcases List.mem_cons.1 hb with rfl | hb
    · rw [List.foldl_cons, hkeep l _ _ hn.1]
      exact hsame _ List.mem_cons_self m
    · exact ih hn.2 (fun b hb => hsame b (List.mem_cons_of_mem _ hb)) (f m a) b hb

theorem foldl_onCore_same {α : Type} (k : α → Nat) (f : Mod → α → Core → Core) (l : List α) (m : Mod) :
    SamePlacements m (l.foldl (fun m x => m.onCore (k x) (f m x)) m) ∧ (l.foldl (fun m x => m.onCore (k x) (f m x)) m).regions = m.regions :=
  foldl_keeps (R := fun a b : Mod => SamePlacements a b ∧ b.regions = a.regions) (fun m => ⟨.refl m, rfl⟩)
    (fun _ _ _ h h' => ⟨h.1.trans h'.1, h'.2.trans h.2⟩) (f := fun m x => m.onCore (k x) (f m x)) (fun _ _ => ⟨⟨rfl, rfl, rfl⟩, rfl⟩) l m

theorem scrubRegion_same (r sess : Nat) (m : Mod) : SamePlacements m (scrubRegion r sess m) ∧ (scrubRegion r sess m).regions = m.regions := by
  unfold scrubRegion
  dsimp only
  split
  · exact foldl_onCore_same id (fun _ _ => scrubCore) ..
  · exact ⟨.refl m, rfl⟩

theorem widthCores_same (r sess : Nat) (half : Bool) (sites : List Nat) (m : Mod) :
    SamePlacements m (widthCores r sess half sites m) ∧ (widthCores r sess half sites m).regions = m.regions := by
  unfold widthCores
  dsimp only
  split
  · exact foldl_onCore_same id (fun n k c => { c with arr := { c.arr with acc := Mem.undef (n.freeCtr + k) } }) sites { m with freeCtr := m.freeCtr + 25600 }
  · exact ⟨.refl m, rfl⟩

/-! ### A part started (Table 6.1) -/

/-- A region that runs a part from its start. -/
def Started (sess base : Nat) (gstep layer : W64) (b : Begin) (x : Region) : Prop :=
  Awake x ∧ x.decl = b.decl ∧ x.site = b.sites ∧ x.run.gang = b.gang ∧ x.run.session = sess ∧ x.run.running = true ∧ x.run.ended = false ∧
  x.run.admitted = b.step ∧ x.seq.addr = b.decl.entry ∧ x.seq.pos = 0 ∧ x.seq.kerfBase = base ∧ x.seq.g = gstep ∧ x.dig.layerBase = layer

theorem begun_started {b : Begin} {g : Region} (h : Awake g) (sess : Nat) (i : Image) (rough maskOpen : Bool) (base : Nat) (gstep layer : W64) :
    Started sess base gstep layer b (beginSeq b base gstep layer (beginRun b sess i rough false maskOpen g)) :=
  ⟨h, rfl, rfl, rfl, rfl, rfl, rfl, rfl, rfl, rfl, rfl, rfl, rfl⟩

theorem beginInterval_started {sess base : Nat} {gstep layer : W64} {b : Begin} {m : Mod} (ticks : Bool) (len eclass : Nat)
    (h : Started sess base gstep layer b (m.region b.region)) :
    Started sess base gstep layer b ((beginInterval b.region ticks len eclass m).region b.region) := by
  unfold beginInterval
  rw [region_onRegion]
  split
  · exact h
  · exact h

/-- A gang that a start has set running. -/
def setRunning (b : Begin) (rough : Bool) (g : Gang) : Gang :=
  { g with sites := b.sites, started := true, running := true, status := 0xFF, rough := rough, boundaries := 0, saved := none }

theorem startPart_starts (p : Placement) (i : Image) (base : Nat) (seed gstep layer : W64) (m : Mod) (b : Begin) :
    ∃ n, startPart p i base seed gstep layer m b = n.onGang b.gang (setRunning b (m.aon.state == .roughCut)) ∧ ElsewhereSame b.region m n ∧
      Started p.session base gstep layer b (n.region b.region) := by
  unfold startPart
  extract_lets maskOpen rough m1 m2 m3 m4
  obtain ⟨hwake, hawake⟩ := wakeFor_wakes b m
  have h1 : SamePlacements (wakeFor b m) m1 ∧ m1.regions = (wakeFor b m).regions := by
    obtain ⟨hs, hr⟩ := scrubRegion_same b.region p.session (wakeFor b m)
    obtain ⟨hs', hr'⟩ := widthCores_same b.region p.session b.decl.halfWidth b.sites (scrubRegion b.region p.session (wakeFor b m))
    exact ⟨hs.trans hs', hr'.trans hr⟩
  have h2 : SamePlacements m1 m2 ∧ m2.regions = m1.regions :=
    foldl_onCore_same (fun x : Nat × Nat => x.1) (fun _ x c => startCore p b.decl x.2 seed gstep (gateCore b.decl c)) ..
  have hcore : ElsewhereSame b.region (wakeFor b m) m2 := elsewhereSame_of_regions (h1.1.trans h2.1) (h2.2.trans h1.2)
  have hregion : m2.region b.region = (wakeFor b m).region b.region := by rw [Mod.region, Mod.region, h2.2, h1.2]
  have h3 : m3.region b.region = beginSeq b base gstep layer (beginRun b p.session i rough false maskOpen (m2.region b.region)) := region_onRegion ..
  have hstarted : Started p.session base gstep layer b (m3.region b.region) := by
    rw [h3, hregion]
    exact begun_started hawake ..
  have he : ElsewhereSame b.region m2 m3 := elsewhereSame_onRegion ..
  have he' : ElsewhereSame b.region m3 m4 := elsewhereSame_onRegion ..
  exact ⟨m4, rfl, (hwake.trans hcore).trans (he.trans he'), beginInterval_started _ _ _ hstarted⟩

end Sys2Proof.Proofs
end

section
/-!
PROOFS. GANG_START: the parts of a placement begun in order, and the placement that runs.
-/

namespace Sys2Proof.Proofs

open Sys2Proof Sys2Proof.Machine Sys2Proof.Laws

/-! ### The parts of a placement in order -/

theorem admitLoop_length {other limit : Nat} {ds : List PartDecl} : ∀ {n : Nat} {steps out : List Nat},
    admitLoop other limit ds n steps = some out → out.length = steps.length := by
  intro n
  induction n with
  | zero => exact fun h => nomatch h
  | succ n ih =>
    intro steps out h
    rw [admitLoop] at h
    dsimp only at h
    split at h
    · exact Option.some.inj h ▸ rfl
    · split at h
      · split at h
        · exact nomatch h
        · exact (ih h).trans List.length_set
      · exact nomatch h

/-- Each part is admitted at one step. -/
theorem admitParts_length {m : Mod} {rs : List Nat} {ds : List PartDecl} {steps : List Nat} (h : admitParts m rs ds = some steps) :
    steps.length = ds.length := by
  unfold admitParts at h
  dsimp only at h
  split at h
  · rw [admitLoop_length h, List.length_map, List.length_map]
  · exact nomatch h

/-- A part of a placement as it begins. -/
def beginOf (m : Mod) (g : Gang) (d : PartDecl) (step : Nat) : Begin :=
  { gang := g.id, part := g.part, region := g.region, sites := (m.usableSites g.region).take d.cores, step := step, decl := d }

theorem beginsOf_mem {m : Mod} {p : Placement} {ds : List PartDecl} {steps : List Nat} (hs : steps.length = ds.length) {k : Nat} {g : Gang} {d : PartDecl}
    (hg : p.gangs[k]? = some g) (hd : ds[k]? = some d) : beginOf m g d (steps.getD k 0) ∈ beginsOf m p ds steps := by
  obtain ⟨hk, -⟩ := List.getElem?_eq_some_iff.1 hd
  have hstep : steps[k]? = some (steps.getD k 0) := by
    rw [List.getD_eq_getElem?_getD, List.getElem?_eq_getElem (hs ▸ hk)]
    rfl
  refine List.mem_map.2 ⟨(g, d, steps.getD k 0), List.mem_of_getElem? (i := k) ?_, rfl⟩
  rw [List.getElem?_zip_eq_some]
  refine ⟨hg, ?_⟩
  rw [List.getElem?_zip_eq_some]
  exact ⟨hd, hstep⟩

/-- Every gang of the placement begins, in order. -/
theorem beginsOf_map {α : Type} {m : Mod} {p : Placement} {ds : List PartDecl} {steps : List Nat} (hs : steps.length = ds.length)
    (hp : p.gangs.length = ds.length) {f : Begin → α} {f' : Gang → α} (hf : ∀ g d k, f (beginOf m g d k) = f' g) :
    (beginsOf m p ds steps).map f = p.gangs.map f' := by
  have hzip : p.gangs = (p.gangs.zip (ds.zip steps)).map Prod.fst := by
    rw [List.map_fst_zip]
    rw [List.length_zip]
    omega
  conv_rhs => rw [hzip]
  rw [beginsOf, List.map_map, List.map_map]
  exact List.map_congr_left (fun x _ => hf x.1 x.2.1 x.2.2)

/-! ### The placement that runs -/

theorem placement_map {m t : Mod} {f : Placement → Placement} (h : t.placements = m.placements.map f) (hf : ∀ p, (f p).g0 = p.g0) (g0 : Nat) :
    t.placement g0 = (m.placement g0).map f := by
  rw [Mod.placement, h, List.find?_map]
  refine congrArg (fun e => (List.find? e m.placements).map f) (funext fun p => ?_)
  rw [Function.comp_apply, hf]

/-- A placement set in its place is found there. -/
theorem placement_setPlacement {m : Mod} {p p' : Placement} {k : Nat} (hp : m.placement k = some p) (h0 : p'.g0 = p.g0) :
    (m.setPlacement p').placement k = some p' := by
  have hk := placement_g0 hp
  have hf : ∀ x : Placement, (if x.g0 == p'.g0 then p' else x).g0 = x.g0 := fun x => by
    split
    · next h => exact (beq_iff_eq.1 h).symm
    · rfl
  rw [placement_map (m := m) (f := fun x => if x.g0 == p'.g0 then p' else x) rfl hf, hp, Option.map_some, if_pos (beq_iff_eq.2 h0.symm)]

/-- A placement runs but for the gangs still to begin. -/
def RunsBut (l : List Begin) (k : Nat) (base : W64) (m : Mod) : Prop :=
  ∃ y, m.placement k = some y ∧ y.runBase = base ∧ ∀ g ∈ y.gangs, g.id ∈ l.map (·.gang) ∨ g.running = true ∧ g.started = true

/-- A placement with one of its gangs changed. -/
def onPlaced (id : Nat) (f : Gang → Gang) (p : Placement) : Placement :=
  { p with gangs := p.gangs.map (fun g => if g.id == id then f g else g) }

theorem placement_onGang (m : Mod) (id : Nat) (f : Gang → Gang) (k : Nat) : (m.onGang id f).placement k = (m.placement k).map (onPlaced id f) :=
  placement_map (f := onPlaced id f) rfl (fun _ => rfl) k

theorem runsBut_onGang {l : List Begin} {b : Begin} {k : Nat} {base : W64} {m n : Mod} (rough : Bool) (hp : n.placements = m.placements)
    (h : RunsBut (b :: l) k base m) : RunsBut l k base (n.onGang b.gang (setRunning b rough)) := by
  obtain ⟨y, hy, hbase, hrun⟩ := h
  have hn : n.placement k = some y := by
    rw [Mod.placement, hp]
    exact hy
  refine ⟨onPlaced b.gang (setRunning b rough) y, by rw [placement_onGang, hn]; rfl, hbase, ?_⟩
  intro g' hg'
  obtain ⟨g, hg, rfl⟩ := List.mem_map.1 hg'
  split
  · exact .inr ⟨rfl, rfl⟩
  · next hne =>
    refine (hrun g hg).imp (fun h => ?_) id
    rw [List.map_cons, List.mem_cons] at h
    exact h.resolve_left (fun e => hne (beq_iff_eq.2 e))

section
variable (p : Placement) (i : Image) (base : W64) (seed gstep layer : W64)

/-- All parts of a placement started: mailboxes and jobs stay, each part's region runs it, and the placement runs. -/
theorem startParts_start {l : List Begin} (hn : (l.map (·.region)).Nodup) {m : Mod} {k : Nat} (hr : RunsBut l k base m) :
    let t := l.foldl (startPart p i base.toNat seed gstep layer) m
    t.mailboxes = m.mailboxes ∧ t.jobs = m.jobs ∧ RunsBut [] k base t ∧
      ∀ b ∈ l, Started p.session base.toNat gstep layer b (t.region b.region) := by
  have hboxes : ∀ (l : List Begin) (m : Mod), RunsBut l k base m → let t := l.foldl (startPart p i base.toNat seed gstep layer) m
      t.mailboxes = m.mailboxes ∧ t.jobs = m.jobs ∧ RunsBut [] k base t := by
    intro l
    induction l with
    | nil => exact fun m h => ⟨rfl, rfl, h⟩
    | cons b l ih =>
      intro m h
      obtain ⟨n, hstart, ⟨⟨hp, hb, hj⟩, -⟩, -⟩ := startPart_starts p i base.toNat seed gstep layer m b
      obtain ⟨hb', hj', hrun⟩ := ih (startPart p i base.toNat seed gstep layer m b) (by rw [hstart]; exact runsBut_onGang _ hp h)
      rw [List.foldl_cons]
      refine ⟨hb'.trans ?_, hj'.trans ?_, hrun⟩
      · rw [hstart]
        exact hb
      · rw [hstart]
        exact hj
  obtain ⟨hb, hj, hrun⟩ := hboxes l m hr
  refine ⟨hb, hj, hrun, foldl_region (P := fun b => Started p.session base.toNat gstep layer b) l hn (fun m b j hj => ?_) (fun b _ m => ?_) m⟩
  · obtain ⟨n, hstart, ⟨-, he⟩, -⟩ := startPart_starts p i base.toNat seed gstep layer m b
    rw [hstart]
    exact he j hj
  · obtain ⟨n, hstart, -, hs⟩ := startPart_starts p i base.toNat seed gstep layer m b
    rw [hstart]
    exact hs

end

/-! ### GANG_START (R47, R48, R523) -/

/-- The run base of a start or resume. -/
def baseOf (q : Req) (m : Mod) : W64 := if startFlag q 0 then BitVec.ofNat 64 (q.fld 8 8) else m.runBase

theorem startPlacement_starts {q : Req} {p : Placement} {i : Image} {steps : List Nat} {m : Mod} (hp : m.placement (q.fld 0 2) = some p)
    (hn : (p.gangs.map (·.region)).Nodup) (hl : p.gangs.length = i.parts.length) (hs : steps.length = i.parts.length) :
    let a := startPlacement q p i steps none m
    a.status = 0 ∧ a.job = none ∧ a.done = none ∧ a.body = bytesOf (baseOf q m) 8 ++ stepBytes steps ∧ a.m.mailboxes = m.mailboxes ∧
    (∀ k g d, p.gangs[k]? = some g → i.parts[k]? = some d → Started p.session (baseOf q m).toNat
      (if startFlag q 2 then BitVec.ofNat 64 (q.fld 0x18 8) else i.gstep) (BitVec.ofNat 64 (q.fld 0x20 8)) (beginOf m g d (steps.getD k 0))
      (a.m.region g.region)) ∧
    RunsBut [] (q.fld 0 2) (baseOf q m) a.m := by
  unfold startPlacement
  extract_lets base seed gstep layer p' bs m1 m2
  have h1 : SamePlacements (m.setPlacement p') m1 ∧ m1.regions = (m.setPlacement p').regions := leaveStandby_same _
  have hplace : m1.placement (q.fld 0 2) = some p' := by
    rw [Mod.placement, h1.1.1]
    exact placement_setPlacement hp rfl
  have hids : bs.map (·.gang) = p.gangs.map (·.id) := beginsOf_map hs hl (fun _ _ _ => rfl)
  have hregions : bs.map (·.region) = p.gangs.map (·.region) := beginsOf_map hs hl (fun _ _ _ => rfl)
  have hruns : RunsBut bs (q.fld 0 2) base m1 := ⟨p', hplace, rfl, fun g hg => .inl (by rw [hids]; exact List.mem_map_of_mem hg)⟩
  obtain ⟨hb, hj, hrun, hstart⟩ := startParts_start p' i base seed gstep layer (hregions ▸ hn) hruns
  have hwake : AwakeSame m2 (wakeRoutes p.g0 (writeRingHeader none m2)) := wakeRoutes_awakeSame ..
  refine ⟨rfl, rfl, rfl, rfl, (hwake.1.2.1.trans hb).trans h1.1.2.1, fun k g d hg hd => ?_, ?_⟩
  · have hst := hstart _ (beginsOf_mem hs hg hd)
    exact (hwake.2 g.region hst.1).symm ▸ hst
  · obtain ⟨y, hy, hrest⟩ := hrun
    refine ⟨y, ?_, hrest⟩
    rw [Mod.placement, hwake.1.1]
    exact hy

section
variable {s : State} {q : Req} {p : Placement} {i : Image} (ha : Allowed s.m (.gangStart q) q) (hsize : q.body.length = 0x34)
  (hprog : s.m.holds q.no 0 = true) (hplaced : s.m.placement (q.fld 0 2) = some p) (hown : s.m.owns q.no p.session = true)
  (himage : s.m.image p.image = some i) (hpre : p.preempted = false)
  (hidle : ∀ g ∈ p.gangs, (s.m.region g.region).run.running = false ∧ (s.m.region g.region).run.settled = true)
  (hcores : ∀ x ∈ p.gangs.zip i.parts, x.2.cores ≤ (s.m.usableSites x.1.region).length)
  (hbase : startFlag q 0 = true → s.m.aon.stick.toNat + 92160 ≤ q.fld 8 8)

theorem ownsPlacement_of {m : Mod} {mb k : Nat} {p : Placement} (hp : m.placement k = some p) (h : m.owns mb p.session = true) :
    m.ownsPlacement mb k = true := by
  rw [Mod.ownsPlacement, hp]
  exact h

include hplaced himage hpre hidle hcores hbase

/-- A start that its checks let through is decided by the admission of its parts, and by its ring. -/
theorem gangStartRun_admits (hring : startFlag q 3 = false) : let m := postRequest 0x33 q s.m
    gangStartRun q m = match admitParts m (p.gangs.map (·.region)) i.parts with
      | none => Ans.fail m eEnvelope
      | some steps => startPlacement q p i steps none m := by
  intro m
  have hplaced' : m.placement (q.fld 0 2) = some p := hplaced
  have himage' : m.image p.image = some i := himage
  have hstate : ¬ (p.preempted = true ∨ (p.gangs.map (·.region)).any (regionHeld m) = true ∨ startFlag q 0 = true ∧ baseEarly m (q.fld 8 8) = true) := by
    rintro (h | h | ⟨h, h'⟩)
    · rw [hpre] at h
      exact nomatch h
    · obtain ⟨_, hr, hheld⟩ := List.any_eq_true.1 h
      obtain ⟨g, hg, rfl⟩ := List.mem_map.1 hr
      obtain ⟨hrun, hset⟩ := hidle g hg
      have : regionHeld s.m g.region = false := by rw [regionHeld, hrun, hset]; rfl
      exact Bool.false_ne_true (this.symm.trans hheld)
    · have := hbase h
      have hlt : q.fld 8 8 < s.m.aon.stick.toNat + 92160 := of_decide_eq_true h'
      omega
  have hfound : ¬ ((!coresFound m p i.parts) = true) := by
    have : coresFound m p i.parts = true := List.all_eq_true.2 (fun x hx => decide_eq_true (hcores x hx))
    rw [this]
    exact Bool.false_ne_true
  unfold gangStartRun
  rw [hplaced']
  dsimp only
  rw [himage']
  dsimp only
  rw [if_neg hstate, if_neg hfound]
  have hnone : startRing q m = none := if_pos (by rw [hring]; rfl)
  rw [hnone]
  cases admitParts m (p.gangs.map (·.region)) i.parts <;> rfl

include ha hsize hprog hown

theorem gangStart_fails (hring : startFlag q 3 = false) (h : admitParts s.m (p.gangs.map (·.region)) i.parts = none) :
    Served (.gangStart q) s q 0x33 0x107 [] s.m := by
  have h' : admitParts (postRequest 0x33 q s.m) (p.gangs.map (·.region)) i.parts = none := h
  refine short_served (c := gangStartCmd) ha rfl rfl rfl rfl rfl (size_eq hsize rfl) ?_ (.inl rfl) ?_ rfl
  · show (s.m.holds q.no 0 && s.m.ownsPlacement q.no (q.fld 0 2)) = true
    rw [hprog, Bool.true_and, ownsPlacement_of hplaced hown]
  · show gangStartRun q (postRequest 0x33 q s.m) = _
    rw [gangStartRun_admits hplaced himage hpre hidle hcores hbase hring, h']
    rfl

theorem gangStart_starts (hring : startFlag q 3 = false) {steps : List Nat} (h : admitParts s.m (p.gangs.map (·.region)) i.parts = some steps)
    (hn : (p.gangs.map (·.region)).Nodup) (hl : p.gangs.length = i.parts.length) :
    ∃ t, Answers (.gangStart q) s t q 0x33 0 (bytesOf (baseOf q s.m) 8 ++ stepBytes steps) ∧
      (∀ k g d, p.gangs[k]? = some g → i.parts[k]? = some d → Started p.session (baseOf q s.m).toNat
        (if startFlag q 2 then BitVec.ofNat 64 (q.fld 0x18 8) else i.gstep) (BitVec.ofNat 64 (q.fld 0x20 8)) (beginOf s.m g d (steps.getD k 0))
        (t.m.region g.region)) ∧
      RunsBut [] (q.fld 0 2) (baseOf q s.m) t.m := by
  have h' : admitParts (postRequest 0x33 q s.m) (p.gangs.map (·.region)) i.parts = some steps := h
  obtain ⟨hstatus, hjob, hdone, hbody, hboxes, hstart, hrun⟩ :=
    startPlacement_starts (m := postRequest 0x33 q s.m) hplaced hn hl (admitParts_length h)
  have hrunCmd : gangStartRun q (postRequest 0x33 q s.m) = startPlacement q p i steps none (postRequest 0x33 q s.m) := by
    rw [gangStartRun_admits hplaced himage hpre hidle hcores hbase hring, h']
  have hans := short_answers (c := gangStartCmd) (y := (startPlacement q p i steps none (postRequest 0x33 q s.m)).m) (status := 0)
    (body := bytesOf (baseOf q s.m) 8 ++ stepBytes steps) ha rfl rfl rfl rfl (size_eq hsize rfl) ?_ (.inl rfl) rfl hrunCmd ?_
  · obtain ⟨_, _, e⟩ := answerPosted_boxes q.no 0 (bytesOf (baseOf q s.m) 8 ++ stepBytes steps)
      (startPlacement q p i steps none (postRequest 0x33 q s.m)).m
    refine ⟨_, hans, ?_⟩
    dsimp only
    rw [e]
    exact ⟨hstart, hrun⟩
  · show (s.m.holds q.no 0 && s.m.ownsPlacement q.no (q.fld 0 2)) = true
    rw [hprog, Bool.true_and, ownsPlacement_of hplaced hown]
  · rw [Mod.mailbox, hboxes]
    rfl

end

end Sys2Proof.Proofs
end

section
/-!
PROOFS. GANG_RESUME: saved parts on the regions chosen for them.
-/

namespace Sys2Proof.Proofs

open Sys2Proof Sys2Proof.Machine Sys2Proof.Laws

/-! ### A part resumed (R244) -/

/-- A region that runs a saved part again from its PREEMPT_POINT. -/
def Resumed (sess base : Nat) (v : SavedPart) (b : Begin) (x : Region) : Prop :=
  Awake x ∧ x.decl = b.decl ∧ x.run.gang = b.gang ∧ x.run.session = sess ∧ x.run.running = true ∧ x.run.tickVoid = true ∧
  x.run.cycleVoid = true ∧ x.seq.kerfBase = base ∧ x.seq.resumeIssue = true ∧ x.seq.addr = v.seq.addr ∧ x.seq.pos = v.seq.pos ∧
  x.seq.g = v.seq.g ∧ x.dig = v.dig

/-- A region that a saved part begins on again. -/
def resumed (sess base : Nat) (i : Image) (rough : Bool) (v : SavedPart) (b : Begin) (g : Region) : Region :=
  let g := beginRun b sess i rough true false g
  { g with seq := { v.seq with kerfBase := base, wait := .first, resumeIssue := true, cnt := g.seq.cnt }, dig := v.dig }

theorem resumed_resumes {b : Begin} {g : Region} (h : Awake g) (sess base : Nat) (i : Image) (rough : Bool) (v : SavedPart) :
    Resumed sess base v b (resumed sess base i rough v b g) := by
  refine ⟨h, rfl, rfl, rfl, rfl, ?_, ?_, rfl, rfl, rfl, rfl, rfl, rfl⟩
  · show (rough || true || false) = true
    rw [Bool.or_true, Bool.true_or]
  · show (rough || true || i.interlocked) = true
    rw [Bool.or_true, Bool.true_or]

/-- What a placement has saved of a gang. -/
def savedOf (p : Placement) (id : Nat) : Option SavedPart := (p.gangs.find? (fun g => g.id == id)).bind (·.saved)

theorem resumePart_resumes (p : Placement) (i : Image) (base : Nat) (m : Mod) (b : Begin) :
    (resumePart p i base m b).mailboxes = m.mailboxes ∧ (resumePart p i base m b).jobs = m.jobs ∧
    (∀ j, j ≠ b.region → (resumePart p i base m b).region j = m.region j) ∧
    ∀ v, savedOf p b.gang = some v → Resumed p.session base v b ((resumePart p i base m b).region b.region) := by
  unfold resumePart
  extract_lets rough m1
  split
  · next h => exact ⟨rfl, rfl, fun _ _ => rfl, fun v hv => nomatch hv.symm.trans h⟩
  · next sv h =>
    extract_lets m2 _ m3
    obtain ⟨hwake, hawake⟩ := wakeFor_wakes b m
    have h1 : SamePlacements (wakeFor b m) m1 ∧ m1.regions = (wakeFor b m).regions := scrubRegion_same ..
    have h2 : SamePlacements m1 m2 ∧ m2.regions = m1.regions :=
      foldl_onCore_same (fun x : Nat × Core => x.1) (fun _ x => restoreCore b.decl x.2) ..
    have h3 : ElsewhereSame b.region m m3 :=
      hwake.trans ((elsewhereSame_of_regions (h1.1.trans h2.1) (h2.2.trans h1.2)).trans (elsewhereSame_onRegion ..))
    have hregion : m2.region b.region = (wakeFor b m).region b.region := by rw [Mod.region, Mod.region, h2.2, h1.2]
    refine ⟨h3.1.2.1, h3.1.2.2, h3.2, fun v hv => ?_⟩
    cases Option.some.inj (hv.symm.trans h)
    have hbegun : m3.region b.region = resumed p.session base i rough sv b (m2.region b.region) := region_onRegion ..
    show Resumed _ _ _ _ (m3.region b.region)
    rw [hbegun, hregion]
    exact resumed_resumes hawake ..

/-- All parts of a placement resumed. -/
theorem resumeParts_resume (p : Placement) (i : Image) (base : Nat) (l : List Begin) (m : Mod) :
    let t := l.foldl (resumePart p i base) m
    t.mailboxes = m.mailboxes ∧ t.jobs = m.jobs ∧ ((l.map (·.region)).Nodup → ∀ b ∈ l, ∀ v, savedOf p b.gang = some v →
      Resumed p.session base v b (t.region b.region)) := by
  obtain ⟨hb, hj⟩ := foldl_keeps (R := fun a b : Mod => b.mailboxes = a.mailboxes ∧ b.jobs = a.jobs) (fun _ => ⟨rfl, rfl⟩)
    (fun _ _ _ h h' => ⟨h'.1.trans h.1, h'.2.trans h.2⟩)
    (fun m b => ⟨(resumePart_resumes p i base m b).1, (resumePart_resumes p i base m b).2.1⟩) l m
  refine ⟨hb, hj, fun hn b hmem => foldl_region (P := fun b x => ∀ v, savedOf p b.gang = some v → Resumed p.session base v b x) l hn
    (fun m b => (resumePart_resumes p i base m b).2.2.1) (fun b _ m => (resumePart_resumes p i base m b).2.2.2) m b hmem⟩

/-! ### The regions chosen (R521) -/

theorem foldl_bind_length {α β : Type} (f : List β → α → Option (List β)) (hf : ∀ rs x out, f rs x = some out → out.length = rs.length + 1)
    (l : List α) (rs out : List β) (h : l.foldl (fun (a : Option (List β)) x => a.bind (fun rs => f rs x)) (some rs) = some out) :
    out.length = rs.length + l.length := by
  induction l generalizing rs with
  | nil => exact Option.some.inj h ▸ rfl
  | cons x l ih =>
    rw [List.foldl_cons, Option.bind_some] at h
    cases hx : f rs x with
    | none =>
      rw [hx] at h
      have hnone : ∀ l : List α, l.foldl (fun (a : Option (List β)) x => a.bind (fun rs => f rs x)) none = none := fun l => by
        induction l with
        | nil => rfl
        | cons _ _ ih => exact ih
      exact nomatch h.symm.trans (hnone l)
    | some rs' =>
      rw [hx] at h
      rw [ih rs' h, hf rs x rs' hx, List.length_cons]
      omega

/-- A region is chosen for each part. -/
theorem chooseRegions_length {fits : Nat → Nat → Bool} {want cores rs : List Nat} (hl : want.length = cores.length)
    (h : chooseRegions fits want cores = some rs) : rs.length = cores.length := by
  unfold chooseRegions at h
  extract_lets named at h
  split at h
  · exact nomatch h
  · have := foldl_bind_length _ (fun rs x out hx => ?_) _ _ _ h
    · rw [this, List.length_zip, List.length_nil]
      omega
    · split at hx
      · exact Option.some.inj hx ▸ List.length_append ..
      · obtain ⟨r, -, rfl⟩ := Option.map_eq_some_iff.1 hx
        exact List.length_append ..

/-! ### GANG_RESUME (R244, R524) -/

/-- A placement bound to other regions. -/
def rebound (base : W64) (rs : List Nat) (p : Placement) : Placement :=
  { p with runBase := base, preempted := false, gangs := (p.gangs.zip rs).map (fun (x : Gang × Nat) => { x.1 with region := x.2 }) }

section
variable {base : W64} {rs : List Nat} {p : Placement} (hl : rs.length = p.gangs.length)
include hl

theorem rebound_ids : (rebound base rs p).gangs.map (·.id) = p.gangs.map (·.id) := by
  have hzip : p.gangs = (p.gangs.zip rs).map Prod.fst := by
    rw [List.map_fst_zip]
    omega
  conv_rhs => rw [hzip]
  rw [rebound, List.map_map, List.map_map]
  rfl

theorem rebound_regions : (rebound base rs p).gangs.map (·.region) = rs := by
  have hzip : rs = (p.gangs.zip rs).map Prod.snd := by
    rw [List.map_snd_zip]
    omega
  conv_rhs => rw [hzip]
  rw [rebound, List.map_map]
  rfl

theorem rebound_gang {k : Nat} {g : Gang} (hg : p.gangs[k]? = some g) :
    (rebound base rs p).gangs[k]? = some { g with region := rs.getD k 0 } := by
  obtain ⟨hk, -⟩ := List.getElem?_eq_some_iff.1 hg
  have hr : rs[k]? = some (rs.getD k 0) := by
    rw [List.getD_eq_getElem?_getD, List.getElem?_eq_getElem (hl ▸ hk)]
    rfl
  have hz : (p.gangs.zip rs)[k]? = some (g, rs.getD k 0) := List.getElem?_zip_eq_some.2 ⟨hg, hr⟩
  rw [rebound, List.getElem?_map, hz]
  rfl

end

/-- Of gangs with names of their own each is found by its name. -/
theorem find_id {l : List Gang} (hn : (l.map (·.id)).Nodup) {g : Gang} (hg : g ∈ l) : l.find? (fun x => x.id == g.id) = some g := by
  induction l with
  | nil => exact nomatch hg
  | cons a l ih =>
    rw [List.map_cons, List.nodup_cons] at hn
    rcases List.mem_cons.1 hg with rfl | hg
    · exact List.find?_cons_of_pos (beq_self_eq_true _)
    · rw [List.find?_cons_of_neg, ih hn.2 hg]
      intro h
      exact hn.1 (List.mem_map.2 ⟨g, hg, (beq_iff_eq.1 h).symm⟩)

/-- A placement resumed. -/
theorem resumePlacement_resumes {q : Req} {p : Placement} {i : Image} {rs steps : List Nat} {m : Mod} (hn : (p.gangs.map (·.id)).Nodup)
    (hrn : rs.Nodup) (hr : rs.length = p.gangs.length) (hl : p.gangs.length = i.parts.length) (hs : steps.length = i.parts.length) :
    ∃ t, resumePlacement q p i rs steps m = { m := t, job := some (.resume p.g0 (baseOf q m)) } ∧ t.mailboxes = m.mailboxes ∧ t.jobs = m.jobs ∧
      ∀ k g d, p.gangs[k]? = some g → i.parts[k]? = some d → ∀ v, g.saved = some v →
        Resumed p.session (baseOf q m).toNat v (beginOf m { g with region := rs.getD k 0 } d (steps.getD k 0)) (t.region (rs.getD k 0)) := by
  unfold resumePlacement
  extract_lets base p' bs m1 m2 m3
  have hp' : p' = rebound base rs p := rfl
  have hlen : p'.gangs.length = i.parts.length := by
    rw [← List.length_map (as := p'.gangs) (·.id), hp', rebound_ids hr, List.length_map, hl]
  have h1 : SamePlacements (m.setPlacement p') m1 ∧ m1.regions = (m.setPlacement p').regions := leaveStandby_same _
  obtain ⟨hb, hj, hres⟩ := resumeParts_resume p' i base.toNat bs m1
  have hwake : AwakeSame (bs.foldl (resumePart p' i base.toNat) m1) m2 := wakeRoutes_awakeSame ..
  have hflood : ∀ (l : List Gang) (m : Mod), ∃ ports, l.foldl (fun m g =>
      floodNotice (.resumed (Fin.ofNat 4096 (coordIndex m.topo.coord)) (BitVec.ofNat 16 g.id)) none m) m = { m with ports := ports } := fun l m => by
    refine foldl_keeps (R := fun a b : Mod => ∃ ports, b = { a with ports := ports }) (fun m => ⟨m.ports, rfl⟩) ?_ (fun m g => floodNotice_ports ..) l m
    rintro a _ _ ⟨_, rfl⟩ ⟨ports, rfl⟩
    exact ⟨ports, rfl⟩
  obtain ⟨ports, h3⟩ := hflood p.gangs m2
  refine ⟨m3, rfl, ?_, ?_, fun k g d hg hd v hv => ?_⟩
  · rw [show m3 = _ from h3]
    exact (hwake.1.2.1.trans hb).trans h1.1.2.1
  · rw [show m3 = _ from h3]
    exact (hwake.1.2.2.trans hj).trans h1.1.2.2
  · have hg' := rebound_gang (base := base) hr hg
    have hmem := beginsOf_mem (m := m) (p := p') hs hg' hd
    have hregions : bs.map (·.region) = rs := (beginsOf_map hs hlen (fun _ _ _ => rfl)).trans (rebound_regions hr)
    have hsaved : savedOf p' g.id = some v := by
      have hfind := find_id (l := p'.gangs) (by rw [hp', rebound_ids hr]; exact hn) (List.mem_of_getElem? hg')
      rw [savedOf, hfind]
      exact hv
    have hst := hres (hregions ▸ hrn) _ hmem v hsaved
    have hkeep : m3.region (rs.getD k 0) = (bs.foldl (resumePart p' i base.toNat) m1).region (rs.getD k 0) := by
      rw [show m3 = _ from h3]
      exact hwake.2 _ hst.1
    rw [hkeep]
    exact hst

section
variable {s : State} {q : Req} {p : Placement} {i : Image} {rs steps : List Nat} (ha : Allowed s.m (.gangResume q) q) (hsize : q.body.length = 0x2C)
  (hprog : s.m.holds q.no 0 = true) (hplaced : s.m.placement (q.fld 0 2) = some p) (hown : s.m.owns q.no p.session = true)
  (himage : s.m.image p.image = some i) (hlong : s.m.long q.no = false) (hpre : p.preempted = true)
  (hwant : ∀ r ∈ (List.range i.parts.length).map (fun k => q.byte (0x10 + k)), r < 25 ∨ r = 0xFF)
  (hbase : startFlag q 0 = true → s.m.aon.stick.toNat + 92160 ≤ q.fld 8 8)
  (hchoose : chooseRegions (regionFits s.m (s.m.maskOf q.no)) (resumeWant q i.parts.length) (i.parts.map (·.cores)) = some rs)
  (hidle : ∀ r ∈ rs, (s.m.region r).run.running = false ∧ (s.m.region r).run.settled = true) (hadmit : admitParts s.m rs i.parts = some steps)
include hplaced himage hpre hbase hchoose hidle hadmit

/-- A resume that its checks let through. -/
theorem gangResumeRun_resumes : gangResumeRun q (postRequest 0x36 q s.m) = resumePlacement q p i rs steps (postRequest 0x36 q s.m) := by
  have hplaced' : (postRequest 0x36 q s.m).placement (q.fld 0 2) = some p := hplaced
  have himage' : (postRequest 0x36 q s.m).image p.image = some i := himage
  have hchoose' : chooseRegions (regionFits (postRequest 0x36 q s.m) ((postRequest 0x36 q s.m).maskOf q.no)) (resumeWant q i.parts.length)
    (i.parts.map (·.cores)) = some rs := hchoose
  have hadmit' : admitParts (postRequest 0x36 q s.m) rs i.parts = some steps := hadmit
  have hstate : ¬ ((!p.preempted) = true ∨ startFlag q 0 = true ∧ baseEarly (postRequest 0x36 q s.m) (q.fld 8 8) = true) := by
    rintro (h | ⟨h, h'⟩)
    · rw [hpre] at h
      exact nomatch h
    · have := hbase h
      have hlt : q.fld 8 8 < s.m.aon.stick.toNat + 92160 := of_decide_eq_true h'
      omega
  have hheld : ¬ (rs.any (regionHeld (postRequest 0x36 q s.m)) = true) := by
    intro h
    obtain ⟨r, hr, hheld⟩ := List.any_eq_true.1 h
    obtain ⟨hrun, hset⟩ := hidle r hr
    have : regionHeld s.m r = false := by rw [regionHeld, hrun, hset]; rfl
    exact Bool.false_ne_true (this.symm.trans hheld)
  unfold gangResumeRun
  rw [hplaced']
  dsimp only
  rw [himage']
  dsimp only
  rw [if_neg hstate, hchoose']
  dsimp only
  rw [if_neg hheld, hadmit']

include ha hsize hprog hown hlong hwant

theorem gangResume_resumes (hn : (p.gangs.map (·.id)).Nodup) (hrn : rs.Nodup) (hl : p.gangs.length = i.parts.length) :
    ∃ t, Answers (.gangResume q) s t q 0x36 1 [] ∧ (∃ y : Job, t.m.jobs = s.m.jobs ++ [y] ∧ y.kind = .resume p.g0 (baseOf q s.m) ∧ y.mb = q.no) ∧
      ∀ k g d, p.gangs[k]? = some g → i.parts[k]? = some d → ∀ v, g.saved = some v →
        Resumed p.session (baseOf q s.m).toNat v (beginOf s.m { g with region := rs.getD k 0 } d (steps.getD k 0)) (t.m.region (rs.getD k 0)) := by
  have hplaced' : (postRequest 0x36 q s.m).placement (q.fld 0 2) = some p := hplaced
  have himage' : (postRequest 0x36 q s.m).image p.image = some i := himage
  have hrl : rs.length = p.gangs.length := by
    rw [chooseRegions_length (by rw [resumeWant, List.length_map, List.length_range, List.length_map]) hchoose, List.length_map, hl]
  obtain ⟨t, hplace, hboxes, hjobs, hres⟩ := resumePlacement_resumes (q := q) (m := postRequest 0x36 q s.m) hn hrn hrl hl (admitParts_length hadmit)
  have hrun := (gangResumeRun_resumes hplaced himage hpre hbase hchoose hidle hadmit).trans hplace
  have hans := long_answers (c := gangResumeCmd) ha rfl rfl rfl rfl ?_ ?_ (.inr hlong) rfl hrun (by rw [Mod.mailbox, hboxes]; rfl)
  · obtain ⟨hjob, -, hregions⟩ := answerPosted_addJob gangResumeCmd q (.resume p.g0 (baseOf q (postRequest 0x36 q s.m))) t
    rw [hjobs] at hjob
    refine ⟨_, hans, hjob, ?_⟩
    simp only [Mod.region] at hres ⊢
    rw [hregions]
    exact hres
  · show (q.size 0x29 && (resumeWant q ((postRequest 0x36 q s.m).partsPlaced (q.fld 0 2)).length).all (fun r => decide (r < 25) || r == 0xFF)) = true
    have hparts : (postRequest 0x36 q s.m).partsPlaced (q.fld 0 2) = i.parts := by
      rw [Mod.partsPlaced, hplaced']
      dsimp only
      rw [Mod.partsOf, himage']
    rw [hparts, size_eq hsize rfl, Bool.true_and, List.all_eq_true]
    intro r hr
    simpa using hwant r hr
  · show (s.m.holds q.no 0 && s.m.ownsPlacement q.no (q.fld 0 2)) = true
    rw [hprog, Bool.true_and, ownsPlacement_of hplaced hown]

end

end Sys2Proof.Proofs
end

section
/-!
PROOFS. The program and gang commands.
-/

namespace Sys2Proof.Proofs

open Sys2Proof Sys2Proof.Machine Sys2Proof.Laws

/-- A completion beside the jobs, mailboxes and the host's side leaves the module as it was. -/
theorem completeJob_only (j : Job) (status : Nat) (body : List Byte) (m : Mod) :
    let t := completeJob j status body m
    t = { m with jobs := t.jobs, mailboxes := t.mailboxes, host := t.host } := by
  obtain ⟨_, _, _, e⟩ := completeJob_jobs j status body m
  dsimp only
  rw [e]

/-- PROGRAM_LOAD_DONE, from the state's side. -/
theorem programLoadDone_ends {s : State} {mb : Fin 31} {j : Job} {src : W64} {len : Nat} {interlock : Bool}
    (hj : Outstanding s.m mb isLoad j) (hk : j.kind = .load src len interlock false) :
    let m := s.m
    let f : Src := fun o => m.host.mem.get (src.toNat + o)
    (∀ i, loadImage j.session f len interlock m = .inl i →
      ∃ t, Ends (.programLoadDone mb) s t j 0 (le 2 i.id ++ le 1 i.parts.length ++ le 1 (b2n i.interlocked)) ∧
        t.m.images = m.images ++ [i] ∧ t.m.nextImage = i.id % 65535 + 1 ∧ t.m.stock = (copyImage f len i.pages m).stock ∧
        t.m.regions = m.regions ∧ t.m.cores = m.cores ∧ t.m.placements = m.placements) ∧
    (∀ st, loadImage j.session f len interlock m = .inr st → ∃ t, Ends (.programLoadDone mb) s t j st [] ∧
      t.m = { m with jobs := t.m.jobs, mailboxes := t.m.mailboxes, host := t.m.host }) := by
  intro m f
  obtain ⟨hfail, hload⟩ := programLoadDone_completes hj hk
  refine ⟨fun i h => ?_, fun st h => ?_⟩
  · have hexec := exec_programLoadDone mb s
    rw [hload i h] at hexec
    refine ⟨_, completeJob_ends hexec rfl rfl, ?_⟩
    dsimp only
    rw [completeJob_only]
    exact ⟨rfl, rfl, rfl, rfl, rfl, rfl⟩
  · have hexec := exec_programLoadDone mb s
    rw [hfail st h] at hexec
    exact ⟨_, completeJob_ends hexec rfl rfl, completeJob_only ..⟩

/-- GANG_RESUME_DONE, from the state's side. -/
theorem gangResumeDone_ends {s : State} {mb : Fin 31} {j : Job} {g0 : Nat} {b : W64} {p : Placement} (hj : Outstanding s.m mb isResume j)
    (hk : j.kind = .resume g0 b) (hp : s.m.placement g0 = some p) :
    ((∃ g ∈ p.gangs, g.running = false) → ∃ t, Ends (.gangResumeDone mb) s t j 0x10A []) ∧
    ((∀ g ∈ p.gangs, g.running = true) →
      ((∃ g ∈ p.gangs, (s.m.region g.region).seq.resumeIssue = true) → exec (.gangResumeDone mb) s = .next s) ∧
      ((∀ g ∈ p.gangs, (s.m.region g.region).seq.resumeIssue = false) → ∃ t, Ends (.gangResumeDone mb) s t j 0 (bytesOf b 8) ∧
        t.m = { s.m with jobs := t.m.jobs, mailboxes := t.m.mailboxes, host := t.m.host })) := by
  have hdone := gangResumeDone_completes hj hk hp
  have hexec := exec_gangResumeDone mb s
  refine ⟨fun h => ?_, fun hrun => ?_⟩
  · rw [if_pos (by simpa using h)] at hdone
    rw [hdone] at hexec
    exact ⟨_, completeJob_ends hexec rfl rfl⟩
  · rw [if_neg (by simpa using hrun)] at hdone
    refine ⟨fun h => ?_, fun h => ?_⟩
    · rw [if_neg (by simpa using h)] at hdone
      rw [hexec, hdone]
    · rw [if_pos (by simpa using h)] at hdone
      rw [hdone] at hexec
      exact ⟨_, completeJob_ends hexec rfl rfl, completeJob_only ..⟩

/-- Settles O52, one lemma for each command and answer. -/
theorem gangCommandsTakeEffect : Obligations.GangCommandsTakeEffect := by
  unfold Obligations.GangCommandsTakeEffect
  intro s q mb j p i m sess size prog named flag base apart calm
  refine ⟨fun ha hsize hprog hlo hhi hlong hstate => programLoad_begins ha hsize hprog hlo hhi hlong hstate, ?_, fun ha hsize hprog => ?_, ?_, ?_, ?_,
    ?_, ?_, ?_, ?_, ?_⟩
  · intro src len interlock hj hk f
    obtain ⟨hload, hfail⟩ := programLoadDone_ends hj hk
    exact ⟨hload i, hfail⟩
  · exact ⟨fun h => programUnload_fails ha hsize hprog h, fun h hown => programUnload_answers ha hsize hprog h hown⟩
  · intro rs g0 pages want used gangs ha hsize hprog _ hsigs hwant himage hown
    exact ⟨fun h => gangPlace_fails ha hsize hprog hsigs hwant himage hown h, fun hfree hchoose hfresh hknown hquota hpages hrough =>
      gangPlace_places ha hsize hprog hsigs hwant himage hown hfree hchoose hfresh hknown hquota hpages hrough⟩
  · intro x ha hsize hprog _ hplaced hown
    exact ⟨fun h => gangPlaceRelease_fails ha hsize hprog hplaced hown h, fun hpre hrun => gangPlaceRelease_frees ha hsize hprog hplaced hown hpre hrun⟩
  · intro steps ha hsize hprog ⟨hplaced, hown⟩ himage ⟨hregions, _, hlen⟩ _ hpre hidle hcores hbase hring
    refine ⟨fun h => gangStart_fails ha hsize hprog hplaced hown himage hpre hidle hcores hbase hring h, fun h => ?_⟩
    obtain ⟨t, hans, hstart, y, hy, hrunBase, hrun⟩ :=
      gangStart_starts ha hsize hprog hplaced hown himage hpre hidle hcores hbase hring h hregions hlen
    refine ⟨t, hans, fun k g d hg hd => (hstart k g d hg hd).2, y, hy, hrunBase, fun g hg => (hrun g hg).resolve_left List.not_mem_nil⟩
  · intro ha hsize hprog ⟨hplaced, hown⟩
    exact ⟨fun h => gangStop_fails ha hsize hprog hplaced hown h, fun h => gangStop_stops ha hsize hprog hplaced hown h⟩
  · intro ha hsize hprog ⟨hplaced, hown⟩ hlong
    exact ⟨fun h => gangPreempt_fails ha hsize hprog hplaced hown hlong h, fun h => gangPreempt_asks ha hsize hprog hplaced hown hlong h⟩
  · intro rs steps want ha hsize hprog ⟨hplaced, hown⟩ himage ⟨_, hids, hlen⟩ _ hlong hpre hwant hsaved hbase hchoose hrn hidle hadmit
    obtain ⟨t, hans, hjob, hres⟩ :=
      gangResume_resumes ha hsize hprog hplaced hown himage hlong hpre hwant hbase hchoose hidle hadmit hids hrn hlen
    refine ⟨t, hans, hjob, fun k g d hg hd => ?_⟩
    obtain ⟨v, hv⟩ := Option.ne_none_iff_exists'.1 (hsaved g (List.mem_of_getElem? hg))
    obtain ⟨-, hdecl, hgang, hsess, hrun, htick, hcycle, hkerf, hissue, -⟩ := hres k g d hg hd v hv
    refine ⟨hdecl, hgang, hsess, hrun, htick, hcycle, hkerf, hissue, fun v' hv' => ?_⟩
    obtain ⟨-, -, -, -, -, -, -, -, -, hsame⟩ := hres k g d hg hd v' hv'
    exact hsame
  · intro g0 b hj hk hp
    exact gangResumeDone_ends hj hk hp
  · intro g ha hsize hobs
    refine ⟨fun h => gangStatus_fails ha hsize hobs h, fun hp hg => ?_⟩
    intro x pick word
    have h := gangStatus_reports ha hsize hobs hp hg
    rw [statusBody_fields] at h
    simp only [beq_iff_eq] at h
    exact h

end Sys2Proof.Proofs
end

section
/-!
PROOFS. The CC slot: what its commands write and when it is read (R91 to R96, R265 to R267).
-/

namespace Sys2Proof.Proofs

open Sys2Proof Sys2Proof.Machine Sys2Proof.Laws

/-! ### A CC command as its slot's operation -/

/-- The slot of a CC command that raises no event of its own, and the operation it carries out there. -/
def ccRow : Instr → Option (SlotOp × (Ctx → SlotOp → Core → Eff))
  | .csetCounter op => some (op, csetCounter)
  | .csetComparator op => some (op, csetComparator)
  | .cinc op => some (op, cincExec)
  | .cloadCounterFromQueue op => some (op, fun ctx op => cloadQueue ctx op false)
  | .cloadCounterFromWord op => some (op, cloadWord)
  | .cloadPredicates op => some (op, fun ctx op => cloadQueue ctx op true)
  | .cloadPushWord op => some (op, cloadPushWord)
  | .cloadPushHandle op => some (op, cloadPushHandle)
  | .cloadPushDescriptor op => some (op, cloadPushDescriptor)
  | .cloadWriteWord op => some (op, cloadWriteWord)
  | .cmpCounter op => some (op, cmpCounter)
  | .cmpPredicate op => some (op, cmpPredicate)
  | _ => none

theorem exec_ccRow {i : Instr} {op : SlotOp} {f : Ctx → SlotOp → Core → Eff} (hi : ccRow i = some (op, f)) (s : State) :
    exec i s = s.runIf (Instr.wf i) (coreSlot f op) := by
  cases i <;> simp only [ccRow, Option.some.injEq, Prod.mk.injEq, reduceCtorEq] at hi
  all_goals obtain ⟨rfl, rfl⟩ := hi; rfl

theorem unit_ccRow {i : Instr} {op : SlotOp} {f : Ctx → SlotOp → Core → Eff} (hi : ccRow i = some (op, f))
    (hw : Instr.wf i = true) : op.unit.val = 9 := by
  cases i <;> simp only [ccRow, Option.some.injEq, Prod.mk.injEq, reduceCtorEq] at hi
  all_goals
    obtain ⟨rfl, -⟩ := hi
    simp only [Instr.wf, Bool.and_eq_true, beq_iff_eq, and_assoc] at hw
    obtain ⟨hu, -⟩ := hw
    exact hu

/-! ### Words and the queues they are pushed to -/

/-- The drawer whose cursor word a word is, if any (R265). -/
def cursorOf (decl : PartDecl) (a : Nat) : Option DrawerDecl :=
  if 0x780 ≤ a ∧ a < 0x7C0 then Tab.find decl.drawers (a - 0x780) else none

theorem isCursor_eq (decl : PartDecl) (a : Nat) : isCursor decl a = (cursorOf decl a).isSome := by
  by_cases h : 0x780 ≤ a ∧ a < 0x7C0
  · simp [isCursor, cursorOf, h]
  · rw [cursorOf, if_neg h, isCursor]
    simpa using fun h1 h2 => absurd ⟨h1, h2⟩ h

theorem find_ifCursor (decl : PartDecl) (a : Nat) :
    (if isCursor decl a then Tab.find decl.drawers (a - 0x780) else none) = cursorOf decl a := by
  rw [isCursor_eq, cursorOf]
  split
  · cases Tab.find decl.drawers (a - 0x780) <;> rfl
  · rfl

theorem cursorOf_range {decl : PartDecl} {a : Nat} {d : DrawerDecl} (h : cursorOf decl a = some d) : 0x780 ≤ a ∧ a < 0x7C0 := by
  by_contra hn
  simp [cursorOf, hn] at h

/-- A word that is not SR_SEED is written without entering a history. -/
theorem writeWord_plain (c : Core) (n a : Nat) (v : W64) (ha : a < 0x7FD) :
    writeWord c n a v = { c with cc := { c.cc with words := c.cc.words.set a v } } := by
  have hm : a % 2048 = a := Nat.mod_eq_of_lt (by omega)
  have hs : a ≠ 0x7FD := by omega
  simp only [writeWord, hm, hs, if_false]

/-- A result of latency 1 in both steppings is visible in the next cycle (Table 3.5). -/
theorem due_oneCycle (ctx : Ctx) : ctx.due 1 1 = ctx.cycle + 1 := by
  simp [Ctx.due, latOf]

/-- A core with the low half of the word that a CLOAD names pushed as a handle. -/
def handlePushed (ctx : Ctx) (op : SlotOp) (c : Core) : Core :=
  c.push (28 + sel op.word 29 28) ctx.cycle 9 (ctx.cycle + 1)
    (((c.cc.words.get (cloadAddr ctx op c)).setWidth 32 : W32).setWidth 8192)

section
variable {ctx : Ctx} {op : SlotOp} {c : Core} (hc : settleWords c ctx.pos = c)
include hc

theorem cloadPushWord_eq :
    cloadPushWord ctx op c =
      { core := c.push (16 + sel op.word 30 28) ctx.cycle 9 (ctx.cycle + 1)
          ((c.cc.words.get (cloadAddr ctx op c)).setWidth 8192) } := by
  simp only [cloadPushWord, hc, due_oneCycle]

theorem cloadPushDescriptor_eq :
    cloadPushDescriptor ctx op c =
      { core := c.push (24 + sel op.word 29 28) ctx.cycle 9 (ctx.cycle + 1)
          (BitVec.ofNat 8192 ((c.cc.words.get (cloadAddr ctx op c)).toNat +
            (c.cc.words.get ((cloadAddr ctx op c + 1) % 2048)).toNat * 2 ^ 64)) } := by
  simp only [cloadPushDescriptor, hc, due_oneCycle, Nat.shiftLeft_eq]

theorem cloadWriteWord_eq :
    cloadWriteWord ctx op c =
      { core := writeWord (c.pop (16 + sel op.word 11 9) (bit op.word 27)) ctx.pos (cloadAddr ctx op c)
          (if (cursorOf ctx.decl (cloadAddr ctx op c)).isSome then (c.head (16 + sel op.word 11 9)).setWidth 64 &&& 0xFFFFFFFF#64
           else (c.head (16 + sel op.word 11 9)).setWidth 64) } := by
  simp only [cloadWriteWord, hc, isCursor_eq]

theorem cloadPushHandle_plainWord (ha : cursorOf ctx.decl (cloadAddr ctx op c) = none) :
    cloadPushHandle ctx op c = { core := handlePushed ctx op c } := by
  simp only [cloadPushHandle, hc, due_oneCycle, find_ifCursor, ha, handlePushed]

/-- A cursor word advances by the handle taken (R266). -/
theorem cloadPushHandle_cursorWord {d : DrawerDecl} (ha : cursorOf ctx.decl (cloadAddr ctx op c) = some d) :
    cloadPushHandle ctx op c =
      { core :=
          let p := handlePushed ctx op c
          let a := cloadAddr ctx op c
          let next := cursorNext d ((c.cc.words.get a).setWidth 32)
          { p with cc := { p.cc with words := p.cc.words.set a (next.setWidth 64) } } } := by
  obtain ⟨-, hlt⟩ := cursorOf_range ha
  simp only [cloadPushHandle, hc, due_oneCycle, find_ifCursor, ha, handlePushed]
  rw [writeWord_plain _ _ _ _ (by omega)]

end

section
variable {s : State} {op : SlotOp} {ctx : Ctx} {i : Instr}

/-- A CC command whose slot executes leaves what its operation makes of the core, the position passed. -/
theorem ccRow_leaves {f : Ctx → SlotOp → Core → Eff} {c : Core} (hi : ccRow i = some (op, f)) (hr : SlotRuns s.m op ctx)
    (hw : Instr.wf i = true) (hf : f ctx op (slotCore s.m op) = { core := c }) : SlotLeaves i s op (passed ctx c) := by
  have hu : op.unit.val = 9 := unit_ccRow hi hw
  have hq := slotSram_quiet (ctx := ctx) (c := slotCore s.m op) hr.sound (by omega)
  rw [SlotLeaves, exec_ccRow hi, runIf_wf hw, coreSlot_runs hr f hq (by omega), hf, applyEff_core]

/-! ### The commands that write registers -/

/-- A command leaves the register values at its position changed by `f`, after what `others` does to its core, which is nothing to
the register values. -/
def WritesRegs (i : Instr) (s : State) (op : SlotOp) (ctx : Ctx) (others : Core → Core) (f : CcRegs → CcRegs) : Prop :=
  (others (slotCore s.m op)).cc.hist = (slotCore s.m op).cc.hist ∧
    SlotLeaves i s op (passed ctx (writeRegs (others (slotCore s.m op)) ctx.pos f))

theorem WritesRegs.completes {others : Core → Core} {f : CcRegs → CcRegs} (h : WritesRegs i s op ctx others f) :
    CcCompletes i s op ctx others (f (regsAt (slotCore s.m op).cc.hist ctx.pos)) := by
  obtain ⟨hh, hl⟩ := h
  refine ⟨_, hl, ?_, rfl⟩
  rw [← hh]
  exact regsAt_writeRegs _ _ _ _ le_rfl

@[simp] theorem slotRegs_cc (c : Core) (n : Nat) : slotRegs c 9 n = regsAt c.cc.hist ((n : Int) - 1) := rfl

theorem slotRegs_other (c : Core) {u : Nat} (hu : u ≠ 9) (n : Nat) : slotRegs c u n = regsAt c.cc.hist ((n : Int) - 7) := by
  simp [slotRegs, hu]

/-- R95 and R96, for one write: CC reads it one position later, every other slot seven positions later and no earlier. -/
theorem WritesRegs.seen {others : Core → Core} {f : CcRegs → CcRegs} {c' : Core} (h : WritesRegs i s op ctx others f)
    (hl : SlotLeaves i s op c') :
    slotRegs c' 9 (ctx.pos + 1) = regsAt c'.cc.hist ctx.pos ∧
    (∀ u, u ≠ 9 → slotRegs c' u (ctx.pos + 7) = regsAt c'.cc.hist ctx.pos) ∧
    (∀ u k, u ≠ 9 → k ≤ 6 → slotRegs c' u (ctx.pos + k) = slotRegs (slotCore s.m op) u (ctx.pos + k)) := by
  obtain ⟨hh, hx⟩ := h
  obtain rfl := slotLeaves_unique hl hx
  refine ⟨?_, fun u hu => ?_, fun u k hu hk => ?_⟩
  · rw [slotRegs_cc]; congr 1; omega
  · rw [slotRegs_other _ hu]; congr 1; omega
  · rw [slotRegs_other _ hu, slotRegs_other _ hu, ← hh]
    exact regsAt_writeRegs_earlier _ _ _ _ (by omega) (by omega)

theorem hist_pop (c : Core) (q : Nat) (b : Bool) : (c.pop q b).cc.hist = c.cc.hist := by
  obtain ⟨qs, h⟩ := pop_queues c q b
  rw [h]

/-- Which relation a comparator's code names (R92, Table 3.4). -/
theorem cmpRel_eq (rel : Fin 6) (x y : Nat) :
    cmpRel rel.val x y = if rel = 0 then x == y else if rel = 1 then x != y else if rel = 2 then decide (x < y)
      else if rel = 3 then decide (x ≤ y) else if rel = 4 then decide (y < x) else decide (y ≤ x) := by
  fin_cases rel <;> rfl

section
variable (hr : SlotRuns s.m op ctx)
include hr

theorem csetCounter_writes (hw : Instr.wf (.csetCounter op) = true) :
    WritesRegs (.csetCounter op) s op ctx id (setCtr (sel op.word 32 30) (BitVec.ofNat 32 (sel op.word 29 0))) :=
  ⟨rfl, ccRow_leaves rfl hr hw rfl⟩

theorem csetComparator_writes (hw : Instr.wf (.csetComparator op) = true) :
    WritesRegs (.csetComparator op) s op ctx id (fun r =>
      { r with cmp := r.cmp.setIfInBounds (sel op.word 32 31)
                 { ref := BitVec.ofNat 32 (sel op.word 27 0), rel := Fin.ofNat 6 (sel op.word 30 28) } }) :=
  ⟨rfl, ccRow_leaves rfl hr hw rfl⟩

theorem cinc_writes (hw : Instr.wf (.cinc op) = true) :
    WritesRegs (.cinc op) s op ctx id (setCtr (sel op.word 32 30)
      ((regsAt (slotCore s.m op).cc.hist ((ctx.pos : Int) - 1)).ctr[sel op.word 32 30]?.getD 0
        + BitVec.ofInt 32 (sext 30 (sel op.word 29 0)))) :=
  ⟨rfl, ccRow_leaves rfl hr hw rfl⟩

theorem cloadCounterFromQueue_writes (hw : Instr.wf (.cloadCounterFromQueue op) = true) :
    WritesRegs (.cloadCounterFromQueue op) s op ctx (fun c => c.pop (16 + sel op.word 11 9) (bit op.word 27))
      (setCtr (sel op.word 30 28) (((slotCore s.m op).head (16 + sel op.word 11 9)).setWidth 32)) :=
  ⟨hist_pop _ _ _, ccRow_leaves rfl hr hw rfl⟩

theorem cloadPredicates_writes (hw : Instr.wf (.cloadPredicates op) = true) :
    WritesRegs (.cloadPredicates op) s op ctx (fun c => c.pop (16 + sel op.word 11 9) (bit op.word 27))
      (fun r => { r with pred := ((slotCore s.m op).head (16 + sel op.word 11 9)).setWidth 8 }) :=
  ⟨hist_pop _ _ _, ccRow_leaves rfl hr hw rfl⟩

theorem cloadCounterFromWord_writes (hw : Instr.wf (.cloadCounterFromWord op) = true) :
    WritesRegs (.cloadCounterFromWord op) s op ctx id (setCtr (sel op.word 30 28)
      (((slotCore s.m op).cc.words.get (cloadAddr ctx op (slotCore s.m op))).setWidth 32)) :=
  ⟨rfl, ccRow_leaves rfl hr hw (by simp only [cloadWord, settleSlot hr, id])⟩

theorem cmpCounter_writes (hw : Instr.wf (.cmpCounter op) = true) :
    WritesRegs (.cmpCounter op) s op ctx id (setPred (sel op.word 32 30)
      (let old := regsAt (slotCore s.m op).cc.hist ((ctx.pos : Int) - 1)
       let k := old.cmp[sel op.word 26 25]?.getD {}
       cmpRel k.rel.val (old.ctr[sel op.word 29 27]?.getD 0).toNat k.ref.toNat)) :=
  ⟨rfl, ccRow_leaves rfl hr hw rfl⟩

theorem cmpPredicate_writes (hw : Instr.wf (.cmpPredicate op) = true) :
    WritesRegs (.cmpPredicate op) s op ctx id (setPred (sel op.word 32 30)
      (let old := (regsAt (slotCore s.m op).cc.hist ((ctx.pos : Int) - 1)).pred
       let x := bit old (sel op.word 27 25)
       let y := bit old (sel op.word 24 22)
       if sel op.word 29 28 = 0 then x && y else if sel op.word 29 28 = 1 then x || y else x && !y)) := by
  refine ⟨rfl, ccRow_leaves rfl hr hw ?_⟩
  simp only [cmpPredicate, slotRegs_cc, id]
  split
  case h_1 h => rw [if_pos h]
  case h_2 h => rw [if_neg (by omega), if_pos h]
  case h_3 h0 h1 => rw [if_neg h0, if_neg h1]

theorem regCommand_writes (hw : Instr.wf i = true)
    (hi : i ∈ [Instr.csetCounter op, .csetComparator op, .cinc op, .cloadCounterFromQueue op, .cloadCounterFromWord op,
               .cloadPredicates op, .cmpCounter op, .cmpPredicate op]) : ∃ others f, WritesRegs i s op ctx others f := by
  simp only [List.mem_cons, List.not_mem_nil, or_false] at hi
  rcases hi with rfl | rfl | rfl | rfl | rfl | rfl | rfl | rfl
  · exact ⟨_, _, csetCounter_writes hr hw⟩
  · exact ⟨_, _, csetComparator_writes hr hw⟩
  · exact ⟨_, _, cinc_writes hr hw⟩
  · exact ⟨_, _, cloadCounterFromQueue_writes hr hw⟩
  · exact ⟨_, _, cloadCounterFromWord_writes hr hw⟩
  · exact ⟨_, _, cloadPredicates_writes hr hw⟩
  · exact ⟨_, _, cmpCounter_writes hr hw⟩
  · exact ⟨_, _, cmpPredicate_writes hr hw⟩

end
end

/-! ### The statements -/

/-- Settles O1: each register command is one write at its position, each push or word write one effect on its core. -/
theorem ccCommandsComplete : Obligations.CcCommandsComplete := by
  unfold Obligations.CcCommandsComplete
  refine ⟨fun s op ctx hr => ⟨?_, ?_, ?_, ?_, ?_, ?_, ?_, ?_⟩, fun s op ctx hr => ⟨?_, ?_, ?_, ?_, ?_⟩⟩
  · exact fun hw => (csetCounter_writes hr hw).completes
  · exact fun hw => (csetComparator_writes hr hw).completes
  · exact fun hw => (cinc_writes hr hw).completes
  · exact fun hw => (cloadCounterFromQueue_writes hr hw).completes
  · exact fun hw => (cloadCounterFromWord_writes hr hw).completes
  · exact fun hw => (cloadPredicates_writes hr hw).completes
  · intro hw
    simp only [← cmpRel_eq]
    exact (cmpCounter_writes hr hw).completes
  · exact fun hw => (cmpPredicate_writes hr hw).completes
  · exact fun hw => ccRow_leaves rfl hr hw (cloadPushWord_eq (settleSlot hr))
  · exact fun hw ha => ccRow_leaves rfl hr hw (cloadPushHandle_plainWord (settleSlot hr) ha)
  · exact fun _ hw ha => ccRow_leaves rfl hr hw (cloadPushHandle_cursorWord (settleSlot hr) ha)
  · exact fun hw => ccRow_leaves rfl hr hw (cloadPushDescriptor_eq (settleSlot hr))
  · exact fun hw => ccRow_leaves rfl hr hw (cloadWriteWord_eq (settleSlot hr))

/-- Settles O2: each of the commands is one write at its position, and readers of a position see a write by its own. -/
theorem ccWritesSeenNextByCcAndSevenLaterByOthers : Obligations.CcWritesSeenNextByCcAndSevenLaterByOthers := by
  unfold Obligations.CcWritesSeenNextByCcAndSevenLaterByOthers
  intro s op ctx i c' hr hw hi hl
  obtain ⟨others, f, h⟩ := regCommand_writes hr hw hi
  exact h.seen hl

end Sys2Proof.Proofs
end

section
/-!
PROOFS. A slot that performs nothing: its predicate is false (R89), or a condition of Table 3.4a is unmet (R98, R104, R367).
-/

namespace Sys2Proof.Proofs

open Sys2Proof Sys2Proof.Machine Sys2Proof.Laws

/-! ### The two ways to perform nothing -/

theorem slotHolds_disabled {ctx : Ctx} {u : Nat} {w : SlotWord} {c : Core} (he : slotEnabled c u ctx.pos w = false) (strict : Bool)
    (rider : BitVec 9) : slotHolds ctx strict u rider w c = [] := by
  simp [slotHolds, he]

theorem wrHolds_of_slotHolds {ctx : Ctx} {strict : Bool} {rider : BitVec 9} {w : SlotWord} {c : Core}
    (hh : slotHolds ctx strict 7 rider w c ≠ []) : wrHolds ctx strict 7 w c ≠ [] := by
  unfold slotHolds at hh
  split at hh
  · exact absurd rfl hh
  · exact hh

theorem unit_of_wf_wr {op : SlotOp} (hw : Instr.wf (.wr op) = true) : op.unit.val = 7 := by
  simp only [Instr.wf, Bool.and_eq_true, beq_iff_eq, and_assoc] at hw
  obtain ⟨hu, -⟩ := hw
  exact hu

/-- A slot that performs nothing is not traced (R527). -/
theorem untapped {i : Instr} {op : SlotOp} {m : Mod} {ctx : Ctx} (hw : Instr.wf i = true) (ha : SlotAround m op ctx)
    (hq : slotEnabled (slotCore m op) op.unit.val ctx.pos op.word = false ∨
      slotHolds ctx true op.unit.val op.rider op.word (slotCore m op) ≠ []) :
    (if i = .wr op then traceWr op m else m) = m := by
  split
  case isTrue h =>
    subst h
    have hu := unit_of_wf_wr hw
    rw [hu] at hq
    exact traceWr_quiet ha hu (hq.imp_right wrHolds_of_slotHolds)
  case isFalse => rfl

/-- A slot whose conditions are unmet leaves the hold recorded, and a monitor WAITW its wait begun. -/
theorem runSlot_held {ctx : Ctx} {op : SlotOp} {c : Core} (f : Core → Eff)
    (he : slotEnabled c op.unit.val ctx.pos op.word = true) (hh : slotHolds ctx true op.unit.val op.rider op.word c ≠ []) :
    runSlot ctx op f c =
      let x := recHold c (slotHolds ctx true op.unit.val op.rider op.word c)
      { core := if op.unit.val = 9 ∧ sel op.word 39 34 = 5 ∧ !bit op.word 31 then waitwArm ctx op x else x } := by
  generalize hl : slotHolds ctx true op.unit.val op.rider op.word c = hs at hh ⊢
  cases hs with
  | nil => exact absurd rfl hh
  | cons h t => simp [runSlot, he, hl]

/-- Of the slot commands, the monitor WAITW alone is CC operation 5 without the poll bit (Table 6.13). -/
theorem monitorSlot_iff {i : Instr} {op : SlotOp} (hi : slotRow i = some op) (hw : Instr.wf i = true) :
    (op.unit.val = 9 ∧ sel op.word 39 34 = 5 ∧ !bit op.word 31) ↔ i = .waitwMonitor op := by
  cases i <;> simp only [slotRow, Option.some.injEq, reduceCtorEq] at hi
  all_goals
    subst hi
    simp only [Instr.wf, SlotOp.op, Bool.and_eq_true, Bool.or_eq_true, beq_iff_eq, reduceCtorEq, iff_false, iff_true] at hw ⊢
  case waitwMonitor =>
    obtain ⟨⟨⟨hu, ho⟩, hb⟩, -⟩ := hw
    exact ⟨hu, ho, hb⟩
  case waitwPoll =>
    obtain ⟨⟨-, hb⟩, -⟩ := hw
    simp [hb]
  all_goals omega

/-! ### What is recorded -/

/-- The record of the last hold is all that a hold changes. -/
theorem recHold_holdLast (c : Core) (hs : List Hold) :
    recHold c hs = { c with stall := { c.stall with holdLast := (recHold c hs).stall.holdLast } } := by
  cases hs <;> rfl

@[simp] theorem recHold_cc (c : Core) (hs : List Hold) : (recHold c hs).cc = c.cc := by rw [recHold_holdLast]

@[simp] theorem recHold_ni (c : Core) (hs : List Hold) : (recHold c hs).ni = c.ni := by rw [recHold_holdLast]

theorem waitwArm_waiting {ctx : Ctx} {op : SlotOp} {c : Core} (hm : c.ni.monitor.isSome = true) : waitwArm ctx op c = c := by
  obtain ⟨m, hm⟩ := Option.isSome_iff_exists.1 hm
  simp only [waitwArm, hm]

/-- The clamp word of a WAITW (Table 6.13). -/
def waitwWord (ctx : Ctx) (op : SlotOp) (c : Core) : Nat :=
  (sel op.word 27 17 + cntVal (regsAt c.cc.hist ((ctx.pos : Int) - 1)) (sel op.word 16 13)) % 2048

theorem waitwArm_begins {ctx : Ctx} {op : SlotOp} {c : Core} (hm : c.ni.monitor = none) :
    let a := waitwWord ctx op c
    let x := waitwArm ctx op c
    x.cc.words = c.cc.words.set a (c.cc.words.get a ||| 0x1000000000000000#64) ∧
    sel (x.cc.shadow.get a) 111 96 = (sel (c.cc.shadow.get a) 111 96 + 1) % 65536 ∧
    (∃ m, x.ni = { c.ni with monitor := some m } ∧ m.word = a ∧ m.released = none) ∧
    x = { c with cc := { c.cc with words := x.cc.words, shadow := x.cc.shadow }, ni := { c.ni with monitor := x.ni.monitor } } := by
  have hs : (waitwArm ctx op c).cc.shadow = c.cc.shadow.set (waitwWord ctx op c)
      (put (c.cc.shadow.get (waitwWord ctx op c)) 111 96 (sel (c.cc.shadow.get (waitwWord ctx op c)) 111 96 + 1)) := by
    simp only [waitwArm, hm]; rfl
  refine ⟨?_, ?_, ?_, ?_⟩
  · simp only [waitwArm, hm]; rfl
  · rw [hs, mem_get_set, if_pos rfl, sel_put_same _ _ _ _ (by decide) (by decide)]; rfl
  · simp only [waitwArm, hm]; exact ⟨_, rfl, rfl, rfl⟩
  · simp only [waitwArm, hm]

/-- A monitor wait begun after its hold is recorded. -/
theorem waitwArm_recHold {ctx : Ctx} {op : SlotOp} {c : Core} (hm : c.ni.monitor = none) (hs : List Hold) :
    let a := waitwWord ctx op c
    let x := waitwArm ctx op (recHold c hs)
    x.cc.words = c.cc.words.set a (c.cc.words.get a ||| 0x1000000000000000#64) ∧
    sel (x.cc.shadow.get a) 111 96 = (sel (c.cc.shadow.get a) 111 96 + 1) % 65536 ∧
    (∃ m, x.ni = { c.ni with monitor := some m } ∧ m.word = a ∧ m.released = none) ∧
    x = { c with cc := { c.cc with words := x.cc.words, shadow := x.cc.shadow }, ni := { c.ni with monitor := x.ni.monitor }
                 stall := { c.stall with holdLast := x.stall.holdLast } } := by
  have h := waitwArm_begins (ctx := ctx) (op := op) (c := recHold c hs) (by rw [recHold_ni]; exact hm)
  simp only [waitwWord, recHold_cc, recHold_ni] at h
  obtain ⟨hwords, hshadow, hmon, hx⟩ := h
  refine ⟨hwords, hshadow, hmon, ?_⟩
  rw [hx, recHold_holdLast c hs]

/-! ### The statements -/

/-- Settles O9: a false predicate empties the unmet conditions and leaves the operation undone. -/
theorem disabledSlotPerformsNothing : Obligations.DisabledSlotPerformsNothing := by
  unfold Obligations.DisabledSlotPerformsNothing
  intro s op ctx i hi hw ha he
  obtain ⟨f, hf⟩ := slot_effect hi hw
  refine ⟨?_, fun strict => slotHolds_disabled he strict _⟩
  rw [SlotLeaves, hf s ctx ha, untapped hw ha (.inl he), runSlot_disabled _ he, applyEff_core]

/-- Settles O10: beside the record of the hold, only a monitor WAITW that does not yet wait changes its core. -/
theorem heldSlotPerformsNothing : Obligations.HeldSlotPerformsNothing := by
  unfold Obligations.HeldSlotPerformsNothing
  intro s op ctx i hi hw ha he hh c
  obtain ⟨f, hf⟩ := slot_effect hi hw
  let hs := slotHolds ctx true op.unit.val op.rider op.word c
  have hl : SlotLeaves i s op (if i = .waitwMonitor op then waitwArm ctx op (recHold c hs) else recHold c hs) := by
    rw [SlotLeaves, hf s ctx ha, untapped hw ha (.inr hh), runSlot_held _ he hh, applyEff_core]
    simp only [monitorSlot_iff hi hw]
    rfl
  refine ⟨_, hl, fun hn => ?_, fun hi' hm => ?_⟩
  · have hx : (if i = .waitwMonitor op then waitwArm ctx op (recHold c hs) else recHold c hs) = recHold c hs := by
      split
      case isTrue h => exact waitwArm_waiting (by rw [recHold_ni]; exact hn.resolve_left (not_not_intro h))
      case isFalse => rfl
    rw [hx]
    exact recHold_holdLast c hs
  · rw [if_pos hi']
    exact waitwArm_recHold hm hs

end Sys2Proof.Proofs
end

section
/-!
PROOFS. The array's slots as commands, and the exchange of its planes (R118 to R120).
-/

namespace Sys2Proof.Proofs

open Sys2Proof Sys2Proof.Machine Sys2Proof.Laws

/-! ### An array command as its slot's operation -/

/-- A slot of a unit with an OP of its own and no encoding fault, as the rows of the array ask. -/
theorem wf_slot {op : SlotOp} {u o : Nat} (h : ((op.unit.val == u) && op.op == o && !slotBad op.unit.val op.word) = true) :
    op.unit.val = u ∧ op.op = o ∧ slotBad u op.word = false := by
  simp only [Bool.and_eq_true, beq_iff_eq, Bool.not_eq_true'] at h
  obtain ⟨⟨hu, ho⟩, hb⟩ := h
  exact ⟨hu, ho, hu ▸ hb⟩

section
variable {s : State} {op : SlotOp} {ctx : Ctx} {i : Instr} {f : Ctx → SlotOp → Core → Eff} {c : Core}

/-- A slot command that is no scratchpad port and executes leaves its operation's effect on the core that its memory check leaves. -/
theorem slotCommand_effect (hx : ∀ s, exec i s = s.runIf (Instr.wf i) (coreSlot f op)) (hw : Instr.wf i = true) (hr : SlotRuns s.m op ctx)
    (hu : op.unit.val ≠ 0 ∧ op.unit.val ≠ 1 ∧ op.unit.val ≠ 7) (hs : slotSram ctx op (slotCore s.m op) = { core := c }) :
    exec i s = .next { s with m := s.m.applyEff op.site { f ctx op c with core := passed ctx (f ctx op c).core } } := by
  rw [hx, runIf_wf hw, coreSlot_runs hr f hs hu]

/-- When the operation reads no accumulator row and raises no event, its core is all that changes. -/
theorem slotCommand_leaves (hx : ∀ s, exec i s = s.runIf (Instr.wf i) (coreSlot f op)) (hw : Instr.wf i = true) (hr : SlotRuns s.m op ctx)
    (hu : op.unit.val = 2 ∨ op.unit.val = 3) (hf : f ctx op (slotCore s.m op) = { core := c }) : SlotLeaves i s op (passed ctx c) := by
  rw [SlotLeaves, slotCommand_effect hx hw hr (by omega) (slotSram_quiet hr.sound (by omega)), hf, applyEff_core]

/-- The conditions of an executing WL slot are met (Table 3.4a). -/
theorem wlHolds_met (hr : SlotRuns s.m op ctx) (hu : op.unit.val = 2) (ho : op.op ≠ 0) : wlHolds ctx true op.word (slotCore s.m op) = [] := by
  have he := hr.enabled
  have hm := hr.met
  rw [hu] at he hm
  simp only [SlotOp.op] at ho
  simpa [slotHolds, he, ho] using hm

end

/-! ### The exchange -/

/-- WSWAP finds the shadow complete (R118). -/
theorem complete_of_wswap {s : State} {op : SlotOp} {ctx : Ctx} (hr : SlotRuns s.m op ctx) (hu : op.unit.val = 2) (ho : op.op = 4) :
    (slotCore s.m op).arr.complete = true := by
  have hm := wlHolds_met hr hu (by omega)
  simp only [SlotOp.op] at ho
  simpa [wlHolds, ho] using hm

theorem activeOf_unswapped {a : ArrayState} {cyc : Nat} (h : a.swapCycle ≠ some cyc) :
    activeOf a cyc = if a.active then a.plane1 else a.plane0 := by
  simp [activeOf, beq_eq_false_iff_ne.2 h]

theorem activeOf_swapped {a : ArrayState} {cyc : Nat} (h : a.swapCycle = some cyc) :
    activeOf a cyc = if a.active then a.plane0 else a.plane1 := by
  simp only [activeOf, h]
  cases a.active <;> simp

/-- Settles O17: the planes exchange roles at once for the load path, and from the next cycle on for MMUL. -/
theorem swapExchangesPlanes : Obligations.SwapExchangesPlanes := by
  unfold Obligations.SwapExchangesPlanes
  intro s op ctx hr hw
  obtain ⟨hu, ho, -⟩ := wf_slot (u := 2) (o := 4) hw
  refine ⟨slotCommand_leaves (f := fun ctx _ c => wswapExec ctx c) (fun _ => rfl) hw hr (.inl hu) rfl, complete_of_wswap hr hu ho,
    fun hn => ⟨?_, fun cyc hc => ?_⟩⟩
  · rw [activeOf_swapped rfl, activeOf_unswapped hn]
    cases (slotCore s.m op).arr.active <;> rfl
  · rw [activeOf_unswapped (by simpa using hc.ne)]
    cases (slotCore s.m op).arr.active <;> rfl

end Sys2Proof.Proofs
end

section
/-!
PROOFS. A plane load: the load that an operation acts in, what of it is written, and when the shadow is complete (R116, R117).
-/

namespace Sys2Proof.Proofs

open Sys2Proof Sys2Proof.Machine Sys2Proof.Laws

/-! ### The progress of a load -/

/-- A load operation that begins the load under way again: another format, or a data load of the other orientation (R116). -/
def Again (a : ArrayState) (fmt : Nat) (t : Option Bool) : Prop :=
  ∃ l, a.load = some l ∧ (l.fmt ≠ fmt ∨ ∃ o o', t = some o ∧ l.trans = some o' ∧ o ≠ o')

/-- A load that an operation begins. -/
def freshLoad (fmt : Nat) (t : Option Bool) : PlaneLoad := { fmt := fmt, trans := t, idx := 0, parts := 0 }

section
variable {a : ArrayState} {fmt : Nat} {t : Option Bool}

theorem planeLoadFor_begins (h : a.load = none) : planeLoadFor a fmt t = (freshLoad fmt t, false) := by
  simp [planeLoadFor, h, freshLoad]

theorem planeLoadFor_again (h : Again a fmt t) : planeLoadFor a fmt t = (freshLoad fmt t, true) := by
  obtain ⟨l, hl, hf | ⟨o, o', rfl, ho, hne⟩⟩ := h
  · simp [planeLoadFor, hl, hf, freshLoad]
  · simp [planeLoadFor, hl, ho, hne, freshLoad]

theorem planeLoadFor_continues {l : PlaneLoad} (hl : a.load = some l) (h : ¬ Again a fmt t) :
    planeLoadFor a fmt t = ({ l with trans := t.or l.trans }, false) ∧ l.fmt = fmt := by
  obtain rfl : l.fmt = fmt := by
    by_contra hf
    exact h ⟨l, hl, .inl hf⟩
  refine ⟨?_, rfl⟩
  cases t with
  | none => simp [planeLoadFor, hl]
  | some o =>
    cases ho : l.trans with
    | none => simp [planeLoadFor, hl, ho]
    | some o' =>
      obtain rfl : o = o' := by
        by_contra hne
        exact h ⟨l, hl, .inr ⟨o, o', rfl, ho, hne⟩⟩
      obtain ⟨f, tr, x, y⟩ := l
      cases ho
      simp [planeLoadFor, hl]

/-- The load that an operation acts in: one begun again, one begun, or the one under way (R116). -/
theorem planeLoadFor_cases (a : ArrayState) (fmt : Nat) (t : Option Bool) :
    (Again a fmt t ∧ planeLoadFor a fmt t = (freshLoad fmt t, true)) ∨
    (¬ Again a fmt t ∧ a.load = none ∧ planeLoadFor a fmt t = (freshLoad fmt t, false)) ∨
    ∃ l, ¬ Again a fmt t ∧ a.load = some l ∧ l.fmt = fmt ∧ planeLoadFor a fmt t = ({ l with trans := t.or l.trans }, false) := by
  by_cases ha : Again a fmt t
  · exact .inl ⟨ha, planeLoadFor_again ha⟩
  · cases hl : a.load with
    | none => exact .inr (.inl ⟨ha, rfl, planeLoadFor_begins hl⟩)
    | some l =>
      obtain ⟨h, hf⟩ := planeLoadFor_continues hl ha
      exact .inr (.inr ⟨l, ha, rfl, hf, h⟩)

end

/-- A load with the index, or the scale part, of one operation written. -/
def loadMarked (t : Option Bool) (idx : Nat) (l : PlaneLoad) : PlaneLoad :=
  match t with
  | some _ => { l with idx := l.idx ||| BitVec.ofNat 256 (2 ^ idx) }
  | none => { l with parts := l.parts ||| BitVec.ofNat 4 (2 ^ (idx % 4)) }

/-- A plane with the row of one load operation written. -/
def planeWritten (t : Option Bool) (fmt idx : Nat) (v : Row) (trans : Bool) (p : Plane) : Plane :=
  match t with
  | some _ => { p with fmt := fmt, trans := trans, rows := p.rows.set idx v }
  | none => { p with fmt := fmt, trans := trans, scales := p.scales.set (idx % 4) v }

/-- The plane that MMULs use. -/
def inUseOf (a : ArrayState) : Plane := if a.active then a.plane1 else a.plane0

section
variable (a : ArrayState) (cyc fmt : Nat) (t : Option Bool) (idx : Nat) (v : Row)

/-- The load under way after an operation. -/
def loadAfter : PlaneLoad := loadMarked t idx (planeLoadFor a fmt t).1

/-- Whether the load under way was whole before an operation of it. -/
def wholeBefore : Bool := !(planeLoadFor a fmt t).2 && a.load.isSome && loadDone (planeLoadFor a fmt t).1

theorem setShadow_eq (p : Plane) : setShadow a p =
    { a with plane0 := if a.active then p else a.plane0, plane1 := if a.active then a.plane1 else p } := by
  cases h : a.active <;> simp [setShadow, h]

/-- A load operation writes the shadow and its load's progress (R114 to R117). -/
theorem loadPlane_eq : loadPlane a cyc fmt t idx v =
    let l := loadAfter a fmt t idx
    let p := planeWritten t fmt idx v (l.trans.getD false) (shadowOf a)
    { a with
      plane0 := if a.active then p else a.plane0
      plane1 := if a.active then a.plane1 else p
      load := some l
      complete := if wholeBefore a fmt t then a.complete else false
      completeDue := if wholeBefore a fmt t then a.completeDue else if loadDone l then some (cyc + 5) else none
      cnt := { a.cnt with
        planeRestarts := if (planeLoadFor a fmt t).2 then bump48 a.cnt.planeRestarts 1 else a.cnt.planeRestarts } } := by
  have hw : (!(planeLoadFor a fmt t).2 && a.load.isSome && loadDone (planeLoadFor a fmt t).1) = wholeBefore a fmt t := rfl
  simp only [loadPlane, setShadow_eq, hw, loadAfter]
  cases wholeBefore a fmt t <;> cases (planeLoadFor a fmt t).2 <;> cases t <;> rfl

theorem loadPlane_shadow : shadowOf (loadPlane a cyc fmt t idx v) =
    planeWritten t fmt idx v ((loadAfter a fmt t idx).trans.getD false) (shadowOf a) := by
  rw [loadPlane_eq, shadowOf]
  cases a.active <;> rfl

theorem loadPlane_leaves : let a' := loadPlane a cyc fmt t idx v
    inUseOf a' = inUseOf a ∧ a' = { a with
      plane0 := a'.plane0, plane1 := a'.plane1, load := a'.load, complete := a'.complete, completeDue := a'.completeDue
      cnt := { a.cnt with planeRestarts := a'.cnt.planeRestarts } } := by
  rw [loadPlane_eq]
  refine ⟨?_, rfl⟩
  unfold inUseOf
  cases a.active <;> rfl

theorem loadPlane_progress : let a' := loadPlane a cyc fmt t idx v
    a'.load = some (loadAfter a fmt t idx) ∧
    a'.cnt.planeRestarts = (if (planeLoadFor a fmt t).2 then bump48 a.cnt.planeRestarts 1 else a.cnt.planeRestarts) ∧
    a'.complete = (if wholeBefore a fmt t then a.complete else false) ∧
    a'.completeDue = (if wholeBefore a fmt t then a.completeDue
      else if loadDone (loadAfter a fmt t idx) then some (cyc + 5) else none) := by
  rw [loadPlane_eq]
  exact ⟨rfl, rfl, rfl, rfl⟩

end

/-! ### What of a load is written -/

/-- One bit set, read. -/
theorem getLsbD_ofNat_two_pow {n k : Nat} (i : Nat) (hk : k < n) : (BitVec.ofNat n (2 ^ i)).getLsbD k = decide (i = k) := by
  rw [BitVec.getLsbD_ofNat, Nat.testBit_two_pow]
  simp [hk]

theorem loadMarked_trans (t : Option Bool) (idx : Nat) (l : PlaneLoad) : (loadMarked t idx l).trans = l.trans := by
  cases t <;> rfl

theorem loadMarked_fmt (t : Option Bool) (idx : Nat) (l : PlaneLoad) : (loadMarked t idx l).fmt = l.fmt := by
  cases t <;> rfl

theorem loadMarked_idx (t : Option Bool) {idx : Nat} (l : PlaneLoad) {k : Nat} (hk : k < 256) :
    (loadMarked t idx l).idx.getLsbD k = true ↔ (t ≠ none ∧ k = idx) ∨ l.idx.getLsbD k = true := by
  cases t with
  | none => simp [loadMarked]
  | some o =>
    rw [loadMarked, BitVec.getLsbD_or, getLsbD_ofNat_two_pow _ hk, Bool.or_eq_true, decide_eq_true_eq, or_comm, eq_comm]
    simp

theorem loadMarked_parts (t : Option Bool) {idx : Nat} (l : PlaneLoad) {k : Nat} (hk : k < 4) :
    (loadMarked t idx l).parts.getLsbD k = true ↔ (t = none ∧ k = idx % 4) ∨ l.parts.getLsbD k = true := by
  cases t with
  | none =>
    rw [loadMarked, BitVec.getLsbD_or, getLsbD_ofNat_two_pow _ hk, Bool.or_eq_true, decide_eq_true_eq, or_comm, eq_comm]
    simp
  | some o => simp [loadMarked]

section
variable {a : ArrayState} {fmt : Nat} {t : Option Bool}

/-- What an operation finds of the load it continues, for a mark of the load that a fresh load lacks. -/
theorem planeLoadFor_mark (f : PlaneLoad → Bool) (h0 : ∀ t, f (freshLoad fmt t) = false) (ht : ∀ l o, f { l with trans := o } = f l) :
    f (planeLoadFor a fmt t).1 = true ↔ ¬ Again a fmt t ∧ ∃ l, a.load = some l ∧ f l = true := by
  obtain ⟨ha, h⟩ | ⟨-, hl, h⟩ | ⟨l, ha, hl, -, h⟩ := planeLoadFor_cases a fmt t
  · simp [h, h0, ha]
  · simp [h, h0, hl]
  · rw [h, ht]
    simp [ha, hl]

theorem planeLoadFor_fmt : (planeLoadFor a fmt t).1.fmt = fmt := by
  obtain ⟨-, h⟩ | ⟨-, -, h⟩ | ⟨l, -, -, hf, h⟩ := planeLoadFor_cases a fmt t
  · rw [h]; rfl
  · rw [h]; rfl
  · rw [h]; exact hf

theorem planeLoadFor_restart : (planeLoadFor a fmt t).2 = true ↔ Again a fmt t := by
  obtain ⟨ha, h⟩ | ⟨ha, -, h⟩ | ⟨l, ha, -, -, h⟩ := planeLoadFor_cases a fmt t <;> simp [h, ha]

/-- A data load has its own orientation; a load of scales keeps that of the load it continues. -/
theorem planeLoadFor_trans : (planeLoadFor a fmt t).1.trans =
    t.or (a.load.bind (fun l => if l.fmt = fmt then l.trans else none)) := by
  obtain ⟨⟨l, hl, hn⟩, h⟩ | ⟨-, hl, h⟩ | ⟨l, -, hl, hf, h⟩ := planeLoadFor_cases a fmt t
  · rw [h]
    obtain hf | ⟨o, -, rfl, -, -⟩ := hn
    · simp [hl, hf, freshLoad]
    · rfl
  · simp [h, hl, freshLoad]
  · simp [h, hl, hf]

end

section
variable {a : ArrayState} {fmt idx k : Nat} {t : Option Bool}

theorem loadAfter_fmt : (loadAfter a fmt t idx).fmt = fmt := by
  rw [loadAfter, loadMarked_fmt, planeLoadFor_fmt]

/-- The indices written: the operation's own, and those of the load that it continues. -/
theorem loadAfter_idx (hk : k < 256) : (loadAfter a fmt t idx).idx.getLsbD k = true ↔
    (t ≠ none ∧ k = idx) ∨ ¬ Again a fmt t ∧ ∃ l, a.load = some l ∧ l.idx.getLsbD k = true := by
  rw [loadAfter, loadMarked_idx t _ hk, planeLoadFor_mark (fun l => l.idx.getLsbD k) (fun _ => BitVec.getLsbD_zero) (fun _ _ => rfl)]

theorem loadAfter_parts (hk : k < 4) : (loadAfter a fmt t idx).parts.getLsbD k = true ↔
    (t = none ∧ k = idx % 4) ∨ ¬ Again a fmt t ∧ ∃ l, a.load = some l ∧ l.parts.getLsbD k = true := by
  rw [loadAfter, loadMarked_parts t _ hk, planeLoadFor_mark (fun l => l.parts.getLsbD k) (fun _ => BitVec.getLsbD_zero) (fun _ _ => rfl)]

theorem loadAfter_trans : (loadAfter a fmt t idx).trans = t.or (a.load.bind (fun l => if l.fmt = fmt then l.trans else none)) := by
  rw [loadAfter, loadMarked_trans, planeLoadFor_trans]

end

/-- The number of load indices of a format (Table 4.1). -/
theorem fmtIndices_eq (f : Nat) : fmtIndices f = if f = 8 ∨ f = 9 then 64 else if f = 10 then 256 else 128 := by
  simp [fmtIndices, fmtIs4, fmtIsBf16]

theorem fmtIsMx_iff (f : Nat) : fmtIsMx f = true ↔ f = 3 ∨ f = 4 ∨ f = 5 ∨ f = 6 ∨ f = 8 := by
  simp [fmtIsMx, or_assoc]

/-- All of a word's low bits are set when it is a run of ones. -/
theorem mod_two_pow_eq_ones {n : Nat} (x : BitVec n) (k : Nat) :
    x.toNat % 2 ^ k = 2 ^ k - 1 ↔ ∀ i < k, x.getLsbD i = true := by
  constructor
  · intro h i hi
    have := congrArg (fun y => y.testBit i) h
    simpa [Nat.testBit_mod_two_pow, hi, Nat.testBit_two_pow_sub_one, BitVec.getLsbD] using this
  · intro h
    apply Nat.eq_of_testBit_eq
    intro i
    by_cases hi : i < k
    · simpa [Nat.testBit_mod_two_pow, hi, Nat.testBit_two_pow_sub_one, BitVec.getLsbD] using h i hi
    · simp [Nat.testBit_mod_two_pow, hi, Nat.testBit_two_pow_sub_one]

/-- A load is whole when every index of its format and, for an MX format, every scale part is written (R117). -/
theorem loadDone_iff (l : PlaneLoad) : loadDone l = true ↔
    (∀ i < fmtIndices l.fmt, l.idx.getLsbD i = true) ∧ (fmtIsMx l.fmt = true → ∀ i < 4, l.parts.getLsbD i = true) := by
  have hp : l.parts = 15#4 ↔ ∀ i < 4, l.parts.getLsbD i = true := by
    rw [← mod_two_pow_eq_ones, ← BitVec.toNat_inj, Nat.mod_eq_of_lt l.parts.isLt]
    rfl
  rw [← mod_two_pow_eq_ones, ← hp]
  cases h : fmtIsMx l.fmt <;> simp [loadDone, h]

theorem wholeBefore_iff (a : ArrayState) (fmt : Nat) (t : Option Bool) :
    wholeBefore a fmt t = true ↔ ∃ l, ¬ Again a fmt t ∧ a.load = some l ∧ loadDone l = true := by
  obtain ⟨ha, h⟩ | ⟨-, hl, h⟩ | ⟨l, ha, hl, -, h⟩ := planeLoadFor_cases a fmt t
  · simp [wholeBefore, h, ha]
  · simp [wholeBefore, hl]
  · have hd : loadDone { l with trans := t.or l.trans } = loadDone l := rfl
    simp [wholeBefore, h, hl, hd, ha]

end Sys2Proof.Proofs
end

section
/-!
PROOFS. The contents of a plane after a load, and the commands that load it (R112 to R118, Table 4.1).
-/

namespace Sys2Proof.Proofs

open Sys2Proof Sys2Proof.Machine Sys2Proof.Laws

/-! ### The elements of a row -/

/-- A 4-bit element is a half of its byte. -/
theorem elem4_toNat {n : Nat} (x : BitVec n) (e : Nat) :
    (elem 4 x e).toNat = if e % 2 = 0 then (elem 8 x (e / 2)).toNat % 16 else (elem 8 x (e / 2)).toNat / 16 := by
  simp only [elem, BitVec.extractLsb'_toNat, Nat.shiftRight_eq_div_pow]
  rcases Nat.mod_two_eq_zero_or_one e with h | h
  · have he : 4 * e = 8 * (e / 2) := by omega
    rw [if_pos h, he]
    omega
  · have he : 4 * e = 8 * (e / 2) + 4 := by omega
    rw [if_neg (by omega), he, pow_add, ← Nat.div_div_eq_div_mul]
    omega

section
variable {p : Plane}

theorem planeBits_of4 (h : fmtIs4 p.fmt = true) (a b : Nat) :
    planeBits p a b = (elem 4 (p.rows.get (a / 4)) (256 * (a % 4) + b)).toNat := by
  have h2 : (256 * (a % 4) + b) / 2 = 128 * (a % 4) + b / 2 := by omega
  have h1 : (256 * (a % 4) + b) % 2 = b % 2 := by omega
  rw [elem4_toNat, h1, h2, planeBits, if_pos h]
  rfl

theorem planeBits_of8 (h4 : fmtIs4 p.fmt = false) (h16 : fmtIsBf16 p.fmt = false) (a b : Nat) :
    planeBits p a b = (elem 8 (p.rows.get (a / 2)) (256 * (a % 2) + b)).toNat := by
  simp [planeBits, h4, h16, rbyte, Nat.mul_comm]

theorem planeBits_of16 (h : p.fmt = 10) (a b : Nat) : planeBits p a b = (elem 16 (p.rows.get a) b).toNat := by
  simp [planeBits, h, fmtIs4, fmtIsBf16]

/-- An element of a plane by the run that a load of an orientation gives it: a plane row, or with WLOADT a column (R114). -/
def elementOf (t : Bool) (p : Plane) (k n : Nat) : Fv := if t then planeAt p n k else planeAt p k n

theorem elementOf_eq {t : Bool} (h : p.trans = t) (k n : Nat) : elementOf t p k n = fmtDec p.fmt (planeBits p k n) := by
  subst h
  cases ht : p.trans <;> simp [elementOf, planeAt, ht]

end

/-! ### What a load writes -/

section
variable (a : ArrayState) (cyc fmt idx : Nat) (v : Row)

/-- A data load leaves the plane with the row at its index. -/
theorem loadPlane_data (t : Bool) : shadowOf (loadPlane a cyc fmt (some t) idx v) =
    { shadowOf a with fmt := fmt, trans := t, rows := (shadowOf a).rows.set idx v } := by
  rw [loadPlane_shadow, loadAfter, loadMarked_trans, planeLoadFor_trans]
  rfl

theorem loadPlane_scales : ∃ t, shadowOf (loadPlane a cyc fmt none idx v) =
    { shadowOf a with fmt := fmt, trans := t, scales := (shadowOf a).scales.set (idx % 4) v } :=
  ⟨_, loadPlane_shadow ..⟩

end

section
variable {p : Plane} {fmt idx : Nat} {v : Row} {t : Bool}

/-- Where the elements of a row of four runs lie. -/
theorem loaded_run4 {x : Nat} (hf : fmt = 8 ∨ fmt = 9) {j : Nat} (hj : j < 1024) :
    let p' : Plane := { p with fmt := fmt, trans := t, rows := p.rows.set x v }
    planeBits p' (4 * x + j / 256) (j % 256) = (elem 4 v j).toNat := by
  intro p'
  have h4 : fmtIs4 p'.fmt = true := by simpa [fmtIs4] using hf
  have hrow : (4 * x + j / 256) / 4 = x := by omega
  have hcol : 256 * ((4 * x + j / 256) % 4) + j % 256 = j := by omega
  rw [planeBits_of4 h4, hrow, hcol, mem_get_set, if_pos rfl]

theorem loaded_run8 {x : Nat} (hf : fmt ≤ 7) {j : Nat} (hj : j < 512) :
    let p' : Plane := { p with fmt := fmt, trans := t, rows := p.rows.set x v }
    planeBits p' (2 * x + j / 256) (j % 256) = (elem 8 v j).toNat := by
  intro p'
  have h4 : fmtIs4 p'.fmt = false := by simp [fmtIs4, p']; omega
  have h16 : fmtIsBf16 p'.fmt = false := by simp [fmtIsBf16, p']; omega
  have hrow : (2 * x + j / 256) / 2 = x := by omega
  have hcol : 256 * ((2 * x + j / 256) % 2) + j % 256 = j := by omega
  rw [planeBits_of8 h4 h16, hrow, hcol, mem_get_set, if_pos rfl]

theorem loaded_run16 {x j : Nat} :
    let p' : Plane := { p with fmt := 10, trans := t, rows := p.rows.set x v }
    planeBits p' x j = (elem 16 v j).toNat := by
  intro p'
  rw [planeBits_of16 rfl, mem_get_set, if_pos rfl]

end

/-- The row of a plane that holds a run of elements of a format (Table 4.1). -/
def runRow (fmt k : Nat) : Nat := if fmt = 10 then k else if fmt = 8 ∨ fmt = 9 then k / 4 else k / 2

theorem planeBits_congr {p p' : Plane} {k : Nat} (hf : p'.fmt = p.fmt) (hr : p'.rows.get (runRow p.fmt k) = p.rows.get (runRow p.fmt k))
    (n : Nat) : planeBits p' k n = planeBits p k n := by
  by_cases h16 : p.fmt = 10
  · rw [runRow, if_pos h16] at hr
    rw [planeBits_of16 h16, planeBits_of16 (hf.trans h16), hr]
  · rw [runRow, if_neg h16] at hr
    have h16' : fmtIsBf16 p.fmt = false := by simpa [fmtIsBf16] using h16
    by_cases h4 : p.fmt = 8 ∨ p.fmt = 9
    · have h4' : fmtIs4 p.fmt = true := by simpa [fmtIs4] using h4
      rw [if_pos h4] at hr
      rw [planeBits_of4 h4', planeBits_of4 (hf ▸ h4'), hr]
    · have h4' : fmtIs4 p.fmt = false := by simpa [fmtIs4] using h4
      rw [if_neg h4] at hr
      rw [planeBits_of8 h4' h16', planeBits_of8 (hf ▸ h4') (hf ▸ h16'), hr]

section
variable {a : ArrayState} {cyc fmt p : Nat} {v : Row} {t : Bool}

/-- A data load writes the elements at its index and keeps the others of its format and orientation (R114, Table 4.1). -/
theorem loadPlane_elements (hp : p < 256) : let a' := loadPlane a cyc fmt (some t) (p % fmtIndices fmt) v
    let W (x : ArrayState) (k n : Nat) : Fv := elementOf t (shadowOf x) k n
    (fmt = 8 ∨ fmt = 9 → ∀ j < 1024, W a' (4 * (p % 64) + j / 256) (j % 256) = fmtDec fmt (elem 4 v j).toNat) ∧
    (fmt ≤ 7 → ∀ j < 512, W a' (2 * (p % 128) + j / 256) (j % 256) = fmtDec fmt (elem 8 v j).toNat) ∧
    (fmt = 10 → ∀ j < 256, W a' p j = decBF16 (elem 16 v j).toNat) ∧
    ((shadowOf a).fmt = fmt → (shadowOf a).trans = t → ∀ k n,
      (if fmt = 10 then k ≠ p else if fmt = 8 ∨ fmt = 9 then k / 4 ≠ p % 64 else k / 2 ≠ p % 128) → W a' k n = W a k n) := by
  intro a' W
  have hs : shadowOf a' = { shadowOf a with fmt := fmt, trans := t, rows := (shadowOf a).rows.set (p % fmtIndices fmt) v } := loadPlane_data ..
  have hW (k n : Nat) : W a' k n = fmtDec fmt (planeBits (shadowOf a') k n) := by
    simp only [W]
    rw [elementOf_eq (by rw [hs]), hs]
  refine ⟨fun hf j hj => ?_, fun hf j hj => ?_, fun hf j hj => ?_, fun hf ht k n hk => ?_⟩
  · rw [hW, hs, fmtIndices_eq, if_pos hf, loaded_run4 hf hj]
  · rw [hW, hs, fmtIndices_eq, if_neg (by omega), if_neg (by omega), loaded_run8 hf hj]
  · subst hf
    rw [hW, hs, fmtIndices_eq, if_neg (by omega), if_pos rfl, Nat.mod_eq_of_lt hp, loaded_run16]
    rfl
  · have hx : runRow fmt k ≠ p % fmtIndices fmt := by
      rw [runRow, fmtIndices_eq]
      split_ifs at hk ⊢ <;> omega
    have hb := planeBits_congr (p := shadowOf a) (p' := shadowOf a') (k := k) (by rw [hs, hf])
      (by rw [hs, hf, mem_get_set, if_neg hx]) n
    rw [hW, hb, ← hf, ← elementOf_eq ht]

/-- A load of scales writes the scales at its part and keeps the others of its format (R115). -/
theorem loadPlane_scale (hm : fmtIsMx fmt = true) : let a' := loadPlane a cyc fmt none (p % 4) v
    (∀ j < 512, planeScale (shadowOf a') (2 * (p % 4) + j / 256) (j % 256) = decE8M0 (elem 8 v j).toNat) ∧
    ((shadowOf a).fmt = fmt → ∀ b n, b / 2 ≠ p % 4 → planeScale (shadowOf a') b n = planeScale (shadowOf a) b n) := by
  intro a'
  obtain ⟨o, hs⟩ : ∃ o, shadowOf a' = { shadowOf a with
      fmt := fmt, trans := o, scales := (shadowOf a).scales.set (p % 4 % 4) v } := loadPlane_scales ..
  rw [hs, Nat.mod_mod]
  refine ⟨fun j hj => ?_, fun hf b n hb => ?_⟩
  · have hrow : (2 * (p % 4) + j / 256) / 2 = p % 4 := by omega
    have hcol : (2 * (p % 4) + j / 256) % 2 * 256 + j % 256 = j := by omega
    simp only [planeScale, hm, if_true, hrow, hcol, mem_get_set, rbyte]
  · simp only [planeScale, hf, mem_get_set, if_neg hb]

end

/-! ### The commands that load a plane -/

/-- The index that a WL slot names, its counter added (R114, R207). -/
def wlIndex (ctx : Ctx) (op : SlotOp) (c : Core) : Nat :=
  (sel op.word 25 18 + cntVal (regsAt c.cc.hist ((ctx.pos : Int) - 7)) (sel op.word 17 14)) % 256

/-- The array after a WL slot's row is written as its load asks. -/
def wlLoaded (ctx : Ctx) (op : SlotOp) (t : Option Bool) (idx : Nat) (c : Core) : ArrayState :=
  loadPlane c.arr ctx.cycle (sel op.word 29 26) t idx ((c.head (sel op.word 33 31)).setWidth 4096)

/-- The core after a WL slot with its array. -/
def wlCore (ctx : Ctx) (op : SlotOp) (c : Core) (a : ArrayState) : Core :=
  passed ctx { c.pop (sel op.word 33 31) (bit op.word 30) with arr := a }

section
variable {s : State} {op : SlotOp} {ctx : Ctx} (hr : SlotRuns s.m op ctx)
include hr

theorem wload_leaves (hw : Instr.wf (.wload op) = true) : let c := slotCore s.m op
    SlotLeaves (.wload op) s op (wlCore ctx op c (wlLoaded ctx op (some false) (wlIndex ctx op c % fmtIndices (sel op.word 29 26)) c)) := by
  obtain ⟨hu, -, -⟩ := wf_slot (u := 2) (o := 1) hw
  exact slotCommand_leaves (f := fun ctx op c => wloadExec ctx op false c) (fun _ => rfl) hw hr (.inl hu) rfl

theorem wloadt_leaves (hw : Instr.wf (.wloadt op) = true) : let c := slotCore s.m op
    SlotLeaves (.wloadt op) s op (wlCore ctx op c (wlLoaded ctx op (some true) (wlIndex ctx op c % fmtIndices (sel op.word 29 26)) c)) := by
  obtain ⟨hu, -, -⟩ := wf_slot (u := 2) (o := 2) hw
  exact slotCommand_leaves (f := fun ctx op c => wloadExec ctx op true c) (fun _ => rfl) hw hr (.inl hu) rfl

theorem wloadS_leaves (hw : Instr.wf (.wloadS op) = true) : let c := slotCore s.m op
    SlotLeaves (.wloadS op) s op (wlCore ctx op c (wlLoaded ctx op none (wlIndex ctx op c % 4) c)) := by
  obtain ⟨hu, -, -⟩ := wf_slot (u := 2) (o := 3) hw
  exact slotCommand_leaves (f := fun ctx op c => wloadSExec ctx op c) (fun _ => rfl) hw hr (.inl hu) rfl

end

/-- A load of scales names an MX format (Table 6.16). -/
theorem mx_of_wloadS {op : SlotOp} (hw : Instr.wf (.wloadS op) = true) : fmtIsMx (sel op.word 29 26) = true := by
  obtain ⟨-, ho, hb⟩ := wf_slot (u := 2) (o := 3) hw
  simp only [SlotOp.op] at ho
  by_contra hm
  simp [slotBad, ho, hm] at hb

theorem exec_shadowComplete (site : Fin 25600) (s : State) : exec (.shadowComplete site) s =
    .next { s with m := s.m.onCore site (shadowComplete (s.m.region (siteRegion site)).cycle) } := rfl

theorem shadowComplete_due {c : Core} {cyc d : Nat} (hd : c.arr.completeDue = some d) (h : d ≤ cyc) :
    shadowComplete cyc c = { c with arr := { c.arr with complete := true, completeDue := none } } := by
  simp [shadowComplete, hd, h]

/-! ### The statement -/

/-- Settles O16: each load is `loadPlane` of its index and row, whose contents and progress the lemmas above give. -/
theorem planeLoads : Obligations.PlaneLoads := by
  unfold Obligations.PlaneLoads
  refine ⟨fun s op ctx hr => ?_, fun s site d hd hle => ?_, fun s op ctx hr => ?_⟩
  · intro c w fmt p v shadow inUse leaves data
    have hp : p < 256 := Nat.mod_lt _ (by decide)
    have hdata {i : Instr} {t : Bool} (hl : SlotLeaves i s op (wlCore ctx op c (wlLoaded ctx op (some t) (p % fmtIndices fmt) c))) :
        data i t := by
      obtain ⟨huse, hframe⟩ := loadPlane_leaves c.arr ctx.cycle fmt (some t) (p % fmtIndices fmt) v
      have hs := loadPlane_data c.arr ctx.cycle fmt (p % fmtIndices fmt) v t
      exact ⟨_, ⟨hl, huse, congrArg Plane.fmt hs, hframe⟩, (congrArg Plane.scales hs :), loadPlane_elements hp⟩
    refine ⟨fun hw => hdata (wload_leaves hr hw), fun hw => hdata (wloadt_leaves hr hw), fun hw => ?_⟩
    obtain ⟨huse, hframe⟩ := loadPlane_leaves c.arr ctx.cycle fmt none (p % 4) v
    obtain ⟨o, hs⟩ := loadPlane_scales c.arr ctx.cycle fmt (p % 4) v
    exact ⟨_, ⟨wloadS_leaves hr hw, huse, congrArg Plane.fmt hs, hframe⟩, (congrArg Plane.rows hs :), loadPlane_scale (mx_of_wloadS hw)⟩
  · rw [exec_shadowComplete, Mod.onCore, shadowComplete_due hd hle]
    rfl
  · intro c w a fmt p count mx whole progress
    have hwhole (l : PlaneLoad) : loadDone l = true ↔ whole l := by
      rw [loadDone_iff, fmtIndices_eq, fmtIsMx_iff]
    have hprogress {i : Instr} {t : Option Bool} {idx : Nat}
        (hl : SlotLeaves i s op (wlCore ctx op c (wlLoaded ctx op t idx c)))
        (hidx : t ≠ none → idx = p % fmtIndices fmt) (hpart : t = none → idx % 4 = p % 4) : progress i t := by
      obtain ⟨hload, hrestarts, hcomplete, hdue⟩ := loadPlane_progress a ctx.cycle fmt t idx ((c.head (sel w 33 31)).setWidth 4096)
      refine ⟨_, _, hl, hload, loadAfter_fmt, ?_⟩
      intro again old
      have hwas : wholeBefore a fmt t = true ↔ ∃ l0, ¬ again ∧ a.load = some l0 ∧ whole l0 := by
        simp only [wholeBefore_iff, hwhole]
        exact Iff.rfl
      rw [← hwas]
      refine ⟨?_, fun k hk => (loadAfter_idx hk).trans (or_congr_left (and_congr_right fun ht => by rw [hidx ht, fmtIndices_eq])),
        fun k hk => (loadAfter_parts hk).trans (or_congr_left (and_congr_right fun ht => by rw [hpart ht])),
        fun ha => hrestarts.trans (if_pos (planeLoadFor_restart.2 ha)), fun ha => hrestarts.trans (if_neg (mt planeLoadFor_restart.1 ha)),
        fun hb => ⟨hcomplete.trans (if_pos hb), hdue.trans (if_pos hb)⟩, fun hb => ⟨hcomplete.trans (if_neg hb), fun hl => ?_, fun hl => ?_⟩⟩
      · rw [loadAfter_trans]
        cases t with
        | some o => rfl
        | none => cases a.load <;> simp
      · exact hdue.trans ((if_neg hb).trans (if_pos ((hwhole _).2 hl)))
      · exact hdue.trans ((if_neg hb).trans (if_neg (mt (hwhole _).1 hl)))
    exact ⟨fun hw => hprogress (wload_leaves hr hw) (fun _ => rfl) nofun, fun hw => hprogress (wloadt_leaves hr hw) (fun _ => rfl) nofun,
      fun hw => hprogress (wloadS_leaves hr hw) (fun h => absurd rfl h) (fun _ => Nat.mod_mod _ _)⟩

end Sys2Proof.Proofs
end

section
/-!
PROOFS. Exact values: products, and the exact sum of R127 decided as R129 orders it.
-/

namespace Sys2Proof.Proofs

open Sys2Proof Sys2Proof.Machine Sys2Proof.Laws

/-! ### Exact values -/

/-- A product is finite only of finite factors. -/
theorem finite_factors {a b : Fv} (h : (a.mul b).isFin = true) : ∃ s m e t n f, a = .fin s m e ∧ b = .fin t n f := by
  cases a with
  | nan => cases h
  | inf s => cases b with
    | nan => cases h
    | inf t => cases h
    | fin t n f => simp only [Fv.mul] at h; split at h <;> cases h
  | fin s m e => cases b with
    | nan => cases h
    | inf t => simp only [Fv.mul] at h; split at h <;> cases h
    | fin t n f => exact ⟨s, m, e, t, n, f, rfl, rfl⟩

theorem isFin_of_mul {a b : Fv} (h : (a.mul b).isFin = true) : a.isFin = true ∧ b.isFin = true := by
  obtain ⟨s, m, e, t, n, f, rfl, rfl⟩ := finite_factors h
  exact ⟨rfl, rfl⟩

/-- A finite product is exact. -/
theorem fvRat_mul {a b : Fv} (h : (a.mul b).isFin = true) : fvRat (a.mul b) = fvRat a * fvRat b := by
  obtain ⟨s, m, e, t, n, f, rfl, rfl⟩ := finite_factors h
  have hp : (2 : ℚ) ^ (e + f) = 2 ^ e * 2 ^ f := zpow_add₀ two_ne_zero e f
  simp only [Fv.mul, fvRat, hp, Nat.cast_mul]
  cases s <;> cases t <;> simp <;> ring

/-- A value scaled at or below its exponent is the value. -/
theorem scaled_mul_zpow {v : Fv} {q : Int} (h : q ≤ v.expo) : (v.scaled q : ℚ) * 2 ^ q = fvRat v := by
  cases v with
  | nan => simp [Fv.scaled, fvRat]
  | inf s => simp [Fv.scaled, fvRat]
  | fin s m e =>
    by_cases hm : m = 0
    · cases s <;> simp [Fv.scaled, fvRat, hm]
    · have he : q ≤ e := by simpa [Fv.expo, hm] using h
      have hq : (2 : ℚ) ^ (e - q).toNat * 2 ^ q = 2 ^ e := by
        rw [← zpow_natCast, ← zpow_add₀ two_ne_zero]
        congr 1
        omega
      cases s <;> simp [Fv.scaled, fvRat, Nat.shiftLeft_eq, mul_assoc, hq]

/-! ### The exact sum -/

/-- The least exponent of a list of terms, at most `a`. -/
def leastExpo (ts : List Fv) (a : Int) : Int := ts.foldl (fun (a : Int) t => min a t.expo) a

/-- The terms added to `a` as multiples of `2^q`. -/
def scaledSum (q : Int) (ts : List Fv) (a : Int) : Int := ts.foldl (fun (a : Int) t => a + t.scaled q) a

theorem leastExpo_le (ts : List Fv) (a : Int) : leastExpo ts a ≤ a ∧ ∀ t ∈ ts, leastExpo ts a ≤ t.expo := by
  induction ts generalizing a with
  | nil => simp [leastExpo]
  | cons t ts ih =>
    obtain ⟨ha, hts⟩ := ih (min a t.expo)
    have hcons : leastExpo (t :: ts) a = leastExpo ts (min a t.expo) := rfl
    simp only [hcons, List.mem_cons, forall_eq_or_imp]
    exact ⟨ha.trans (min_le_left ..), ha.trans (min_le_right ..), hts⟩

theorem scaledSum_mul_zpow {ts : List Fv} {q : Int} (h : ∀ t ∈ ts, q ≤ t.expo) (a : Int) :
    (scaledSum q ts a : ℚ) * 2 ^ q = a * 2 ^ q + (ts.map fvRat).sum := by
  induction ts generalizing a with
  | nil => simp [scaledSum]
  | cons t ts ih =>
    simp only [List.mem_cons, forall_eq_or_imp] at h
    obtain ⟨ht, hts⟩ := h
    have hcons : scaledSum q (t :: ts) a = scaledSum q ts (a + t.scaled q) := rfl
    rw [hcons, ih hts, Int.cast_add, add_mul, scaled_mul_zpow ht, List.map_cons, List.sum_cons, add_assoc]

section
variable {ts : List Fv}

theorem any_isNan : ts.any Fv.isNan = decide (Fv.nan ∈ ts) := by
  rw [Bool.eq_iff_iff, List.any_eq_true, decide_eq_true_eq]
  constructor
  · rintro ⟨t, ht, hn⟩
    cases t with
    | nan => exact ht
    | inf s => cases hn
    | fin s m e => cases hn
  · exact fun h => ⟨_, h, rfl⟩

theorem sumExact_nan (h : Fv.nan ∈ ts) : sumExact ts = .nan := by
  simp [sumExact, any_isNan, h]

theorem sumExact_opposed (h : Fv.inf false ∈ ts) (h' : Fv.inf true ∈ ts) : sumExact ts = .nan := by
  simp [sumExact, h, h']

theorem sumExact_inf {b : Bool} (h : ∀ t ∈ ts, t ≠ .nan ∧ t ≠ .inf (!b)) (hb : Fv.inf b ∈ ts) : sumExact ts = .inf b := by
  have hn : Fv.nan ∉ ts := fun hn => (h _ hn).1 rfl
  have ho : Fv.inf (!b) ∉ ts := fun ho => (h _ ho).2 rfl
  cases b <;> simp_all [sumExact, any_isNan]

variable (hf : ∀ t ∈ ts, t.isFin = true)
include hf

/-- The sum of finite terms is decided by an integer multiple of their least exponent. -/
theorem sumExact_finite : ∃ (s q : Int), (s : ℚ) * 2 ^ q = (ts.map fvRat).sum ∧
    sumExact ts = if s = 0 then .fin (ts.all Fv.isNegZero && !ts.isEmpty) 0 0 else .fin (s < 0) s.natAbs q := by
  refine ⟨scaledSum (leastExpo ts 0) ts 0, leastExpo ts 0, ?_, ?_⟩
  · rw [scaledSum_mul_zpow (leastExpo_le ts 0).2, Int.cast_zero, zero_mul, zero_add]
  · have hn : Fv.nan ∉ ts := fun hn => by cases hf _ hn
    have hi (b : Bool) : Fv.inf b ∉ ts := fun hi => by cases hf _ hi
    simp [sumExact, any_isNan, hn, hi]
    rfl

theorem fvRat_sumExact : fvRat (sumExact ts) = (ts.map fvRat).sum := by
  obtain ⟨s, q, hs, hx⟩ := sumExact_finite hf
  rw [hx, ← hs]
  by_cases h0 : s = 0
  · simp [h0, fvRat]
  · rw [if_neg h0, fvRat]
    congr 1
    rcases lt_or_gt_of_ne h0 with hlt | hgt
    · simp [hlt, Nat.cast_natAbs, abs_of_neg hlt]
    · simp [not_lt.2 hgt.le, Nat.cast_natAbs, abs_of_pos hgt]

/-- A zero sum is −0 only of −0 terms (R129). -/
theorem sumExact_negZero (hne : ts ≠ []) (h0 : fvRat (sumExact ts) = 0) :
    (∃ e, sumExact ts = .fin true 0 e) ↔ ∀ t ∈ ts, t.isNegZero = true := by
  obtain ⟨s, q, hs, hx⟩ := sumExact_finite hf
  have hz : s = 0 := by
    rw [fvRat_sumExact hf, ← hs] at h0
    exact_mod_cast (mul_eq_zero.1 h0).resolve_right (zpow_ne_zero q two_ne_zero)
  rw [hx, if_pos hz]
  simp [hne]

end

end Sys2Proof.Proofs
end

section
/-!
PROOFS. MMUL: the exact slices of its input vectors (R113, R123 to R129, R134).
-/

namespace Sys2Proof.Proofs

open Sys2Proof Sys2Proof.Machine Sys2Proof.Laws

/-! ### One slice against a plane -/

/-- One product of a slice: element, plane element and block scales (R127). -/
def sliceTerm (p : Plane) (x sx : Nat → Fv) (n k : Nat) : Fv := ((x k).mul (planeAt p k n)).mul ((sx (k / 32)).mul (planeScale p (k / 32) n))

theorem fvRat_sliceTerm {p : Plane} {x sx : Nat → Fv} {n k : Nat} (h : (sliceTerm p x sx n k).isFin = true) :
    fvRat (sliceTerm p x sx n k) = fvRat (x k) * fvRat (planeAt p k n) * fvRat (sx (k / 32)) * fvRat (planeScale p (k / 32) n) := by
  obtain ⟨hx, hs⟩ := isFin_of_mul h
  rw [sliceTerm, fvRat_mul h, fvRat_mul hx, fvRat_mul hs, ← mul_assoc]

/-- A column of a slice is its exact sum, decided as R129 orders it. -/
theorem sliceCol_spec (p : Plane) (x sx : Nat → Fv) (n : Nat) : let y := sliceCol p x sx n
    let term := sliceTerm p x sx n
    ((∃ k < 256, term k = .nan) → y = .nan) ∧
    ((∃ k < 256, term k = .inf false) → (∃ k < 256, term k = .inf true) → y = .nan) ∧
    (∀ b, (∀ k < 256, term k ≠ .nan ∧ term k ≠ .inf (!b)) → (∃ k < 256, term k = .inf b) → y = .inf b) ∧
    ((∀ k < 256, (term k).isFin = true) →
      fvRat y = ((List.range 256).map (fun k => fvRat (x k) * fvRat (planeAt p k n) * fvRat (sx (k / 32)) *
        fvRat (planeScale p (k / 32) n))).sum ∧
      (fvRat y = 0 → ((∃ e, y = .fin true 0 e) ↔ ∀ k < 256, (term k).isNegZero = true))) := by
  intro y term
  have hy : y = sumExact ((List.range 256).map term) := rfl
  have hmem (v : Fv) : v ∈ (List.range 256).map term ↔ ∃ k < 256, term k = v := by simp
  have hall (P : Fv → Prop) : (∀ v ∈ (List.range 256).map term, P v) ↔ ∀ k < 256, P (term k) := by simp
  rw [hy]
  simp only [← hmem]
  refine ⟨sumExact_nan, sumExact_opposed, fun b h => sumExact_inf ((hall _).2 h), fun h => ?_⟩
  have hf := (hall (fun v => v.isFin = true)).2 h
  refine ⟨?_, fun h0 => ?_⟩
  · rw [fvRat_sumExact hf, List.map_map]
    exact congrArg List.sum (List.map_congr_left fun k hk => fvRat_sliceTerm (h k (List.mem_range.1 hk)))
  · rw [sumExact_negZero hf (by simp) h0]
    exact hall _

theorem sliceCols_getD (p : Plane) (x sx : Nat → Fv) {n : Nat} (hn : n < 256) :
    (sliceCols p x sx).getD n .nan = if p.fmt = 0 then .fin false 0 0 else sliceCol p x sx n := by
  simp [sliceCols, hn]

theorem fmtIsMx_eq (f : Nat) : fmtIsMx f = [3, 4, 5, 6, 8].contains f := by
  rw [Bool.eq_iff_iff, fmtIsMx_iff]
  simp

theorem fmtIs4_eq (f : Nat) : fmtIs4 f = decide (f = 8 ∨ f = 9) := by
  simp [fmtIs4]

theorem fmtPairs_iff (f p : Nat) : fmtPairs f p = true ↔ p = 0 ∨ f = p ∨ (1 ≤ f ∧ f ≤ 6 ∧ 1 ≤ p ∧ p ≤ 6) := by
  simp only [fmtPairs, fmtIsFloat8, Bool.or_eq_true, Bool.and_eq_true, decide_eq_true_eq]
  tauto

/-- An element of an MMUL's row (R124). -/
theorem inputAt_eq (f : Nat) (r : Row) (half : Bool) (v k : Nat) : inputAt f r half v k =
    fmtDec f (if f = 8 ∨ f = 9 then (elem 4 r (512 * (if half then 1 else 0) + 256 * v + k)).toNat
      else if f = 10 then (elem 16 r k).toNat else (elem 8 r (256 * (if half then 1 else 0) + k)).toNat) := by
  have h16 : fmtIsBf16 f = true ↔ f = 10 := by simp [fmtIsBf16]
  simp only [inputAt, fmtIs4_eq, decide_eq_true_eq, h16, elem4_toNat, rbyte]
  cases half <;> split_ifs <;> rfl

/-! ### The slot's operation -/

/-- The input format of an MMUL's slot (Table 6.5). -/
def mulFmt (op : SlotOp) : Nat := sel op.word 33 30

/-- Element `k` of input vector `v`. -/
def mulX (op : SlotOp) (c : Core) (v k : Nat) : Fv :=
  inputAt (mulFmt op) ((c.head (sel op.word 29 27)).setWidth 4096) (bit op.word 25) v k

/-- The scale of block `b` of input vector `v`, 1 where the format is no MX one (R123). -/
def mulScale (ctx : Ctx) (op : SlotOp) (c : Core) (v b : Nat) : Fv :=
  let g := (sel op.word 20 15 + cntVal (slotRegs c 3 ctx.pos) (sel op.word 14 11)) % 64
  if fmtIsMx (mulFmt op) then decE8M0 (rbyte ((c.head (sel op.word 24 22)).setWidth 4096) (8 * ((g + v) % 64) + b)).toNat else .fin false 1 0

/-- Whether the input format pairs with the plane's (R123). -/
def mulPairs (ctx : Ctx) (op : SlotOp) (c : Core) : Bool := fmtPairs (mulFmt op) (activeOf c.arr ctx.cycle).fmt

/-- The slices an MMUL leaves for the AC slot. -/
def mulCols (ctx : Ctx) (op : SlotOp) (c : Core) : List (List Fv) :=
  (List.range (if fmtIs4 (mulFmt op) then 2 else 1)).map (fun v =>
    if mulPairs ctx op c then sliceCols (activeOf c.arr ctx.cycle) (mulX op c v) (mulScale ctx op c v) else List.replicate 256 .nan)

/-- The array's record after an MMUL whose formats pair or do not. -/
def mulCnt (pairs : Bool) (k : ArrayRec) : ArrayRec :=
  if pairs then k else { k with formatMismatches := bump48 k.formatMismatches 1, sticky := sticky k.sticky 4 }

/-- The core with the input row and, for an MX format, the scale row popped or peeked. -/
def mulPopped (op : SlotOp) (c : Core) : Core :=
  if fmtIsMx (mulFmt op) then (c.pop (sel op.word 29 27) (bit op.word 26)).pop (sel op.word 24 22) (bit op.word 21)
  else c.pop (sel op.word 29 27) (bit op.word 26)

theorem arr_pop (c : Core) (q : Nat) (b : Bool) : (c.pop q b).arr = c.arr := by
  obtain ⟨qs, h⟩ := pop_queues c q b
  rw [h]

theorem arr_mulPopped (op : SlotOp) (c : Core) : (mulPopped op c).arr = c.arr := by
  unfold mulPopped
  split <;> simp only [arr_pop]

theorem mmulExec_eq (ctx : Ctx) (op : SlotOp) (c : Core) : mmulExec ctx op c = { core := { mulPopped op c with arr := { c.arr with
    latch := some { cols := mulCols ctx op c, bf16 := fmtIsBf16 (mulFmt op) }, cnt := mulCnt (mulPairs ctx op c) c.arr.cnt } } } := by
  have h : mmulExec ctx op c = { core := { mulPopped op c with arr := { (mulPopped op c).arr with
      latch := some { cols := mulCols ctx op c, bf16 := fmtIsBf16 (mulFmt op) }
      cnt := mulCnt (mulPairs ctx op c) (mulPopped op c).arr.cnt } } } := rfl
  rw [h, arr_mulPopped]

section
variable {ctx : Ctx} {op : SlotOp} {c : Core}

theorem mulCols_length : (mulCols ctx op c).length = if fmtIs4 (mulFmt op) then 2 else 1 := by
  rw [mulCols, List.length_map, List.length_range]

theorem mulCols_columns {l : List Fv} (h : l ∈ mulCols ctx op c) : l.length = 256 := by
  obtain ⟨v, -, rfl⟩ := List.mem_map.1 h
  split
  · rw [sliceCols, List.length_map, List.length_range]
  · exact List.length_replicate

theorem mulCols_unpaired (hp : mulPairs ctx op c = false) {l : List Fv} (h : l ∈ mulCols ctx op c) :
    l = List.replicate 256 .nan := by
  obtain ⟨v, -, rfl⟩ := List.mem_map.1 h
  exact if_neg (hp ▸ Bool.false_ne_true)

theorem mulCols_paired (hp : mulPairs ctx op c = true) {v : Nat} (hv : v < (mulCols ctx op c).length) :
    (mulCols ctx op c).getD v [] = sliceCols (activeOf c.arr ctx.cycle) (mulX op c v) (mulScale ctx op c v) := by
  rw [List.getD_eq_getElem _ _ hv]
  simp only [mulCols, List.getElem_map, List.getElem_range, hp, if_true]

end

/-- Settles O18: each column of a paired MMUL is one exact sum of its products. -/
theorem multiplyLeavesExactSlices : Obligations.MultiplyLeavesExactSlices := by
  unfold Obligations.MultiplyLeavesExactSlices
  intro s op ctx hr hw c w fmt mx four g r sc plane half x sx prod pairs popped
  obtain ⟨hu, -, -⟩ := wf_slot (u := 3) (o := 1) hw
  have hpairs : mulPairs ctx op c = true ↔ pairs := fmtPairs_iff ..
  have hmx : fmtIsMx fmt = mx fmt := fmtIsMx_eq fmt
  have hfour : fmtIs4 fmt = four := fmtIs4_eq fmt
  have hpopped : mulPopped op c = popped := by simp only [mulPopped, popped, ← hmx]; rfl
  refine ⟨mulCols ctx op c, { c.arr with
      latch := some { cols := mulCols ctx op c, bf16 := fmtIsBf16 fmt }, cnt := mulCnt (mulPairs ctx op c) c.arr.cnt }, ?_, rfl,
    fun hp => if_pos (hpairs.2 hp), fun hp => ⟨if_neg (mt hpairs.1 hp), fun l => mulCols_unpaired ?_⟩, ?_, fun l => mulCols_columns, ?_⟩
  · rw [← hpopped]
    exact slotCommand_leaves (fun _ => rfl) hw hr (.inr hu) (mmulExec_eq ..)
  · rwa [← Bool.not_eq_true, hpairs]
  · rw [mulCols_length]
    exact if_congr (hfour ▸ Iff.rfl) rfl rfl
  · intro v n hv hn hp y
    have hy : y = if plane.fmt = 0 then .fin false 0 0 else sliceCol plane (mulX op c v) (mulScale ctx op c v) n := by
      simp only [y]
      rw [mulCols_paired (hpairs.2 hp) hv]
      exact sliceCols_getD _ _ _ hn
    have hx : x v = mulX op c v := by
      funext k
      rw [mulX, inputAt_eq]
      simp [x, four, fmt, half, r, w, mulFmt]
    have hsx (k : Nat) : sx v k = mulScale ctx op c v (k / 32) := by
      simp only [sx, mulScale, ← hmx]
      rfl
    have hprod : prod v n = sliceTerm plane (mulX op c v) (mulScale ctx op c v) n := by
      funext k
      simp only [prod, hx, hsx, sliceTerm]
    refine ⟨fun h0 => hy.trans (if_pos h0), fun h0 => ?_⟩
    rw [if_neg h0] at hy
    simp only [hprod, hy, hx, hsx]
    exact sliceCol_spec plane (mulX op c v) (mulScale ctx op c v) n

end Sys2Proof.Proofs
end

section
/-!
PROOFS. One accumulation: how it begins in its core, and how it is written into its row (R128 to R150, R281).
-/

namespace Sys2Proof.Proofs

open Sys2Proof Sys2Proof.Machine Sys2Proof.Laws

/-! ### One slice into one row -/

section
variable (ctx : Ctx) (zero srSel mx bf16 : Bool) (row : Nat) (cols : List Fv) (c : Core)

/-- The index that a slice takes in its row (R141). -/
def accIndex : W32 := if zero then 0 else c.arr.sliceCnt.get row

/-- A column of a slice, rounded once to FP32 (R128). -/
def accVal (n : Nat) : W32 :=
  encF32 (if (srSel && !ctx.accNearest) && mx then .sr (srLo (srBits (seedAt c ctx.pos) ctx.core (accIndex zero row c).toNat row n)) else .rne)
    (cols.getD n .nan)

/-- Whether a column of the slice is not finite. -/
def accNonfinite : Bool := (List.range 256).any (fun n => !isFinF (lane (vecOf (accVal ctx zero srSel mx row cols c)) n))

/-- The array's record with a slice that is not finite counted. -/
def accCounted : ArrayRec :=
  if accNonfinite ctx zero srSel mx row cols c then
    { c.arr.cnt with nonfiniteSlices := bump48 c.arr.cnt.nonfiniteSlices 1, sticky := sticky c.arr.cnt.sticky 0 }
  else c.arr.cnt

/-- The write put under way. -/
def accPending : PendAcc :=
  { due := if bf16 then ctx.due 17 18 else ctx.due 14 15, row := row, vals := vecOf (accVal ctx zero srSel mx row cols c), replace := zero
    sumSr := srSel && !ctx.accNearest, seed := seedAt c ctx.pos, slice := accIndex zero row c }

end

section
variable {ctx : Ctx} {zero srSel mx bf16 : Bool} {row : Nat} {cols : List Fv} {c : Core}

/-- Into a gated half nothing is written, and the access is counted (R281). -/
theorem accOne_gated (h : accGated ctx.decl row = true) : accOne ctx zero srSel mx bf16 row cols c =
    recGated { c with arr := { c.arr with cnt := accCounted ctx zero srSel mx row cols c } } 4 ctx.pos := if_pos h

theorem accOne_open (h : accGated ctx.decl row = false) : accOne ctx zero srSel mx bf16 row cols c = { core := { c with arr := { c.arr with
    cnt := { accCounted ctx zero srSel mx row cols c with slices := bump48 (accCounted ctx zero srSel mx row cols c).slices 1 }
    sliceCnt := c.arr.sliceCnt.set row (accIndex zero row c + 1)
    inflight := Tab.upd c.arr.inflight row 0 (· + 1)
    pend := c.arr.pend ++ [accPending ctx zero srSel mx bf16 row cols c] } } } := if_neg (h ▸ Bool.false_ne_true)

theorem accNonfinite_iff : accNonfinite ctx zero srSel mx row cols c = true ↔
    ∃ n < 256, isFinF (accVal ctx zero srSel mx row cols c n) = false := by
  simp only [accNonfinite, List.any_eq_true, List.mem_range, Bool.not_eq_true']
  exact exists_congr fun n => and_congr_right fun hn => by rw [lane_vecOf _ _ hn]

theorem accCounted_nonfinite (h : ∃ n < 256, isFinF (accVal ctx zero srSel mx row cols c n) = false) :
    accCounted ctx zero srSel mx row cols c =
      { c.arr.cnt with nonfiniteSlices := bump48 c.arr.cnt.nonfiniteSlices 1, sticky := sticky c.arr.cnt.sticky 0 } :=
  if_pos (accNonfinite_iff.2 h)

theorem accCounted_finite (h : ∀ n < 256, isFinF (accVal ctx zero srSel mx row cols c n) = true) :
    accCounted ctx zero srSel mx row cols c = c.arr.cnt := by
  refine if_neg (mt accNonfinite_iff.1 ?_)
  rintro ⟨n, hn, hf⟩
  simp [h n hn] at hf

/-- What counting a slice leaves of the array's record. -/
theorem accCounted_leaves : ∃ k st, accCounted ctx zero srSel mx row cols c = { c.arr.cnt with nonfiniteSlices := k, sticky := st } := by
  unfold accCounted
  split
  · exact ⟨_, _, rfl⟩
  · exact ⟨_, _, rfl⟩

/-- Gated or not, a slice counts when it is not finite (R150). -/
theorem accOne_counts : let k := (accOne ctx zero srSel mx bf16 row cols c).core.arr.cnt
    k.nonfiniteSlices = (accCounted ctx zero srSel mx row cols c).nonfiniteSlices ∧
    k.sticky = (accCounted ctx zero srSel mx row cols c).sticky := by
  obtain ⟨k, st, hk⟩ := accCounted_leaves (ctx := ctx) (zero := zero) (srSel := srSel) (mx := mx) (row := row) (cols := cols) (c := c)
  cases h : accGated ctx.decl row with
  | true => rw [accOne_gated h, hk]; exact ⟨rfl, rfl⟩
  | false => rw [accOne_open h, hk]; exact ⟨rfl, rfl⟩

end

/-! ### An accumulation written into its row -/

/-- What an accumulation makes of a column of its row before the rounding (R130, R136): the value that replaces it, or the exact sum. -/
def accSum (half : Bool) (p : PendAcc) (old : Vec) (n : Nat) : Fv :=
  let v := decF32 (lane p.vals n)
  if p.replace then v else
    let t := sumExact [if half then decBF16 (elem 16 old n).toNat else decF32 (lane old n), v]
    if t.isZero then .fin false 0 0 else t

/-- The row that an accumulation leaves (R136, R144). -/
def accRow (half : Bool) (core : Nat) (p : PendAcc) (old : Vec) : Vec :=
  let rs := (List.range 256).map (accCol half core p old)
  if half then BitVec.ofNat 8192 (packNat 16 (fun n => ((rs.getD n (0, false, false)).1).setWidth 16) 256)
  else vecOf (fun n => (rs.getD n (0, false, false)).1)

section
variable {core : Nat} {p : PendAcc} {old : Vec} {n : Nat} (hn : n < 256)
include hn

theorem accRow_full : lane (accRow false core p old) n = if p.replace then lane p.vals n
    else encF32 (if p.sumSr then .sr (srHi (srBits p.seed core p.slice.toNat p.row n)) else .rne) (accSum false p old n) := by
  simp [accRow, lane_vecOf _ _ hn, hn, accCol, accSum]

theorem accRow_half : elem 16 (accRow true core p old) n =
    BitVec.ofNat 16 (encBF16 (.sr (srHi (srBits p.seed core p.slice.toNat p.row n))) (accSum true p old n)) := by
  rw [accRow, if_pos rfl, elem_packNat _ _ _ _ hn (by decide)]
  simp [hn, accCol, accSum]

end

section
variable {c : Core} {p : PendAcc} {pre post : List PendAcc} {cyc : Nat} (hp : c.arr.pend = pre ++ p :: post) (hd : p.due ≤ cyc)
  (hpre : ∀ q ∈ pre, cyc < q.due)
include hp hd hpre

theorem pend_oldest : c.arr.pend.find? (fun q => decide (q.due ≤ cyc)) = some p := by
  have hnone : pre.find? (fun q => decide (q.due ≤ cyc)) = none := by
    simpa [List.find?_eq_none] using hpre
  rw [hp, List.find?_append, hnone]
  simp [hd]

theorem pend_erase : c.arr.pend.erase p = pre ++ post := by
  have hnot : p ∉ pre := fun h => absurd (hpre p h) (by omega)
  rw [hp, List.erase_append_right _ hnot, List.erase_cons_head]

theorem accWrite_writes (half : Bool) (core : Nat) : ∃ k, accWrite half core cyc c = { c with arr := { c.arr with
      acc := c.arr.acc.set p.row (accRow half core p (c.arr.acc.get p.row)), pend := pre ++ post
      inflight := Tab.upd c.arr.inflight p.row 0 (· - 1), cnt := k } } ∧
    (bit c.arr.cnt.firstNonfinite 31 = true → k.firstNonfinite = c.arr.cnt.firstNonfinite) := by
  simp only [accWrite, pend_oldest hp hd hpre, pend_erase hp hd hpre]
  refine ⟨_, rfl, fun hb => ?_⟩
  split_ifs <;> simp [firstOf, hb]

end

theorem exec_accRowWritten {site : Fin 25600} {s : State} {k : Nat} (h : (s.m.region (siteRegion site)).coreOf site = some k) :
    exec (.accRowWritten site) s = .next { s with m := s.m.setCore site (accWrite (s.m.region (siteRegion site)).decl.halfWidth k
      (s.m.region (siteRegion site)).cycle (s.m.core site)) } := by
  have hx : exec (.accRowWritten site) s = execAccRowWritten site s := rfl
  have hw : Instr.wf (.accRowWritten site) = true := rfl
  rw [hx, execAccRowWritten, runIf_wf hw]
  simp only [h]
  rfl

/-! ### The statement -/

/-- Settles O19: an accumulation begins as `accOne` puts it under way, and the oldest one due leaves `accRow` in its row. -/
theorem accumulationsBeginAndWrite : Obligations.AccumulationsBeginAndWrite := by
  unfold Obligations.AccumulationsBeginAndWrite
  refine ⟨fun ctx zero sr mx bf16 row cols c => ?_, fun s site k p pre post => ?_⟩
  · intro e a a' index rnd val lat
    have hval : val = accVal ctx zero sr mx row cols c := by
      funext n
      simp only [val, rnd, accVal, Bool.and_right_comm]
      rfl
    have hdue : (if bf16 then ctx.due 17 18 else ctx.due 14 15) = lat := by
      cases bf16 <;> rfl
    obtain ⟨hslices, hsticky⟩ : a'.cnt.nonfiniteSlices = (accCounted ctx zero sr mx row cols c).nonfiniteSlices ∧
      a'.cnt.sticky = (accCounted ctx zero sr mx row cols c).sticky := accOne_counts
    rw [hval, hslices, hsticky]
    refine ⟨fun hn => ?_, fun hf => ?_, fun hg => ?_, fun hg => ?_⟩
    · rw [accCounted_nonfinite hn]
      exact ⟨rfl, bit_sticky _ _ (by decide)⟩
    · rw [accCounted_finite hf]
      exact ⟨rfl, rfl⟩
    · obtain ⟨k, st, hk⟩ := accCounted_leaves (ctx := ctx) (zero := zero) (srSel := sr) (mx := mx) (row := row) (cols := cols) (c := c)
      have he : e = _ := accOne_open hg
      simp only [a', he, hk, mem_get_set, if_true, get_upd, accPending, hdue]
      exact ⟨trivial, rfl, ⟨_, rfl, fun n hn => lane_vecOf _ _ hn⟩, rfl, fun r hr => if_neg hr, rfl⟩
    · have he : e = _ := accOne_gated hg
      simp only [a', he]
      exact ⟨rfl, rfl, rfl, rfl⟩
  · intro g c half hk hp hd hpre h old sum plus
    obtain ⟨r, hx, hfirst⟩ := accWrite_writes hp hd hpre half k
    have hsum : ∀ n, plus (sum n) = accSum half p (c.arr.acc.get p.row) n := by
      intro n
      cases hr : p.replace <;> simp [plus, sum, accSum, hr, old]
    refine ⟨_, (exec_accRowWritten hk).trans (by rw [hx]), ?_⟩
    simp only [mem_get_set, if_true, get_upd, hsum]
    refine ⟨trivial, fun hh hr n hn => ?_, fun hh hr n hn => ?_, fun hh n hn => ?_, fun r hr => if_neg hr, trivial, hfirst⟩
    · rw [hh, accRow_full hn, if_pos hr]
    · rw [hh, accRow_full hn, if_neg (hr ▸ Bool.false_ne_true)]
    · rw [hh, accRow_half hn]

end Sys2Proof.Proofs
end

section
/-!
PROOFS. ACC, ACCZ, DRAIN, DRAINZ and the drain rider as their slots' operations (R133 to R138, R149, R281).
-/

namespace Sys2Proof.Proofs

open Sys2Proof Sys2Proof.Machine Sys2Proof.Laws

/-! ### Slices from the bundle's MMUL or from a queue -/

theorem bind_core (c : Core) (f : Core → Eff) : ({ core := c } : Eff).bind f = f c := by
  simp [Eff.bind]

theorem bind_congr {e : Eff} {f g : Core → Eff} (h : f e.core = g e.core) : e.bind f = e.bind g := by
  simp only [Eff.bind, h]

theorem acArow_eq (ctx : Ctx) (w : SlotWord) (c : Core) : acArow ctx w c =
    (sel w 28 18 + cntVal (regsAt c.cc.hist ((ctx.pos : Int) - 7)) (sel w 4 1)) % (if ctx.decl.halfWidth then 2048 else 1024) := rfl

theorem acDrow_eq (ctx : Ctx) (w : SlotWord) (c : Core) : acDrow ctx w c =
    (sel w 17 7 + cntVal (regsAt c.cc.hist ((ctx.pos : Int) - 7)) (sel w 4 1)) % (if ctx.decl.halfWidth then 2048 else 1024) := rfl

section
variable {ctx : Ctx} {op : SlotOp} {zero : Bool} {c : Core}

theorem accExec_queue (hb : bit op.word 33 = true) : accExec ctx op zero c =
    accOne ctx zero (bit op.word 29) false false (acArow ctx op.word c)
      ((List.range 256).map (fun n => decF32 (lane (c.head (8 + sel op.word 32 31)) n)))
      (c.pop (8 + sel op.word 32 31) (bit op.word 30)) := if_pos hb

variable (hb : bit op.word 33 = false)
include hb

theorem accExec_idle (h : c.arr.latch = none) : accExec ctx op zero c = { core := c } := by
  simp only [accExec, hb, h, Bool.false_eq_true, if_false]

/-- The slices of an MMUL go into consecutive rows, modulo the row count (R133). -/
theorem accExec_slices {l : SliceLatch} (h : c.arr.latch = some l) : accExec ctx op zero c =
    (l.cols.zipIdx).foldl (fun e x => e.bind (accOne ctx zero (bit op.word 29) true l.bf16
      ((acArow ctx op.word c + x.2) % accRows ctx.decl) x.1)) { core := { c with arr := { c.arr with latch := none } } } := by
  simp only [accExec, hb, h, Bool.false_eq_true, if_false]

end

/-! ### Drains -/

theorem recSram_sound (c : Core) (ctx : Ctx) (space row : Nat) {err : SramErr} (h : err ≠ .uncorrectable) :
    recSram c ctx space row err = { core := corrected err c } := by
  cases err with
  | ok => rfl
  | corrected n => rfl
  | uncorrectable => exact absurd rfl h

theorem arr_corrected (err : SramErr) (c : Core) : (corrected err c).arr = c.arr := by
  cases err <;> rfl

theorem cc_corrected (err : SramErr) (c : Core) : (corrected err c).cc = c.cc := by
  cases err <;> rfl

theorem due_drain (ctx : Ctx) : ctx.due 4 4 = ctx.cycle + 4 := by
  simp [Ctx.due, latOf]

section
variable {ctx : Ctx} {op : SlotOp} {z : Bool} {c : Core}

theorem drainExec_gated (hg : accGated ctx.decl (acDrow ctx op.word c) = true) : drainExec ctx op z c =
    (recGated c 4 ctx.pos).bind (fun y => { core := y.push (8 + sel op.word 6 5) ctx.cycle 4 (ctx.cycle + 4) 0 }) := by
  rw [← due_drain]
  exact if_pos hg

theorem drainExec_open (herr : op.err ≠ .uncorrectable) (hg : accGated ctx.decl (acDrow ctx op.word c) = false) : drainExec ctx op z c =
    let row := acDrow ctx op.word c
    let y := (corrected op.err c).push (8 + sel op.word 6 5) ctx.cycle 4 (ctx.cycle + 4) (accWiden ctx.decl.halfWidth (c.arr.acc.get row))
    { core := if z then { y with arr := { y.arr with acc := y.arr.acc.set row 0, sliceCnt := y.arr.sliceCnt.set row 0 } } else y } := by
  simp only [drainExec, hg, Bool.false_eq_true, if_false, recSram_sound _ _ _ _ herr, due_drain]

/-- A drain changes neither the registers nor the slices that wait for the slot's accumulation. -/
theorem drainExec_keeps (herr : op.err ≠ .uncorrectable) :
    (drainExec ctx op z c).core.cc = c.cc ∧ (drainExec ctx op z c).core.arr.latch = c.arr.latch := by
  cases hg : accGated ctx.decl (acDrow ctx op.word c) with
  | true => rw [drainExec_gated hg]; exact ⟨rfl, rfl⟩
  | false =>
    rw [drainExec_open herr hg]
    have hl := congrArg ArrayState.latch (arr_corrected op.err c)
    cases z
    · exact ⟨cc_corrected op.err c, hl⟩
    · exact ⟨cc_corrected op.err c, hl⟩

end

/-- An ACC also reads the row it adds to (R283). -/
theorem slotSram_acc {ctx : Ctx} {op : SlotOp} (c : Core) (hu : op.unit.val = 4) (ho : op.op = 1) (herr : op.err ≠ .uncorrectable) :
    slotSram ctx op c = { core := corrected op.err c } := by
  simp only [SlotOp.op] at ho
  simp [slotSram, hu, ho, acDrains, recSram_sound _ _ _ _ herr]

/-! ### The statement -/

/-- Settles O20: a rider's drain leaves the registers and the waiting slices, so the accumulation after it is that of its own slot. -/
theorem accumulateAndRider : Obligations.AccumulateAndRider := by
  unfold Obligations.AccumulateAndRider
  intro s op ctx hr c w rows k arow drow one accumulated wide drained leaves hlatch
  have hacc (zero : Bool) {x : Core} (hcc : x.cc = c.cc) (hl : x.arr.latch = c.arr.latch) : accExec ctx op zero x = accumulated zero x := by
    have hrow : acArow ctx op.word x = arow := by rw [acArow_eq, hcc]
    have hmod : (arow + 0) % rows = arow := Nat.mod_mod _ _
    simp only [accumulated, one]
    cases hb : bit w 33 with
    | true => rw [accExec_queue hb, if_pos rfl, bind_core, hrow, hmod]
    | false =>
      rw [if_neg Bool.false_ne_true]
      cases hx : x.arr.latch with
      | none => exact accExec_idle hb hx
      | some l =>
        rw [accExec_slices hb hx, hrow]
        obtain ⟨cols, bf16⟩ := l
        obtain h1 | h2 := hlatch _ (hl ▸ hx)
        · obtain ⟨v, rfl⟩ := List.length_eq_one_iff.1 h1
          rfl
        · obtain ⟨v, v', rfl⟩ := List.length_eq_two.1 h2
          rfl
  have hdrain (z : Bool) : drainExec ctx op z c = drained z c := by
    have hrow : acDrow ctx op.word c = drow := acDrow_eq ..
    simp only [drained]
    cases hg : accGated ctx.decl drow with
    | true => rw [drainExec_gated (hrow ▸ hg), if_pos rfl]
    | false => rw [drainExec_open hr.sound (hrow ▸ hg), if_neg Bool.false_ne_true, hrow]; rfl
  have hrider (zero z : Bool) : accDrainExec ctx op zero z c = (drained z c).bind (accumulated zero) := by
    obtain ⟨hcc, hl⟩ := drainExec_keeps (ctx := ctx) (z := z) (c := c) hr.sound
    rw [accDrainExec, bind_congr (hacc zero hcc hl), hdrain]
  have hleaves {i : Instr} {o : Nat} {f : Ctx → SlotOp → Core → Eff} {e : Eff} (hx : ∀ s, exec i s = s.runIf (Instr.wf i) (coreSlot f op))
      (hwf : Instr.wf i = ((op.unit.val == 4) && op.op == o && !slotBad op.unit.val op.word)) (ho : o ≠ 1)
      (he : f ctx op c = e) (hw : Instr.wf i = true) : leaves i e := by
    obtain ⟨hu, ho', -⟩ := wf_slot (hwf ▸ hw)
    rw [← he]
    exact slotCommand_effect hx hw hr (by omega) (slotSram_quiet hr.sound (by omega))
  refine ⟨fun hw => ?_, hleaves (o := 2) (fun _ => rfl) rfl (by decide) (hacc true rfl rfl),
    hleaves (o := 5) (fun _ => rfl) rfl (by decide) (hrider false false), hleaves (o := 6) (fun _ => rfl) rfl (by decide) (hrider false true),
    hleaves (o := 7) (fun _ => rfl) rfl (by decide) (hrider true false), hleaves (o := 8) (fun _ => rfl) rfl (by decide) (hrider true true),
    hleaves (o := 3) (fun _ => rfl) rfl (by decide) (hdrain false), hleaves (o := 4) (fun _ => rfl) rfl (by decide) (hdrain true)⟩
  obtain ⟨hu, ho, -⟩ := wf_slot (u := 4) (o := 1) hw
  rw [← hacc false (cc_corrected _ _) (congrArg _ (arr_corrected _ _))]
  exact slotCommand_effect (f := fun ctx op c => accExec ctx op false c) (fun _ => rfl) hw hr (by omega) (slotSram_acc _ hu ho hr.sound)

end Sys2Proof.Proofs
end

section
/-!
PROOFS. LOOP, BR, CURVE and STEP at issue: the next address, and the words entered for later positions.
-/

namespace Sys2Proof.Proofs

open Sys2Proof Sys2Proof.Machine Sys2Proof.Laws

theorem exec_loopSet (r : Fin 25) (scond : BitVec 4) (sarg : W32) (target : BitVec 15) (s : State) :
    exec (.loopSet r scond sarg target) s =
      s.runIf (Instr.wf (.loopSet r scond sarg target)) (headerRow r 1 scond.toNat sarg.toNat target.toNat) := rfl

theorem exec_loop (r : Fin 25) (scond : BitVec 4) (sarg : W32) (target : BitVec 15) (s : State) :
    exec (.loop r scond sarg target) s =
      s.runIf (Instr.wf (.loop r scond sarg target)) (headerRow r 1 scond.toNat sarg.toNat target.toNat) := rfl

theorem exec_br (r : Fin 25) (scond : BitVec 4) (sarg : W32) (target : BitVec 15) (s : State) :
    exec (.br r scond sarg target) s =
      s.runIf (Instr.wf (.br r scond sarg target)) (headerRow r 2 scond.toNat sarg.toNat target.toNat) := rfl

theorem exec_curve (r : Fin 25) (scond : BitVec 4) (sarg : W32) (target : BitVec 15) (s : State) :
    exec (.curve r scond sarg target) s =
      s.runIf (Instr.wf (.curve r scond sarg target)) (headerRow r 7 scond.toNat sarg.toNat target.toNat) := rfl

theorem exec_step (r : Fin 25) (scond : BitVec 4) (sarg : W32) (target : BitVec 15) (s : State) :
    exec (.step r scond sarg target) s =
      s.runIf (Instr.wf (.step r scond sarg target)) (headerRow r 8 scond.toNat sarg.toNat target.toNat) := rfl

/-! ### LOOP and BR -/

/-- A region with its loop registers replaced. -/
def withLoops (loops : Vector W32 8) (g : Region) : Region := { g with seq := { g.seq with loops := loops } }

/-- A region with one more branch taken. -/
def branched (g : Region) : Region := { g with seq := { g.seq with cnt := { g.seq.cnt with branches := g.seq.cnt.branches + 1 } } }

theorem headerOp_loop (r scond sarg target : Nat) (m : Mod) : headerOp r 1 scond sarg target m =
    ((loopOp r scond sarg target m).1, some (loopOp r scond sarg target m).2) := rfl

theorem headerOp_br (r scond sarg target : Nat) (m : Mod) : headerOp r 2 scond sarg target m =
    ((brOp r scond sarg target m).1, some (brOp r scond sarg target m).2) := rfl

section
variable {m : Mod} {r scond : Nat} (sarg target : Nat)

theorem loopOp_set (h : 8 ≤ scond) : loopOp r scond sarg target m =
    (m.onRegion r (withLoops ((m.region r).seq.loops.setIfInBounds (scond % 8) (BitVec.ofNat 32 sarg))),
      ((m.region r).seq.addr + 1) % 32768) := if_pos h

/-- A LOOP without SET lowers its register and repeats until it is 0 (R214). -/
theorem loopOp_lowers (h : scond < 8) : loopOp r scond sarg target m =
    let v := (m.region r).seq.loops[scond % 8]?.getD 0 - 1
    let loops := (m.region r).seq.loops.setIfInBounds (scond % 8) v
    if v = 0 then (m.onRegion r (withLoops loops), ((m.region r).seq.addr + 1) % 32768)
    else (m.onRegion r (fun g => branched (withLoops loops g)), target) := by
  unfold loopOp
  dsimp only
  rw [if_neg (by omega), onRegion_onRegion]
  rfl

theorem brOp_taken (h : brTaken r scond sarg m = true) : brOp r scond sarg target m = (m.onRegion r branched, target) := if_pos h

theorem brOp_notTaken (h : ¬ brTaken r scond sarg m = true) :
    brOp r scond sarg target m = (m, ((m.region r).seq.addr + 1) % 32768) := if_neg h

end

/-- A BR's condition over the gang's cores (R215). -/
theorem brTaken_iff {m : Mod} {r scond sarg : Nat} (h : scond < 16) :
    let g := m.region r
    let pred (x : Nat) : Prop := bit (regsAt (m.core x).cc.hist ((g.seq.pos : Int) - 32)).pred (sarg % 8) = true
    brTaken r scond sarg m = true ↔ scond / 4 = 0 ∨ (scond / 4 = 1 ∧ ∃ x ∈ g.site, pred x) ∨
      (scond / 4 = 2 ∧ ∀ x ∈ g.site, pred x) ∨ (scond / 4 = 3 ∧ ∀ x ∈ g.site, ¬ pred x) := by
  have hlt : scond / 4 < 4 := by omega
  unfold brTaken
  generalize scond / 4 = k at hlt ⊢
  match k, hlt with
  | 0, _ => simp
  | 1, _ => simp
  | 2, _ => simp
  | 3, _ => simp

/-! ### Words entered for later positions -/

/-- A core with words entered that operations read from later positions on (R224, R226). -/
def entered (ws : List FutureWord) (c : Core) : Core :=
  { c with cc := { c.cc with future := ws.foldl (fun t f => insertFuture f t) c.cc.future } }

/-- The words entered at each of a list of sites. -/
def enterAll (ws : List FutureWord) (l : List Nat) (m : Mod) : Mod := l.foldl (fun m x => m.onCore x (entered ws)) m

theorem mem_insertFuture (f a : FutureWord) (l : List FutureWord) : f ∈ insertFuture a l ↔ f ∈ l ∨ f = a := by
  induction l with
  | nil => simp [insertFuture]
  | cons x l ih =>
    rw [insertFuture]
    split
    · rw [List.mem_cons, or_comm]
    · rw [List.mem_cons, ih, List.mem_cons, or_assoc]

theorem mem_entered (f : FutureWord) (ws : List FutureWord) (c : Core) :
    f ∈ (entered ws c).cc.future ↔ f ∈ c.cc.future ∨ f ∈ ws := by
  change f ∈ ws.foldl (fun t f => insertFuture f t) c.cc.future ↔ _
  generalize c.cc.future = l
  induction ws generalizing l with
  | nil => simp
  | cons a ws ih => rw [List.foldl_cons, ih, mem_insertFuture, List.mem_cons, or_assoc]

/-- Of the whole module only the named cores change, and of them only the words entered. -/
theorem enterAll_leaves (ws : List FutureWord) (l : List Nat) (m : Mod) :
    (∃ cores, enterAll ws l m = { m with cores := cores }) ∧ ∀ x,
      (enterAll ws l m).core x = { m.core x with cc := { (m.core x).cc with future := ((enterAll ws l m).core x).cc.future } } ∧
      (x ∈ l → ∀ f, f ∈ ((enterAll ws l m).core x).cc.future ↔ f ∈ (m.core x).cc.future ∨ f ∈ ws) ∧
      (x ∉ l → (enterAll ws l m).core x = m.core x) := by
  induction l generalizing m with
  | nil => exact ⟨⟨_, rfl⟩, fun x => ⟨rfl, fun h => absurd h List.not_mem_nil, fun _ => rfl⟩⟩
  | cons y l ih =>
    obtain ⟨⟨cores, hmod⟩, hcores⟩ := ih (m.onCore y (entered ws))
    refine ⟨⟨cores, hmod⟩, fun x => ?_⟩
    obtain ⟨hkeep, hin, hout⟩ := hcores x
    rw [show enterAll ws (y :: l) m = enterAll ws l (m.onCore y (entered ws)) from rfl]
    by_cases hx : x = y
    · subst hx
      rw [core_onCore] at hkeep hin hout
      refine ⟨hkeep, fun _ f => ?_, fun h => absurd List.mem_cons_self h⟩
      by_cases hl : x ∈ l
      · rw [hin hl, mem_entered, or_assoc, or_self]
      · rw [hout hl, mem_entered]
    · rw [core_onCore_other _ _ _ _ hx] at hkeep hin hout
      exact ⟨hkeep, fun h => hin ((List.mem_cons.1 h).resolve_left hx), fun h => hout (fun hl => h (List.mem_cons_of_mem _ hl))⟩

/-- Words entered after a change of a region that is no power-up are entered alike before it. -/
theorem enterAll_onRegion (ws : List FutureWord) (l : List Nat) {m : Mod} {r : Nat} {f : Region → Region}
    (hf : ∀ g, (f g).undef = g.undef) : enterAll ws l (m.onRegion r f) = (enterAll ws l m).onRegion r f := by
  induction l generalizing m with
  | nil => rfl
  | cons x l ih =>
    have hswap : (m.onRegion r f).onCore x (entered ws) = (m.onCore x (entered ws)).onRegion r f := by
      rw [Mod.onCore, core_onRegion (hf _)]
      rfl
    exact (congrArg (enterAll ws l) hswap).trans ih

/-- What a header command leaves when it enters words at sites: the words there, and what `f` makes of its region. -/
theorem enterAll_onRegion_leaves (s : State) (r : Fin 25) (ws : List FutureWord) (l : List Nat) {f : Region → Region}
    (hf : ∀ g, (f g).undef = g.undef) :
    let t : State := { s with m := (enterAll ws l s.m).onRegion r f }
    RegionAndCores s t r (fun c c' => c' = { c with cc := { c.cc with future := c'.cc.future } }) ∧
      t.m.region r = f (s.m.region r) ∧
      (∀ x ∈ l, ∀ w, w ∈ (t.m.core x).cc.future ↔ w ∈ (s.m.core x).cc.future ∨ w ∈ ws) ∧
      (∀ x ∉ l, t.m.core x = s.m.core x) := by
  intro t
  obtain ⟨⟨cores, hmod⟩, hcores⟩ := enterAll_leaves ws l s.m
  have hcore (x : Nat) : t.m.core x = (enterAll ws l s.m).core x := core_onRegion (hf _) x
  have hregion (k : Nat) : (enterAll ws l s.m).region k = s.m.region k := by rw [hmod]; rfl
  refine ⟨⟨?_, fun k hk => ?_, fun x => ?_⟩, ?_, fun x hx w => ?_, fun x hx => ?_⟩
  · simp only [t, hmod]; rfl
  · exact (region_onRegion_other _ _ _ _ hk).trans (hregion k)
  · obtain ⟨hkeep, -, -⟩ := hcores x
    rw [hcore]
    exact hkeep
  · exact (region_onRegion ..).trans (congrArg f (hregion r))
  · obtain ⟨-, hin, -⟩ := hcores x
    rw [hcore]
    exact hin hx w
  · obtain ⟨-, -, hout⟩ := hcores x
    rw [hcore]
    exact hout hx

/-! ### CURVE and STEP -/

/-- A region with its G replaced. -/
def withG (v : W64) (g : Region) : Region := { g with seq := { g.seq with g := v } }

/-- The words that a CURVE enters: the curves of its groups at G (R223 to R225). -/
def curveWords (g : Region) (sarg : Nat) : List FutureWord :=
  (List.range (sarg / 2 ^ 16 % 256 + 1)).flatMap (fun k => (List.range 3).map (fun j =>
    { word := (sarg / 2 ^ 5 % 2048 + 3 * k + j) % 2048, pos := g.seq.pos + 16 + 4 * k
      val := (evalCurve g.seq.g.toNat (knotsOf g.decl (sarg / 2 ^ 24 + k) (j + 1))).setWidth 64 }))

theorem mem_curveWords (g : Region) (sarg : Nat) (f : FutureWord) :
    f ∈ curveWords g sarg ↔ ∃ k < sarg / 2 ^ 16 % 256 + 1, ∃ j < 3, f =
      ⟨(sarg / 2 ^ 5 % 2048 + 3 * k + j) % 2048, g.seq.pos + 16 + 4 * k,
        (evalCurve g.seq.g.toNat (knotsOf g.decl (sarg / 2 ^ 24 + k) (j + 1))).setWidth 64⟩ := by
  simp only [curveWords, List.mem_flatMap, List.mem_map, List.mem_range, eq_comm]

theorem headerOp_curve (r scond sarg target : Nat) (m : Mod) : headerOp r 7 scond sarg target m =
    (enterAll (curveWords (m.region r) sarg) (m.region r).site m, some (((m.region r).seq.addr + 1) % 32768)) := rfl

theorem headerOp_step (r scond sarg target : Nat) (m : Mod) : headerOp r 8 scond sarg target m =
    let v := (m.region r).seq.g + BitVec.ofNat 64 (if scond % 2 = 1 then sarg else 1)
    (enterAll [⟨0x7FC, (m.region r).seq.pos + 1, v⟩] (m.region r).site (m.onRegion r (withG v)),
      some (((m.region r).seq.addr + 1) % 32768)) := rfl

/-- Settles O23: LOOP and BR by the address they go to, CURVE and STEP by the words they enter at the gang's sites. That a header row
goes on to the next address without taking a position is the model's choice (log entry 5). -/
theorem sequencerControl : Obligations.SequencerControl := by
  unfold Obligations.SequencerControl
  refine ⟨fun s r scond sarg target => ?branches, fun s r scond sarg target => ?words⟩
  case branches =>
    intro g n v following goes pred taken hm
    have loop := headerOp_loop r scond.toNat sarg.toNat target.toNat s.m
    have br := headerOp_br r scond.toNat sarg.toNat target.toNat s.m
    have hbr : brTaken r scond.toNat sarg.toNat s.m = true ↔ taken := brTaken_iff scond.isLt
    refine ⟨fun hw => ?_, fun hw hv => ?_, fun hw hv => ?_, fun hw ht => ?_, fun hw ht => ?_⟩
    · rw [loopOp_set _ _ (of_decide_eq_true hw), BitVec.ofNat_toNat, BitVec.setWidth_eq] at loop
      exact (header_goes hm hw (exec_loopSet ..) loop).trans (by rw [onRegion_onRegion]; rfl)
    · rw [loopOp_lowers _ _ (of_decide_eq_true hw)] at loop
      dsimp only at loop
      rw [if_pos hv] at loop
      exact (header_goes hm hw (exec_loop ..) loop).trans (by rw [onRegion_onRegion]; rfl)
    · rw [loopOp_lowers _ _ (of_decide_eq_true hw)] at loop
      dsimp only at loop
      rw [if_neg hv] at loop
      exact (header_goes hm hw (exec_loop ..) loop).trans (by rw [onRegion_onRegion]; rfl)
    · rw [brOp_taken _ _ (hbr.2 ht)] at br
      exact (header_goes hm hw (exec_br ..) br).trans (by rw [onRegion_onRegion]; rfl)
    · rw [brOp_notTaken _ _ (mt hbr.1 ht)] at br
      exact header_goes hm hw (exec_br ..) br
  case words =>
    intro g following g' first count base words hm
    refine ⟨fun hw => ?_, fun hw => ?_⟩
    · obtain ⟨hframe, hregion, hin, hout⟩ := enterAll_onRegion_leaves s r [⟨0x7FC, g.seq.pos + 1, g'⟩] g.site
        (f := fun x => goesTo following (withG g' x)) (fun _ => rfl)
      have he := header_goes hm hw (exec_step ..) (headerOp_step r scond.toNat sarg.toNat target.toNat s.m)
      rw [enterAll_onRegion _ _ (f := withG g') (fun _ => rfl), onRegion_onRegion] at he
      exact ⟨_, he, hframe, hregion, fun x hx f => (hin x hx f).trans (by rw [List.mem_singleton]), hout⟩
    · obtain ⟨hframe, hregion, hin, hout⟩ := enterAll_onRegion_leaves s r (curveWords g sarg.toNat) g.site
        (f := goesTo following) (fun _ => rfl)
      exact ⟨_, header_goes hm hw (exec_curve ..) (headerOp_curve r scond.toNat sarg.toNat target.toNat s.m), hframe, hregion,
        fun x hx f => (hin x hx f).trans (or_congr_right (mem_curveWords ..)), hout⟩

end Sys2Proof.Proofs
end

section
/-!
PROOFS. GANG_DONE at level 2: ESCALATED is added twice.
-/

namespace Sys2Proof.Proofs

open Sys2Proof Sys2Proof.Machine Sys2Proof.Laws

/-- A module that stops a gang on GANG_DONE, as POLICY_SET may ask (R600), with an ended gang's settled work in region 0. -/
def endedState : State :=
  { m := { aon := { state := .full }
           regions := [(0, { run := { gang := 1, ended := true, settled := false } })]
           placements := [{ g0 := 1, session := 1, image := 1, gangs := [{ id := 1, part := 0, region := 0, sites := [] }]
                            sigs := [], partners := [], savePages := [] }]
           settings := { policy := [(0x0F, 2)] } }
    pending := [] }

/-- The record built for GANG_DONE holds ESCALATED, 4, by its level already, and raising it adds 4 once more. -/
theorem endedState_flags :
    (gangSettled 0 endedState.m).events.slots.map (·.2.2.flags) = [8] ∧
    (raiseEvent 0x0F 0 1 1 0 (BitVec.ofNat 64 (0 - 1)).toNat 0
      (endedState.m.onRegion 0 (fun x => { x with run := { x.run with settled := true } }))).events.slots.map (·.2.2.flags) = [4] := by
  decide

/-- Refutes O27: GANG_SETTLED raises its event with the flags of a record that already holds ESCALATED. At level 2 the event carries 8, a
reserved bit of EFLAGS, in place of the 4 of ESCALATED (Table 14.17, Table 17.1). -/
theorem not_gangsEndAndPreempt : ¬ Obligations.GangsEndAndPreempt := by
  unfold Obligations.GangsEndAndPreempt
  intro h
  obtain ⟨-, -, hsettled⟩ := h.1 endedState 0
  have hraised := congrArg State.m (Host.Outcome.next.inj (hsettled (by decide) rfl rfl (by decide)))
  obtain ⟨hmodel, hstated⟩ := endedState_flags
  have hflags : [8] = [4] := hmodel.symm.trans ((congrArg (fun m : Mod => m.events.slots.map (·.2.2.flags)) hraised).trans hstated)
  exact absurd hflags (by decide)

end Sys2Proof.Proofs
end

section
/-!
PROOFS. The clamp operations on a drawer's cursor word (R268).
-/

namespace Sys2Proof.Proofs

open Sys2Proof Sys2Proof.Machine Sys2Proof.Laws

/-- A core with one more refused clamp operation counted. -/
def clampFaulted (c : Core) : Core :=
  { c with ni := { c.ni with cnt := { c.ni.cnt with clampFaults := c.ni.cnt.clampFaults + 1 } } }

/-- The event of a refused clamp operation (R365). -/
def clampEvent (ctx : Ctx) (a : Nat) : EvOut := { code := 4, d0 := ctx.core, d := a }

theorem clampRefuse_kept (ctx : Ctx) (a : Nat) (c : Core) :
    clampRefuse ctx a false c = { core := clampFaulted c, ev := [clampEvent ctx a] } := rfl

section
variable {ctx : Ctx} {op : SlotOp} {c : Core}

/-- The word of an INCW or DECW (Table 6.13). -/
def incwWord (ctx : Ctx) (op : SlotOp) (c : Core) : Nat :=
  (sel op.word 33 23 + cntVal (regsAt c.cc.hist ((ctx.pos : Int) - 1)) (sel op.word 22 19)) % 2048

theorem incwExec_cursor (dec : Bool) (h : isCursor ctx.decl (incwWord ctx op c) = true) :
    incwExec ctx op dec c = { core := clampFaulted c, ev := [clampEvent ctx (incwWord ctx op c)] } := if_pos h

variable (h : isCursor ctx.decl (waitwWord ctx op c) = true)
include h

/-- A WAITW on a cursor word does not wait, whatever else surrounds it. -/
theorem waitwHolds_cursor {x : Ctx} (hd : x.decl = ctx.decl) (hp : x.pos = ctx.pos) : waitwHolds x op.word c = [] := by
  have hx : isCursor x.decl (waitwWord x op c) = true := by rw [waitwWord, hd, hp]; exact h
  have hx' : isCursor x.decl (ccWord (slotRegs c 9 x.pos) (sel op.word 27 17) (sel op.word 16 13)) = true := hx
  simp only [waitwHolds, waitwArgs, hx', Bool.or_true, Bool.true_or, if_true]

/-- What a WAITW of either form leaves on a cursor word: the refusal counted, and 1 written. -/
def waitwRefused (ctx : Ctx) (op : SlotOp) (c : Core) : Eff :=
  { core := writeRegs (clampFaulted c) ctx.pos (setPred (sel op.word 30 28) true)
    ev := [clampEvent ctx (waitwWord ctx op c)] }

theorem waitwMonitor_cursor : waitwMonitor ctx op c = waitwRefused ctx op c := if_pos h

theorem waitwPoll_cursor : waitwPoll ctx op c = waitwRefused ctx op c := if_pos h

end

theorem unit_of_wf_clampOperation {op : SlotOp} {i : Instr} (hi : i ∈ [Instr.incw op, .decw op, .waitwMonitor op, .waitwPoll op])
    (hw : Instr.wf i = true) : op.unit.val = 9 := by
  simp only [List.mem_cons, List.not_mem_nil, or_false] at hi
  rcases hi with rfl | rfl | rfl | rfl
  all_goals
    simp only [Instr.wf, Bool.and_eq_true, beq_iff_eq, and_assoc] at hw
    obtain ⟨hu, -⟩ := hw
    exact hu

/-- A CC command that raises one event: of the module its core changes, and the event is counted in its region. -/
theorem ccCommand_counts {s : State} {op : SlotOp} {ctx : Ctx} {i : Instr} {f : Ctx → SlotOp → Core → Eff} {x : Core} {a : Nat}
    (hx : ∀ s, exec i s = s.runIf (Instr.wf i) (coreSlot f op)) (hw : Instr.wf i = true) (hr : SlotRuns s.m op ctx)
    (hu : op.unit.val = 9) (hf : f ctx op (slotCore s.m op) = { core := x, ev := [clampEvent ctx a] }) :
    exec i s = .next { s with
      m := (s.m.setCore op.site (passed ctx x)).onRegion (siteRegion op.site) (fun g => countEv g (clampEvent ctx a)) } := by
  rw [slotCommand_effect hx hw hr (by omega) (slotSram_quiet hr.sound (by omega)), hf, applyEff_event _ _ _ _ (by decide : (4 : Nat) ≠ 8)]

/-- Settles O5: the model asks for a cursor word first in each of the four operations, and refuses. -/
theorem cursorWordRefusesClampOperations : Obligations.CursorWordRefusesClampOperations := by
  unfold Obligations.CursorWordRefusesClampOperations
  intro s op ctx hr c w old now a b refused after
  refine ⟨fun i hi hw ha => ?_, fun i hi hw hb => ⟨fun x hd hp => waitwHolds_cursor hb hd hp, ?_⟩⟩
  · have hu : op.unit.val = 9 := unit_of_wf_clampOperation (List.mem_append_left [.waitwMonitor op, .waitwPoll op] hi) hw
    simp only [List.mem_cons, List.not_mem_nil, or_false] at hi
    rcases hi with rfl | rfl
    · exact ccCommand_counts (f := fun ctx op c => incwExec ctx op false c) (fun _ => rfl) hw hr hu (incwExec_cursor false ha)
    · exact ccCommand_counts (f := fun ctx op c => incwExec ctx op true c) (fun _ => rfl) hw hr hu (incwExec_cursor true ha)
  · have hu : op.unit.val = 9 := unit_of_wf_clampOperation (List.mem_append_right [.incw op, .decw op] hi) hw
    refine ⟨passed ctx (waitwRefused ctx op c).core, ?_, regsAt_writeRegs (clampFaulted c) _ _ _ le_rfl, rfl⟩
    simp only [List.mem_cons, List.not_mem_nil, or_false] at hi
    rcases hi with rfl | rfl
    · exact ccCommand_counts (f := fun ctx op c => waitwMonitor ctx op c) (fun _ => rfl) hw hr hu (waitwMonitor_cursor hb)
    · exact ccCommand_counts (f := fun ctx op c => waitwPoll ctx op c) (fun _ => rfl) hw hr hu (waitwPoll_cursor hb)

end Sys2Proof.Proofs
end

section
/-!
PROOFS. The scratchpad's program ports, and RD (R252, R262, R264, R270, R271, R281, R283).
-/

namespace Sys2Proof.Proofs

open Sys2Proof Sys2Proof.Machine Sys2Proof.Laws

/-! ### A port's slot -/

/-- A core left by a program port's slot, the bank it served in its cycle noted: the first row's, or a number that is no bank's. -/
def earlyMarked (u : Nat) (c x : Core) : Core :=
  { x with sp := { x.sp with early := x.sp.early ++
      [(u, ((x.sp.progBanks.take (x.sp.progBanks.length - c.sp.progBanks.length)).getLast?).getD (32 + u))] } }

section
variable {s : State} {op : SlotOp} {ctx : Ctx}

theorem runSlot_early (f : Core → Eff) (hr : SlotRuns s.m op ctx) (hu : op.unit.val = 0 ∨ op.unit.val = 1 ∨ op.unit.val = 7) :
    runSlot ctx op f (slotCore s.m op) =
      { f (slotCore s.m op) with core := earlyMarked op.unit.val (slotCore s.m op) (f (slotCore s.m op)).core } :=
  runSlot_port f hr.enabled hr.met (slotSram_quiet hr.sound (by omega)) hu

theorem exec_rd (hr : SlotRuns s.m op ctx) (hw : Instr.wf (.rd op) = true) (hu : op.unit.val = 0 ∨ op.unit.val = 1) :
    let c := slotCore s.m op
    let e : Eff := { rdExec ctx op c with core := earlyMarked op.unit.val c (rdExec ctx op c).core }
    exec (.rd op) s = .next { s with m := s.m.applyEff op.site e } := by
  have hx : exec (.rd op) s = s.runIf (Instr.wf (.rd op)) (coreSlot (fun ctx op c => rdExec ctx op c) op) := rfl
  rw [hx, runIf_wf hw, coreSlot_of_around hr.around, runSlot_early _ hr (by omega)]

/-- WR is its slot's operation once its tap has recorded it (R527). -/
theorem exec_wr (hr : SlotRuns s.m op ctx) (hw : Instr.wf (.wr op) = true) :
    let c := slotCore s.m op
    let e : Eff := { wrExec ctx op c with core := earlyMarked 7 c (wrExec ctx op c).core }
    exec (.wr op) s = .next { s with m := (traceWr op s.m).applyEff op.site e } := by
  have hx : exec (.wr op) s = s.runIf (Instr.wf (.wr op)) (fun m => coreSlot (fun ctx op c => wrExec ctx op c) op (traceWr op m)) := rfl
  have hu := unit_of_wf_wr hw
  obtain ⟨ha, hc⟩ := around_traceWr hr.around
  rw [hx, runIf_wf hw, coreSlot_of_around ha, hc, runSlot_early _ hr (by omega), hu]

end

/-- With no trace on, the tap of a WR records nothing (R527). -/
theorem traceWr_off {op : SlotOp} {m : Mod} (h : (m.region (siteRegion op.site)).trace.on = false) : traceWr op m = m := by
  simp [traceWr, h]

theorem earlyMarked_oneBank {u b : Nat} {c x : Core} (h : x.sp.progBanks = b :: c.sp.progBanks) :
    earlyMarked u c x = { x with sp := { x.sp with early := x.sp.early ++ [(u, b)] } } := by
  simp [earlyMarked, h]

/-! ### The rules of a port's operations -/

theorem checkHandle_sp {c x : Core} (h : x.sp = c.sp) (decl : PartDecl) (hd : W32) (f : Nat) :
    checkHandle decl x hd f = checkHandle decl c hd f := by
  have hg : genDist x hd = genDist c hd := by simp only [genDist, Core.slot, h]
  unfold checkHandle
  rw [hg]

/-- A handle's row, when its checks pass (R264). -/
theorem checkHandle_row {decl : PartDecl} {c : Core} {h : W32} {f r : Nat} {d : DrawerDecl} (hd : handleDecl decl h = some d)
    (hk : checkHandle decl c h f = (0, r)) : r = (d.base + hSlot h * d.slotRows + f) % 16384 := by
  simp only [checkHandle, hd] at hk
  split at hk
  · simp at hk
  · split at hk
    · simp at hk
    · exact (Prod.mk.inj hk).2.symm

theorem drawer_of_handleDecl {decl : PartDecl} {h : W32} {d : DrawerDecl} (hd : handleDecl decl h = some d) :
    Tab.find decl.drawers (hDrawer h) = some d := by
  unfold handleDecl at hd
  split at hd
  case h_1 d' hf =>
    split at hd
    · exact hf.trans hd
    · cases hd
  case h_2 => cases hd

@[simp] theorem sp_pop (c : Core) (q : Nat) (b : Bool) : (c.pop q b).sp = c.sp := by
  obtain ⟨qs, h⟩ := pop_queues c q b
  rw [h]

/-- A result of one latency in both steppings is visible that many cycles later (Table 3.5). -/
theorem due_same (ctx : Ctx) (n : Nat) : ctx.due n n = ctx.cycle + n := by
  simp [Ctx.due, latOf]

/-- What a gated access records: counted, and GATED_ACCESS sticky (R281). -/
theorem recGated_counts (c : Core) (slot low : Nat) :
    (recGated c slot low).core.sp.cnt.gatedAccesses = c.sp.cnt.gatedAccesses + 1 ∧
    bit (recGated c slot low).core.sp.cnt.sticky 0 = true :=
  ⟨rfl, bit_sticky _ _ (by decide)⟩

/-- An operation that counts a gated access leaves its core, and the access counted in its region. -/
theorem applyEff_gated (m : Mod) (site : Nat) (x : Core) :
    m.applyEff site { core := x, ev := [{ code := 5 }] } = (m.setCore site x).onRegion (siteRegion site) (fun g => countEv g { code := 5 }) :=
  applyEff_event _ _ _ _ (by decide : (5 : Nat) ≠ 8)

/-- A failed check of a slot other than the landing port's: one offset error or one handle error (R271). -/
theorem recHandle_counts (c : Core) (n slot low : Nat) (h : W32) (hs : slot ≠ 15) :
    let k := (recHandle c n slot low h).sp.cnt
    k.handleErrors = c.sp.cnt.handleErrors + (if n = 2 then 0 else 1) ∧
    k.offsetErrors = c.sp.cnt.offsetErrors + (if n = 2 then 1 else 0) ∧
    bit k.sticky (if n = 2 then 2 else 1) = true := by
  by_cases hn : n = 2
  · subst hn
    simp only [recHandle, hs, ne_eq, not_false_eq_true, and_self, if_true]
    exact ⟨(BitVec.add_zero _).symm, rfl, bit_sticky _ _ (by decide)⟩
  · simp only [recHandle, hn, false_and, if_false]
    exact ⟨rfl, (BitVec.add_zero _).symm, bit_sticky _ _ (by decide)⟩

/-! ### RD's operation -/

section
variable {ctx : Ctx} {op : SlotOp} {c : Core} {a : RowAddr}

/-- RD's result: an entry pushed for three cycles later (Table 3.5). -/
def rdPushed (ctx : Ctx) (op : SlotOp) (v : Row) (x : Core) : Core :=
  x.push (sel op.word 33 31) ctx.cycle op.unit.val (ctx.cycle + 3) (v.setWidth 8192)

/-- A read counted in its handle's slot, which is to drain when it is the DRAIN_READSth (R262, R271). -/
def readCounted (decl : PartDecl) (h : W32) (c : Core) : Core :=
  let slot := c.slot (hDrawer h) (hSlot h)
  let counted : Core := { c with sp := { c.sp with
    slots := Tab.set c.sp.slots (slotKey (hDrawer h) (hSlot h)) { slot with reads := slot.reads + 1 } } }
  let n := (Tab.get decl.drawers (hDrawer h) {}).drainReads
  if n ≠ 0 ∧ (slot.reads + 1).toNat = n then drainLater counted (hDrawer h) (hSlot h) slot.gen else counted

theorem rows_readCounted (decl : PartDecl) (h : W32) (c : Core) : (readCounted decl h c).sp.rows = c.sp.rows := by
  simp only [readCounted]
  split <;> rfl

theorem progBanks_readCounted (decl : PartDecl) (h : W32) (c : Core) : (readCounted decl h c).sp.progBanks = c.sp.progBanks := by
  simp only [readCounted]
  split <;> rfl

/-- A read whose handle passes its checks, counted after the handle is popped: the slot drains with the drawer's DRAIN_READSth. -/
theorem readCounted_popped {decl : PartDecl} {h : W32} {d : DrawerDecl} (hd : handleDecl decl h = some d) (c : Core) (q : Nat) (b : Bool) :
    readCounted decl h (c.pop q b) =
      let p := c.pop q b
      let slot := c.slot (hDrawer h) (hSlot h)
      let counted : Core := { p with sp := { p.sp with
        slots := Tab.set c.sp.slots (slotKey (hDrawer h) (hSlot h)) { slot with reads := slot.reads + 1 } } }
      if d.drainReads ≠ 0 ∧ (slot.reads + 1).toNat = d.drainReads then
        { counted with sp := { counted.sp with drains := c.sp.drains ++
          [{ drawer := hDrawer h, slot := hSlot h, gen := slot.gen, off := 0 }] } }
      else counted := by
  have hg : Tab.get decl.drawers (hDrawer h) {} = d := by rw [Tab.get, drawer_of_handleDecl hd]; rfl
  obtain ⟨qs, hp⟩ := pop_queues c q b
  rw [hp, readCounted, hg]
  rfl

/-- The handle at the head of a queue. -/
def headHandle (c : Core) (q : Nat) : W32 := (c.head q).setWidth 32

variable (ha : rdAddr (slotRegs c op.unit.val ctx.pos) op.word = a)
include ha

theorem rdExec_row (hb : a.byHandle = false) (hg : rowGated ctx.decl a.row = false) (herr : op.err ≠ .uncorrectable) :
    rdExec ctx op c = { core := rdPushed ctx op (c.sp.rows.get a.row) (corrected op.err (useBank c a.row)) } := by
  simp only [rdExec, ha, hb, hg, Bool.false_eq_true, if_false, recSram_sound _ _ _ _ herr, due_same, rdPushed]

theorem rdExec_gated (hb : a.byHandle = false) (hg : rowGated ctx.decl a.row = true) :
    rdExec ctx op c = { core := rdPushed ctx op 0 (recGated (useBank c a.row) op.unit.val ctx.pos).core, ev := [{ code := 5 }] } := by
  simp only [rdExec, ha, hb, hg, Bool.false_eq_true, if_false, if_true, due_same, rdPushed]
  rfl

theorem rdExec_slot {r : Nat} (hb : a.byHandle = true) (hk : checkHandle ctx.decl c (headHandle c a.hq) a.ofs = (0, r))
    (herr : op.err ≠ .uncorrectable) :
    let x := readCounted ctx.decl (headHandle c a.hq) (c.pop a.hq a.hpop)
    rdExec ctx op c = { core := rdPushed ctx op (c.sp.rows.get r) (corrected op.err (useBank x r)) } := by
  intro x
  have hk' : checkHandle ctx.decl c ((c.head a.hq).setWidth 32) a.ofs = (0, r) := hk
  have hrows : x.sp.rows = c.sp.rows := (rows_readCounted ..).trans (congrArg _ (sp_pop ..))
  rw [← hrows]
  simp only [rdExec, ha, hb, hk', if_true, ne_eq, not_true_eq_false, if_false, recSram_sound _ _ _ _ herr, due_same]
  rfl

theorem rdExec_refused {n r : Nat} (hb : a.byHandle = true) (hk : checkHandle ctx.decl c (headHandle c a.hq) a.ofs = (n, r)) (hn : n ≠ 0) :
    rdExec ctx op c = { core := rdPushed ctx op 0 (recHandle (c.pop a.hq a.hpop) n op.unit.val ctx.pos (headHandle c a.hq)) } := by
  have hk' : checkHandle ctx.decl c ((c.head a.hq).setWidth 32) a.ofs = (n, r) := hk
  simp only [rdExec, ha, hb, hk', if_true, hn, ne_eq, not_false_eq_true, due_same]
  rfl

end

/-! ### The core that RD leaves -/

theorem unit_of_wf_rd {op : SlotOp} (hw : Instr.wf (.rd op) = true) : op.unit.val = 0 ∨ op.unit.val = 1 := by
  simp only [Instr.wf, Bool.and_eq_true, Bool.or_eq_true, beq_iff_eq, and_assoc] at hw
  obtain ⟨hu, -⟩ := hw
  exact hu

/-- A row that RD pushes with its bank served: the bank noted, and the corrected words of the read counted. -/
theorem earlyMarked_rdPushed {ctx : Ctx} {op : SlotOp} {c x : Core} (v : Row) (row : Nat) (hx : x.sp.progBanks = c.sp.progBanks) :
    earlyMarked op.unit.val c (rdPushed ctx op v (corrected op.err (useBank x row))) =
      rdPushed ctx op v (corrected op.err { x with sp := { x.sp with
        progBanks := bankOf row :: x.sp.progBanks, early := x.sp.early ++ [(op.unit.val, bankOf row)] } }) := by
  have h : (rdPushed ctx op v (corrected op.err (useBank x row))).sp.progBanks = bankOf row :: c.sp.progBanks := by
    rw [← hx]
    cases op.err <;> rfl
  rw [earlyMarked_oneBank h]
  cases op.err <;> rfl

/-- What a refused RD leaves beside its entry of zeros. -/
theorem earlyMarked_refused {ctx : Ctx} {op : SlotOp} {c p : Core} (hp : p.sp = c.sp) (n : Nat) (h : W32) :
    let x := earlyMarked op.unit.val c (rdPushed ctx op 0 (recHandle p n op.unit.val ctx.pos h))
    x = { rdPushed ctx op 0 p with sp := { c.sp with cnt := x.sp.cnt, early := x.sp.early } } := by
  rw [← hp]
  rfl

section
variable {s : State} {op : SlotOp} {ctx : Ctx}
variable (hr : SlotRuns s.m op ctx) (hw : Instr.wf (.rd op) = true) (hu : op.unit.val = 0 ∨ op.unit.val = 1)

include hr hw hu

theorem rd_leaves {x : Core}
    (h : rdExec ctx op (slotCore s.m op) = { core := x }) : SlotLeaves (.rd op) s op (earlyMarked op.unit.val (slotCore s.m op) x) := by
  rw [SlotLeaves, exec_rd hr hw hu, h, applyEff_core]

theorem rd_countsGated {x : Core}
    (h : rdExec ctx op (slotCore s.m op) = { core := x, ev := [{ code := 5 }] }) :
    let y := earlyMarked op.unit.val (slotCore s.m op) x
    exec (.rd op) s = .next { s with
      m := (s.m.setCore op.site y).onRegion (siteRegion op.site) (fun g => countEv g { code := 5 }) } := by
  rw [exec_rd hr hw hu, h, applyEff_gated]

end

end Sys2Proof.Proofs
end

section
/-!
PROOFS. WR: its entry's rows, its digest and its checks (R264, R270, R271, R273, R281, R470).
-/

namespace Sys2Proof.Proofs

open Sys2Proof Sys2Proof.Machine Sys2Proof.Laws

/-! ### WR's operation -/

section
variable {ctx : Ctx} {op : SlotOp} {c : Core} {a : RowAddr}

/-- The rows of the entry that a WR takes. -/
def wrEntry (op : SlotOp) (c : Core) : List Row := wrRows (sel op.word 33 30) (c.head (sel op.word 33 30))

/-- Whether a WR's rows go to the core's digest: by DIG, or by the drawer of the handle they are written through (R470). -/
def wrQualifies (ctx : Ctx) (w : SlotWord) (h : W32) : Bool :=
  let dflag := match Tab.find ctx.decl.drawers (hDrawer h) with
    | some d => d.digest
    | none => false
  ctx.digestOn && (bit w 9 || (bit w 28 && dflag))

/-- A core with rows fed to its digest where they qualify. -/
def wrFed (ctx : Ctx) (w : SlotWord) (h : W32) (rows : List Row) (x : Core) : Core :=
  if wrQualifies ctx w h then rows.foldl (fun x r => digestRow x ctx r) x else x

/-- HFWD: the handle passed on (Table 6.7). -/
def wrForwarded (ctx : Ctx) (w : SlotWord) (h : W32) (x : Core) : Core :=
  if bit w 8 then x.push (28 + sel w 7 6) ctx.cycle 7 (ctx.cycle + 2) (h.setWidth 8192) else x

/-- A row fed to the digest changes the digest alone. -/
theorem digestRow_dig (x : Core) (r : Row) : ∃ d, digestRow x ctx r = { x with dig := d } := ⟨_, rfl⟩

theorem sp_foldl_digestRow (rows : List Row) (x : Core) : (rows.foldl (fun x r => digestRow x ctx r) x).sp = x.sp := by
  induction rows generalizing x with
  | nil => rfl
  | cons r rows ih =>
    obtain ⟨d, h⟩ := digestRow_dig (ctx := ctx) x r
    rw [List.foldl_cons, ih, h]

@[simp] theorem sp_wrFed (w : SlotWord) (h : W32) (rows : List Row) (x : Core) : (wrFed ctx w h rows x).sp = x.sp := by
  unfold wrFed
  split
  · exact sp_foldl_digestRow rows x
  · rfl

@[simp] theorem sp_wrForwarded (w : SlotWord) (h : W32) (x : Core) : (wrForwarded ctx w h x).sp = x.sp := by
  unfold wrForwarded
  split <;> rfl

/-- One row of a WR by address: written, or discarded in a gated group (R281). -/
def wrRow (ctx : Ctx) (row : Nat) (v : Row) (x : Core) : Eff :=
  if rowGated ctx.decl row then recGated (useBank x row) 7 ctx.pos
  else { core := writeRow (useBank x row) (ctx.cycle + 2) row (some v) none }

theorem wrRow_open {row : Nat} (h : rowGated ctx.decl row = false) (v : Row) (x : Core) :
    wrRow ctx row v x = { core := writeRow (useBank x row) (ctx.cycle + 2) row (some v) none } := by
  simp only [wrRow, h, Bool.false_eq_true, if_false]

theorem wrRow_gated {row : Nat} (h : rowGated ctx.decl row = true) (v : Row) (x : Core) :
    wrRow ctx row v x = { core := (recGated (useBank x row) 7 ctx.pos).core, ev := [{ code := 5 }] } := if_pos h

/-- The mark of a row written through a handle (R261). -/
def wrMark (h : W32) (f : Nat) : RowMark := { drawer := hDrawer h, slot := hSlot h, gen := BitVec.ofNat 16 (hGen h), off := f }

/-- The core of a WR by address before it writes. -/
def wrTaken (ctx : Ctx) (op : SlotOp) (h : W32) (c : Core) : Core :=
  wrFed ctx op.word h (wrEntry op c) (c.pop (sel op.word 33 30) (bit op.word 29))

/-- The core of a WR through a handle before its checks decide. -/
def wrTakenByHandle (ctx : Ctx) (op : SlotOp) (a : RowAddr) (c : Core) : Core :=
  wrForwarded ctx op.word (headHandle c a.hq)
    (wrFed ctx op.word (headHandle c a.hq) (wrEntry op c) ((c.pop (sel op.word 33 30) (bit op.word 29)).pop a.hq a.hpop))

theorem sp_wrTaken (h : W32) : (wrTaken ctx op h c).sp = c.sp := by
  rw [wrTaken, sp_wrFed, sp_pop]

theorem sp_wrTakenByHandle (a : RowAddr) : (wrTakenByHandle ctx op a c).sp = c.sp := by
  rw [wrTakenByHandle, sp_wrForwarded, sp_wrFed, sp_pop, sp_pop]

/-- A WR's address fields, its counter read as left seven positions before (R96, R207). -/
theorem wrAddr_eq (c : Core) (n : Nat) (w : SlotWord) : wrAddr (slotRegs c 7 n) w =
    let k := cntVal (regsAt c.cc.hist ((n : Int) - 7)) (sel w 13 10)
    { byHandle := bit w 28, row := (sel w 27 14 + k) % 16384, hq := 28 + sel w 27 26, hpop := bit w 25
      ofs := (sel w 24 14 + k) % 2048 } := by
  rw [slotRegs_other _ (by decide)]
  rfl

theorem byHandle_wrAddr (ha : wrAddr (slotRegs c 7 ctx.pos) op.word = a) : a.byHandle = bit op.word 28 := ha ▸ rfl

variable (hu : op.unit.val = 7) (ha : wrAddr (slotRegs c 7 ctx.pos) op.word = a)
include hu ha

theorem wrExec_address (hb : bit op.word 28 = false) : wrExec ctx op c =
    (wrEntry op c).zipIdx.foldl (fun e v => e.bind (wrRow ctx ((a.row + v.2) % 16384) v.1))
      { core := wrTaken ctx op (headHandle c a.hq) c } := by
  have ha' := byHandle_wrAddr ha
  rw [hb] at ha'
  simp only [wrExec, hu, ha, ha', Bool.false_eq_true, if_false, Bool.false_and, due_same]
  simp only [wrTaken, wrFed, wrQualifies, hb, Bool.false_and]
  rfl

/-- The one row of a row queue's entry is discarded when it lies in a gated group. -/
theorem wrExec_discarded (hb : bit op.word 28 = false) (hq : sel op.word 33 30 < 8) (hg : rowGated ctx.decl (a.row % 16384) = true) :
    let y := wrTaken ctx op (headHandle c a.hq) c
    wrExec ctx op c = { core := (recGated (useBank y (a.row % 16384)) 7 ctx.pos).core, ev := [{ code := 5 }] } := by
  have hrows : wrEntry op c = [(c.head (sel op.word 33 30)).setWidth 4096] := if_pos hq
  rw [wrExec_address hu ha hb, hrows, List.zipIdx_singleton, List.foldl_cons, List.foldl_nil, bind_core]
  exact wrRow_gated hg ..

variable (hb : bit op.word 28 = true)
include hb

/-- A WR through a handle writes its rows when both checks pass, and otherwise records the first that fails. -/
theorem wrExec_byHandle : wrExec ctx op c =
    let h := headHandle c a.hq
    let x := wrTakenByHandle ctx op a c
    let k1 := checkHandle ctx.decl c h a.ofs
    let k2 := checkHandle ctx.decl c h (a.ofs + (wrEntry op c).length - 1)
    let k := if k1.1 ≠ 0 then k1.1 else k2.1
    if k ≠ 0 then { core := recHandle x k 7 ctx.pos h }
    else { core := (wrEntry op c).zipIdx.foldl (fun x v =>
      writeRow (useBank x (k1.2 + v.2)) (ctx.cycle + 2) (k1.2 + v.2) (some v.1) (some (wrMark h (a.ofs + v.2)))) x } := by
  have ha' := byHandle_wrAddr ha
  rw [hb] at ha'
  have hk (f : Nat) : checkHandle ctx.decl c (headHandle c a.hq) f =
      checkHandle ctx.decl (wrTakenByHandle ctx op a c) (headHandle c a.hq) f :=
    (checkHandle_sp (sp_wrTakenByHandle ..) ..).symm
  simp only [hk, wrExec, hu, ha, ha', Bool.true_and, if_true, due_same]
  simp only [wrTakenByHandle, wrForwarded, wrFed, wrQualifies, hb, Bool.true_and]
  rfl

theorem wrExec_slot {r r' : Nat} (hk : checkHandle ctx.decl c (headHandle c a.hq) a.ofs = (0, r))
    (hk' : checkHandle ctx.decl c (headHandle c a.hq) (a.ofs + (wrEntry op c).length - 1) = (0, r')) : wrExec ctx op c =
    { core := (wrEntry op c).zipIdx.foldl (fun x v => writeRow (useBank x (r + v.2)) (ctx.cycle + 2) (r + v.2) (some v.1)
      (some (wrMark (headHandle c a.hq) (a.ofs + v.2)))) (wrTakenByHandle ctx op a c) } := by
  have e := wrExec_byHandle hu ha hb
  dsimp only at e
  rw [hk, hk'] at e
  exact e

theorem wrExec_refused (hk : (checkHandle ctx.decl c (headHandle c a.hq) a.ofs).1 ≠ 0 ∨
      (checkHandle ctx.decl c (headHandle c a.hq) (a.ofs + (wrEntry op c).length - 1)).1 ≠ 0) :
    ∃ n, wrExec ctx op c = { core := recHandle (wrTakenByHandle ctx op a c) n 7 ctx.pos (headHandle c a.hq) } := by
  refine ⟨_, (wrExec_byHandle hu ha hb).trans (if_pos ?_)⟩
  split
  · assumption
  · exact hk.resolve_left ‹_›

end

/-- Rows written one after the other: all of them pending, and the banks served. -/
theorem foldl_writeRow (due : Nat) (row : Nat → Nat) (mark : Nat → Option RowMark) (l : List (Row × Nat)) (c : Core) : ∃ banks,
    l.foldl (fun x v => writeRow (useBank x (row v.2)) due (row v.2) (some v.1) (mark v.2)) c = { c with sp := { c.sp with
      pend := c.sp.pend ++ l.map (fun v => { due := due, row := row v.2, val := some v.1, mark := mark v.2 }), progBanks := banks } } := by
  induction l generalizing c with
  | nil => exact ⟨c.sp.progBanks, by simp⟩
  | cons v l ih =>
    obtain ⟨banks, h⟩ := ih (writeRow (useBank c (row v.2)) due (row v.2) (some v.1) (mark v.2))
    refine ⟨banks, ?_⟩
    rw [List.foldl_cons, h]
    simp [writeRow, useBank]

/-- Operations that raise no event, one after the other. -/
theorem foldl_bind_core {α : Type} {g : α → Core → Eff} {f : α → Core → Core} (l : List α)
    (h : ∀ v ∈ l, ∀ c, g v c = { core := f v c }) (c : Core) :
    l.foldl (fun (e : Eff) v => e.bind (g v)) { core := c } = { core := l.foldl (fun c v => f v c) c } := by
  induction l generalizing c with
  | nil => rfl
  | cons v l ih =>
    rw [List.foldl_cons, bind_core, h v List.mem_cons_self, ih (fun v hv => h v (List.mem_cons_of_mem _ hv)), List.foldl_cons]

/-! ### The core that WR leaves -/

/-- What a discarded row leaves: nothing pending, and the access counted. -/
theorem earlyMarked_discarded {c y : Core} (hy : y.sp = c.sp) (row n : Nat) :
    let x := earlyMarked 7 c (recGated (useBank y row) 7 n).core
    x.sp.pend = c.sp.pend ∧ x.sp.rows = c.sp.rows ∧ x.sp.slots = c.sp.slots ∧
      x.sp.cnt.gatedAccesses = c.sp.cnt.gatedAccesses + 1 ∧ bit x.sp.cnt.sticky 0 = true := by
  rw [← hy]
  exact ⟨rfl, rfl, rfl, recGated_counts (useBank y row) 7 n⟩

section
variable {s : State} {op : SlotOp} {ctx : Ctx} (hr : SlotRuns s.m op ctx) (hw : Instr.wf (.wr op) = true)
include hr hw

theorem wr_countsGated {x : Core}
    (h : wrExec ctx op (slotCore s.m op) = { core := x, ev := [{ code := 5 }] }) :
    let y := earlyMarked 7 (slotCore s.m op) x
    exec (.wr op) s = .next { s with
      m := ((traceWr op s.m).setCore op.site y).onRegion (siteRegion op.site) (fun g => countEv g { code := 5 }) } := by
  rw [exec_wr hr hw, h, applyEff_gated]

theorem wr_leaves {x : Core}
    (h : wrExec ctx op (slotCore s.m op) = { core := x }) :
    exec (.wr op) s = .next { s with m := (traceWr op s.m).setCore op.site (earlyMarked 7 (slotCore s.m op) x) } := by
  rw [exec_wr hr hw, h, applyEff_core]

/-- A WR that writes its rows leaves them pending, and of the scratchpad's record the banks served. -/
theorem wr_writes {y : Core} (hy : y.sp = (slotCore s.m op).sp)
    (row : Nat → Nat) (mark : Nat → Option RowMark) (l : List (Row × Nat))
    (h : wrExec ctx op (slotCore s.m op) =
      { core := l.foldl (fun x v => writeRow (useBank x (row v.2)) (ctx.cycle + 2) (row v.2) (some v.1) (mark v.2)) y }) :
    let c := slotCore s.m op
    ∃ x, exec (.wr op) s = .next { s with m := (traceWr op s.m).setCore op.site x } ∧
      x = { y with sp := { c.sp with pend := x.sp.pend, progBanks := x.sp.progBanks, early := x.sp.early } } ∧
      x.sp.pend = c.sp.pend ++ l.map (fun v => { due := ctx.cycle + 2, row := row v.2, val := some v.1, mark := mark v.2 }) := by
  obtain ⟨banks, hf⟩ := foldl_writeRow (ctx.cycle + 2) row mark l y
  rw [hf, hy] at h
  exact ⟨_, wr_leaves hr hw h, rfl, rfl⟩

/-- A WR whose handle fails a check leaves the failure counted. -/
theorem wr_refused {y : Core} (hy : y.sp = (slotCore s.m op).sp) {n : Nat} {hd : W32}
    (h : wrExec ctx op (slotCore s.m op) = { core := recHandle y n 7 ctx.pos hd }) :
    let c := slotCore s.m op
    ∃ x, exec (.wr op) s = .next { s with m := (traceWr op s.m).setCore op.site x } ∧
      x = { y with sp := { c.sp with cnt := x.sp.cnt, early := x.sp.early } } ∧
      x.sp.cnt.handleErrors + x.sp.cnt.offsetErrors = c.sp.cnt.handleErrors + c.sp.cnt.offsetErrors + 1 := by
  refine ⟨_, wr_leaves hr hw h, by rw [← hy]; rfl, ?_⟩
  obtain ⟨hh, ho, -⟩ := recHandle_counts y n 7 ctx.pos hd (by decide)
  refine (congrArg₂ _ hh ho).trans ?_
  rw [hy]
  split <;> ring

end

/-! ### The statements -/

/-- Settles O7, by what RD and WR make of their core in each case of R264, R270 and R281, and the bank their slot notes. That a WR
through a handle has both of its rows checked before either is written is the model's choice (log entry 72). -/
theorem readsAndWritesMoveRows : Obligations.ReadsAndWritesMoveRows := by
  unfold Obligations.ReadsAndWritesMoveRows
  refine ⟨fun s op ctx hr hw => ?read, fun s op ctx hr hw => ?write⟩
  case read =>
    intro c w u k push served row h f p slot gatedAccess
    have hu := unit_of_wf_rd hw
    have ha : rdAddr (slotRegs c u ctx.pos) w = ⟨bit w 30, row, 28 + sel w 29 28, bit w 27, f⟩ := by
      rw [slotRegs_other _ (by omega)]
      rfl
    refine ⟨fun hb hg => ?_, fun hb hg => ?_, fun d r hb hd hk => ⟨checkHandle_row hd hk, ?_⟩, fun n r hb hk hn => ?_⟩
    · have hl := rd_leaves hr hw hu (rdExec_row ha hb hg hr.sound)
      rw [earlyMarked_rdPushed _ _ rfl] at hl
      exact hl
    · exact ⟨_, rd_countsGated hr hw hu (rdExec_gated ha hb hg), rfl, recGated_counts _ _ _⟩
    · have hl := rd_leaves hr hw hu (rdExec_slot ha hb hk hr.sound)
      rw [earlyMarked_rdPushed _ _ ((progBanks_readCounted ..).trans (congrArg _ (sp_pop ..)))] at hl
      have hread : SlotLeaves (.rd op) s op (push (c.sp.rows.get r) (served (r / 512) (readCounted ctx.decl h p))) := hl
      rw [readCounted_popped hd] at hread
      exact hread
    · have hp : p.sp = c.sp := sp_pop ..
      have hcounts := recHandle_counts p n u ctx.pos h (by omega)
      rw [hp] at hcounts
      exact ⟨_, rd_leaves hr hw hu (rdExec_refused ha hb hk hn), earlyMarked_refused hp n h, hcounts⟩
  case write =>
    intro c w k q entry rows row h f dflag fed forwarded leaves
    have hu := unit_of_wf_wr hw
    have ha : wrAddr (slotRegs c 7 ctx.pos) w = ⟨bit w 28, row, 28 + sel w 27 26, bit w 25, f⟩ := wrAddr_eq c ctx.pos w
    have htaken : forwarded (fed ((c.pop q (bit w 29)).pop (28 + sel w 27 26) (bit w 25))) =
        wrTakenByHandle ctx op ⟨bit w 28, row, 28 + sel w 27 26, bit w 25, f⟩ c := rfl
    refine ⟨traceWr_off, fun hb hg => ?_, fun r r' hb hk hk' => ?_, fun hb hk => ?_⟩
    · have hx : wrExec ctx op c = { core := rows.zipIdx.foldl (fun x v =>
          writeRow (useBank x ((row + v.2) % 16384)) (ctx.cycle + 2) ((row + v.2) % 16384) (some v.1) none) (wrTaken ctx op h c) } := by
        refine (wrExec_address hu ha hb).trans (foldl_bind_core _ (fun v hv y => ?_) _)
        obtain ⟨-, hlt, -⟩ := List.mem_zipIdx hv
        exact wrRow_open (hg v.2 (by rwa [Nat.zero_add] at hlt)) ..
      exact wr_writes hr hw (sp_wrTaken _) (fun i => (row + i) % 16384) (fun _ => none) rows.zipIdx hx
    · rw [htaken]
      exact wr_writes hr hw (sp_wrTakenByHandle _) (fun i => r + i) (fun i => some (wrMark h (f + i))) rows.zipIdx
        (wrExec_slot hu ha hb hk hk')
    · obtain ⟨n, hx⟩ := wrExec_refused hu ha hb hk
      rw [htaken]
      exact wr_refused hr hw (sp_wrTakenByHandle _) hx

/-- Settles O8: the one row of a row queue's entry is the row that the group's gate discards. -/
theorem gatedWriteDiscarded : Obligations.GatedWriteDiscarded := by
  unfold Obligations.GatedWriteDiscarded
  intro s op ctx hr hw c w row hb hq hg gatedAccess
  have hmod : row % 16384 = row := Nat.mod_mod _ _
  have hx := wrExec_discarded (unit_of_wf_wr hw) (wrAddr_eq c ctx.pos w) hb hq (hmod.symm ▸ hg)
  exact ⟨_, wr_countsGated hr hw hx, earlyMarked_discarded (sp_wrTaken _) ..⟩

end Sys2Proof.Proofs
end

section
/-!
PROOFS. The landing port: rows accepted, rows served, and rows read for a STORE (R253 to R256, R261, R275, R307, R309).
-/

namespace Sys2Proof.Proofs

open Sys2Proof Sys2Proof.Machine Sys2Proof.Laws

/-! ### What the engine's operations leave of the cores and of other parts -/

section
variable (r : Nat) (f : Engine → Engine) (m : Mod) (x : Nat)

@[simp] theorem core_onEng : (onEng r f m).core x = m.core x := core_onRegion rfl x

@[simp] theorem eng_onEng : ((onEng r f m).region r).eng = f (m.region r).eng := by
  simp only [onEng, region_onRegion]

@[simp] theorem core_freeDeferred : m.freeDeferred.core x = m.core x := by
  obtain ⟨a, h⟩ := freeDeferred_alloc m
  rw [h]
  rfl

@[simp] theorem core_sweepXfers : (sweepXfers r m).core x = m.core x := by
  simp only [sweepXfers, core_freeDeferred, core_onEng]

@[simp] theorem region_requestChunk (q : ChunkReq) : (requestChunk q m).region r = m.region r := rfl

@[simp] theorem core_requestChunk (q : ChunkReq) : (requestChunk q m).core x = m.core x := rfl

end

/-- Events that are counted in a region's mark leave every core. -/
theorem core_foldl_countEv {r site : Nat} (l : List EvOut) (h : ∀ x ∈ l, x.code ≠ 8) (m : Mod) :
    (l.foldl (fun m x => if x.code = 8 then raiseEvent 8 r 1 (m.region r).run.gang x.d0 x.d 0 m
      else m.onRegion r (fun g => countEv g x)) m).core site = m.core site := by
  induction l generalizing m with
  | nil => rfl
  | cons x l ih =>
    rw [List.foldl_cons, ih (fun y hy => h y (List.mem_cons_of_mem _ hy)), if_neg (h x List.mem_cons_self), core_onRegion rfl]

/-- A core left by an operation that raises nothing at once. -/
theorem core_applyEff {e : Eff} (hs : e.sramStop = false) (he : ∀ x ∈ e.ev, x.code ≠ 8) (m : Mod) (site : Nat) :
    (m.applyEff site e).core site = e.core := by
  simp only [Mod.applyEff, hs, Bool.false_eq_true, if_false]
  rw [core_foldl_countEv _ he, core_setCore]

theorem siteOf_coreOf {g : Region} {site k : Nat} (h : g.coreOf site = some k) : g.siteOf k = site := by
  simp only [Region.coreOf, Option.ite_none_right_eq_some, Option.some.injEq] at h
  obtain ⟨hlt, rfl⟩ := h
  rw [Region.siteOf, List.getD_eq_getElem _ _ hlt]
  exact eq_of_beq (List.findIdx_getElem (w := hlt))

/-! ### Rows accepted (R254, R261, R275, R307) -/

section
variable {m : Mod} {site k : Nat} {l : LandRow} {j : DescJob}

/-- The row that a core's landing port accepts next is for that core. -/
theorem nextLand_core {g : Region} {c : Core} (h : nextLand g k c = some (l, j)) : l.core = k := by
  obtain ⟨l', -, hl⟩ := List.exists_of_findSome?_eq_some h
  split at hl
  case isFalse => cases hl
  case isTrue hk =>
    split at hl
    case h_2 => cases hl
    case h_1 =>
      split at hl
      · cases hl
      · cases hl
        exact hk

theorem landingRow_stock (parity : Bool) (hk : (m.region (siteRegion site)).coreOf site = some k)
    (hroom : (m.core site).sp.landing.length < 32) (hl : nextLand (m.region (siteRegion site)) k (m.core site) = some (l, j)) :
    landingRow site parity m = landStock (siteRegion site) l j parity m := by
  simp only [landingRow, hk, hl, ge_iff_le, Nat.not_le.2 hroom, if_false]

/-- The request that an accepted row of a transfer becomes. -/
def landReqOf (g : Region) (c : Core) (l : LandRow) (j : DescJob) : LandReq :=
  landReq g.decl c (if j.tmode then some j.handle else none) (j.row0 + l.idx) l.val (some (l.desc, l.xfer))

theorem landReqOf_eq (g : Region) (c : Core) (l : LandRow) (j : DescJob) : landReqOf g c l j =
    let o := j.row0 + l.idx
    if j.tmode then { row := (checkHandle g.decl c j.handle o).2, val := l.val, src := some (l.desc, l.xfer)
                      mark := some { drawer := hDrawer j.handle, slot := hSlot j.handle, gen := BitVec.ofNat 16 (hGen j.handle), off := o } }
    else { row := o % 16384, val := l.val, src := some (l.desc, l.xfer), mark := none } := by
  cases h : j.tmode with
  | false => simp only [landReqOf, h, Bool.false_eq_true, if_false]; rfl
  | true => simp only [landReqOf, h, if_true]; rfl

/-- A row without a parity error whose handle, if it is for a slot, passes the checks in the slot's generation is accepted. -/
theorem landStock_accepts {r : Nat} (h : j.tmode = true → (checkHandle (m.region r).decl (m.core ((m.region r).siteOf l.core)) j.handle
      (j.row0 + l.idx)).1 = 0 ∧ genDist (m.core ((m.region r).siteOf l.core)) j.handle = 0) :
    let g := m.region r
    landStock r l j false m = onEng r (fun e => { e with landing := e.landing.erase l })
      (m.onCore (g.siteOf l.core) (pushLand (landReqOf g (m.core (g.siteOf l.core)) l j))) := by
  cases ht : j.tmode with
  | false => simp only [landStock, landReqOf, ht, Bool.false_eq_true, if_false]
  | true =>
    obtain ⟨hk, hg⟩ := h ht
    simp only [landStock, landReqOf, ht, hk, hg, Bool.false_eq_true, ne_eq, not_true_eq_false, if_true, if_false]

end

/-! ### Rows served (R253, R255, R261) -/

theorem landFree_iff (c : Core) (row : Nat) : landFree c row = true ↔
    c.sp.landUsed < 3 ∧ bankOf row ∉ c.sp.progBanks ∧ bankOf row ∉ c.sp.landBanks := by
  simp [landFree, and_assoc]

/-- A row marked written changes the slots alone. -/
theorem markRow_slots (c : Core) (k : RowMark) : ∃ t, markRow c k = { c with sp := { c.sp with slots := t } } := by
  simp only [markRow]
  split
  · exact ⟨_, rfl⟩
  · exact ⟨c.sp.slots, rfl⟩

/-- A core with the row of a landing request written. -/
def landWritten (q : LandReq) (c : Core) : Core :=
  { useLand c q.row with sp := { (useLand c q.row).sp with rows := c.sp.rows.set q.row q.val } }

section
variable (ctx : Ctx) (q : LandReq) (c : Core)

theorem serveLand_gated (h : rowGated ctx.decl q.row = true) : serveLand ctx q c = recGated (useLand c q.row) 15 ctx.view := if_pos h

theorem serveLand_open (h : rowGated ctx.decl q.row = false) :
    ∃ t, serveLand ctx q c = { core := { landWritten q c with sp := { (landWritten q c).sp with slots := t } } } := by
  have hs : serveLand ctx q c = { core := match q.mark with
      | some k => markRow (landWritten q c) k
      | none => landWritten q c } := by
    simp only [serveLand, h, Bool.false_eq_true, if_false]
    rfl
  rw [hs]
  cases q.mark with
  | none => exact ⟨c.sp.slots, rfl⟩
  | some k =>
    obtain ⟨t, ht⟩ := markRow_slots (landWritten q c) k
    exact ⟨t, congrArg (fun x => ({ core := x } : Eff)) ht⟩

/-- A request served uses its bank in the cycle, writes at most its own row, and raises nothing at once. -/
theorem serveLand_leaves : let e := serveLand ctx q c
    e.core.sp.landBanks = bankOf q.row :: c.sp.landBanks ∧ e.core.sp.landUsed = c.sp.landUsed + 1 ∧
    (∀ row, row ≠ q.row → e.core.sp.rows.get row = c.sp.rows.get row) ∧ (∀ x ∈ e.ev, x.code ≠ 8) ∧ e.sramStop = false := by
  cases h : rowGated ctx.decl q.row with
  | true =>
    rw [serveLand_gated _ _ _ h]
    exact ⟨rfl, rfl, fun _ _ => rfl, by simp [recGated], rfl⟩
  | false =>
    obtain ⟨t, ht⟩ := serveLand_open ctx q c h
    rw [ht]
    exact ⟨rfl, rfl, fun row hr => (mem_get_set ..).trans (if_neg hr), by simp, rfl⟩

end

/-- Of the requests served in a cycle so far, one left a row: its bank is used, so no later one writes it. -/
def Landed (row : Nat) (v : Row) (e : Eff) : Prop :=
  bankOf row ∈ e.core.sp.landBanks ∧ e.core.sp.rows.get row = v ∧ e.core.sp.landUsed ≤ 3 ∧ (∀ x ∈ e.ev, x.code ≠ 8) ∧ e.sramStop = false

section
variable {ctx : Ctx} {q : LandReq} {row : Nat} {v : Row}

theorem landed_first {c : Core} (hu : c.sp.landUsed < 3) (hg : rowGated ctx.decl q.row = false) :
    Landed q.row q.val (({ core := c } : Eff).bind (serveLand ctx q)) := by
  obtain ⟨t, ht⟩ := serveLand_open ctx q c hg
  rw [bind_core, ht]
  exact ⟨List.mem_cons_self, (mem_get_set ..).trans (if_pos rfl), hu, by simp, rfl⟩

theorem Landed.serve {e : Eff} (h : Landed row v e) (hf : landFree e.core q.row = true) : Landed row v (e.bind (serveLand ctx q)) := by
  obtain ⟨hbank, hheld, -, hcounted, hsound⟩ := h
  obtain ⟨hu, -, hb⟩ := (landFree_iff ..).1 hf
  obtain ⟨hbanks, hused, hrows, hev, hs⟩ := serveLand_leaves ctx q e.core
  have hne : row ≠ q.row := fun heq => hb (heq ▸ hbank)
  refine ⟨?bank, ?held, ?used, ?counted, ?sound⟩
  case bank => exact hbanks ▸ List.mem_cons_of_mem _ hbank
  case held => exact (hrows row hne).trans hheld
  case used => exact hused.trans_le hu
  case counted => exact fun x hx => (List.mem_append.1 hx).elim (hcounted x) (hev x)
  case sound => simp only [Eff.bind, hsound, hs, Bool.or_self]

theorem Landed.serveAll {l left done : List LandReq} {e : Eff} (h : Landed row v e) : Landed row v (serveAll ctx l left e done).1 := by
  induction l generalizing left e done with
  | nil => exact h
  | cons q l ih =>
    rw [Machine.serveAll]
    split
    case isTrue hf => exact ih (h.serve (Bool.and_eq_true_iff.1 hf).1)
    case isFalse => exact ih h

theorem length_left_serveAll (l left done : List LandReq) (e : Eff) : (serveAll ctx l left e done).2.1.length ≤ left.length + l.length := by
  induction l generalizing left e done with
  | nil => exact le_rfl
  | cons q l ih =>
    rw [serveAll]
    split
    · exact (ih ..).trans (by simp)
    · exact (ih ..).trans (by simp; omega)

end

/-- A core with its landing requests taken out for the service of a cycle. -/
def unqueued (c : Core) : Core := { c with sp := { c.sp with landing := [] } }

/-- The core after its landing port's service of a cycle: the requests served, and those left waiting. -/
theorem core_landingPortService {m : Mod} {site k : Nat} (hk : (m.region (siteRegion site)).coreOf site = some k) {e : Eff}
    {left done : List LandReq} (hs : e.sramStop = false) (he : ∀ x ∈ e.ev, x.code ≠ 8)
    (h : serveAll (m.ctx (siteRegion site) k 0 0) (m.core site).sp.landing [] { core := unqueued (m.core site) } [] = (e, left, done)) :
    (landingPortService site m).core site = { e.core with sp := { e.core.sp with landing := left } } := by
  simp only [unqueued] at h
  simp only [landingPortService, hk, h, core_sweepXfers, core_onEng]
  exact core_applyEff (e := { e with core := { e.core with sp := { e.core.sp with landing := left } } }) hs he m site

/-- The oldest request to a free bank is written at once. -/
theorem landingPortService_oldest {m : Mod} {site k : Nat} {q : LandReq} {rest : List LandReq}
    (hk : (m.region (siteRegion site)).coreOf site = some k) (hq : (m.core site).sp.landing = q :: rest)
    (hf : landFree (m.core site) q.row = true) (hg : rowGated (m.region (siteRegion site)).decl q.row = false) :
    let c := (landingPortService site m).core site
    c.sp.rows.get q.row = q.val ∧ c.sp.landing.length < (m.core site).sp.landing.length ∧ c.sp.landUsed ≤ 3 := by
  let ctx := m.ctx (siteRegion site) k 0 0
  let first : Eff := ({ core := unqueued (m.core site) } : Eff).bind (serveLand ctx q)
  have hfirst : serveAll ctx (m.core site).sp.landing [] { core := unqueued (m.core site) } [] = serveAll ctx rest [] first [q] := by
    have hf' : landFree (unqueued (m.core site)) q.row = true := hf
    rw [hq, serveAll]
    simp only [hf', List.any_nil, Bool.not_false, Bool.and_self, if_true, List.nil_append, first]
  have hlanded : Landed q.row q.val (serveAll ctx rest [] first [q]).1 :=
    (landed_first (c := unqueued (m.core site)) ((landFree_iff ..).1 hf).1 hg).serveAll
  have hleft := length_left_serveAll (ctx := ctx) rest [] [q] first
  rw [← hfirst] at hlanded hleft
  obtain ⟨-, hheld, hused, hcounted, hsound⟩ := hlanded
  rw [core_landingPortService hk hsound hcounted rfl]
  refine ⟨hheld, hleft.trans_lt ?_, hused⟩
  rw [hq, List.length_cons, List.length_nil]
  omega

/-! ### Rows read for a STORE (R309) -/

theorem landRead_sound {ctx : Ctx} {row : Nat} {c : Core} (hg : rowGated ctx.decl row = false) :
    landRead ctx row .ok c = ({ core := useLand c row }, some (c.sp.rows.get row)) := by
  simp only [landRead, hg, Bool.false_eq_true, if_false]
  rfl

section
variable {m : Mod} {r : Nat} {x : Xfer} {p : XferPiece} {idx : Nat} {j : DescJob}

/-- The row of its core that a STORE reads next. -/
def storeRow (g : Region) (c : Core) (idx : Nat) (j : DescJob) : Nat :=
  if j.tmode then (checkHandle g.decl c j.handle (j.row0 + idx)).2 else (j.row0 + idx) % 16384

/-- A region's engine with one more row read for a STORE. -/
def storeTaken (x : Xfer) (v : Row) (e : Engine) : Engine :=
  { e.onXfer x.id (fun y => { y with read := y.read + 1 }) with
    stores := e.stores ++ [{ xfer := x.id, sa := (x.sa + 512 * x.read) % 2 ^ 48, val := v }] }

variable {c : Core} {row : Nat} (h : nextStoreRow (m.region r) = some (x, p, idx, j))
  (hc : m.core ((m.region r).siteOf p.core) = c) (hrow : storeRow (m.region r) c idx j = row)
  (hgen : j.tmode = true → genDist c j.handle = 0) (hfree : landFree c row = true) (hg : rowGated (m.region r).decl row = false)
include h hc hrow hgen hfree hg

/-- A STORE's row read, and its chunk's write requested once the chunk's rows have all been read (R309, R311). -/
theorem storeRowRead_reads :
    storeRowRead r .ok m =
      let m' := onEng r (storeTaken x (c.sp.rows.get row)) (m.setCore ((m.region r).siteOf p.core) (useLand c row))
      let sa := (x.sa + 512 * x.read) % 2 ^ 48
      if x.read + 1 = x.len ∨ sa % 1024 = 512 then requestChunk { region := r, xfer := x.id, chunk := sa / 1024, store := true } m'
      else m' := by
  have hgen' : (j.tmode && genDist c j.handle != 0) = false := by
    cases ht : j.tmode with
    | false => rfl
    | true => simp [hgen ht]
  have hread : landRead (m.ctx r p.core (m.region r).seq.pos j.addr) row .ok c = ({ core := useLand c row }, some (c.sp.rows.get row)) :=
    landRead_sound hg
  simp only [storeRow] at hrow
  simp only [storeRowRead, h, hc, hrow, hgen', hfree, hread, applyEff_core, Bool.not_true, Bool.false_eq_true, if_false]
  rfl

/-- What a STORE's row read leaves of the engine and of its core. -/
theorem storeRowRead_leaves :
    ((storeRowRead r .ok m).region r).eng = storeTaken x (c.sp.rows.get row) (m.region r).eng ∧
    (storeRowRead r .ok m).core ((m.region r).siteOf p.core) = useLand c row := by
  rw [storeRowRead_reads h hc hrow hgen hfree hg]
  dsimp only
  split
  · simp only [region_requestChunk, core_requestChunk, eng_onEng, core_onEng, core_setCore, region_setCore_same, and_self]
  · simp only [eng_onEng, core_onEng, core_setCore, region_setCore_same, and_self]

end

end Sys2Proof.Proofs
end

section
/-!
PROOFS. Landing tokens, and the commands of the landing port (R308, R312).
-/

namespace Sys2Proof.Proofs

open Sys2Proof Sys2Proof.Machine Sys2Proof.Laws

/-- A token ready for a running gang enters its core's buffer. -/
theorem tokenPlaced_places {m : Mod} {r c : Nat} {j : DescJob} (h : nextToken m r = some (j, c)) (hr : (m.region r).run.running = true) :
    let g := m.region r
    ((tokenPlaced r m).core (g.siteOf c)).ni.tokens = (m.core (g.siteOf c)).ni.tokens ++
      [mkToken (Tab.get j.rows c 0) (Tab.get j.status c 0) j.kind j.addr g.ticks j.key] := by
  simp only [tokenPlaced, h, hr, if_true, core_onEng, core_sweepXfers, core_onCore]

/-! ### The commands -/

theorem exec_landingRow (site : Fin 25600) (parity : Bool) (s : State) :
    exec (.landingRow site parity) s = .next { s with m := landingRow site parity s.m } := rfl

theorem exec_landingPortService (site : Fin 25600) (s : State) :
    exec (.landingPortService site) s = .next { s with m := landingPortService site s.m } := rfl

theorem exec_storeRowRead (r : Fin 25) (err : SramErr) (s : State) :
    exec (.storeRowRead r err) s = .next { s with m := storeRowRead r err s.m } := rfl

theorem exec_tokenPlaced (r : Fin 25) (s : State) : exec (.tokenPlaced r) s = .next { s with m := tokenPlaced r s.m } := rfl

/-- Settles O30, one command at a time. That a row of a transfer is accepted before one of a window is the model's choice (log entry
28). -/
theorem landingAndTokens : Obligations.LandingAndTokens := by
  unfold Obligations.LandingAndTokens
  refine fun s => ⟨?accept, ?serve, ?read, ?token⟩
  case accept =>
    intro site k l j r g c o hk hroom hl h
    have hsite : g.siteOf l.core = site := (nextLand_core hl).symm ▸ siteOf_coreOf hk
    have hland : landingRow site false s.m = onEng r (fun e => { e with landing := e.landing.erase l })
        (s.m.onCore site (pushLand (landReqOf g c l j))) := by
      rw [landingRow_stock false hk hroom hl, landStock_accepts (by rw [hsite]; exact h), hsite]
    refine ⟨_, (exec_landingRow ..).trans (by rw [hland]), ?_, ?_⟩
    · simp only [eng_onEng, region_onCore_same, r, g]
    · rw [core_onEng, core_onCore, landReqOf_eq]
      rfl
  case serve =>
    intro site k q rest g c hk hq hu hp hl hg
    exact ⟨_, exec_landingPortService .., landingPortService_oldest hk hq ((landFree_iff ..).2 ⟨hu, hp, hl⟩) hg⟩
  case read =>
    intro r x p idx j g site c row h hgen hu hp hl hg
    obtain ⟨heng, hcore⟩ := storeRowRead_leaves h rfl rfl hgen ((landFree_iff ..).2 ⟨hu, hp, hl⟩) hg
    exact ⟨_, exec_storeRowRead .., congrArg Engine.stores heng, by rw [hcore]; rfl, by rw [hcore]; rfl⟩
  case token =>
    intro r j c g h hr
    exact ⟨_, exec_tokenPlaced .., tokenPlaced_places h hr⟩

end Sys2Proof.Proofs
end

section
/-!
PROOFS. WAITL: the oldest token of a key consumed, its slot drained, the error predicate written (R314 to R316, R269).
-/

namespace Sys2Proof.Proofs

open Sys2Proof Sys2Proof.Machine Sys2Proof.Laws

section
variable {s : State} {op : SlotOp} {ctx : Ctx}

/-- The conditions of an executing CC slot are met (Table 3.4a). -/
theorem ccHolds_met (hr : SlotRuns s.m op ctx) (hu : op.unit.val = 9) (ho : op.op ≠ 0) :
    ccHolds ctx true op.word (slotCore s.m op) = [] := by
  have he := hr.enabled
  have hm := hr.met
  rw [hu] at he hm
  simp only [SlotOp.op] at ho
  simpa [slotHolds, he, ho] using hm

/-- A CC command that raises no event changes its core alone. -/
theorem ccCommand_leaves {i : Instr} {f : Ctx → SlotOp → Core → Eff} {c : Core}
    (hx : ∀ s, exec i s = s.runIf (Instr.wf i) (coreSlot f op)) (hw : Instr.wf i = true) (hr : SlotRuns s.m op ctx)
    (hu : op.unit.val = 9) (hf : f ctx op (slotCore s.m op) = { core := c }) : SlotLeaves i s op (passed ctx c) := by
  rw [SlotLeaves, slotCommand_effect hx hw hr (by omega) (slotSram_quiet hr.sound (by omega)), hf, applyEff_core]

/-- The queue of a WAITL's handle. -/
def waitlQueue (op : SlotOp) : Nat := 28 + sel op.word 33 32

/-- A WAITL that executes finds a token with its handle's key (R314). -/
theorem tokenFor_waitl (hr : SlotRuns s.m op ctx) (hu : op.unit.val = 9) (ho : op.op = 8) :
    ∃ t, tokenFor (slotCore s.m op) (headHandle (slotCore s.m op) (waitlQueue op)) = some t := by
  have hm := ccHolds_met hr hu (by rw [ho]; decide)
  have ho' : sel op.word 39 34 = 8 := ho
  by_contra hn
  rw [not_exists] at hn
  have hnone : tokenFor (slotCore s.m op) (((slotCore s.m op).head (28 + sel op.word 33 32)).setWidth 32) = none :=
    Option.eq_none_iff_forall_ne_some.2 hn
  simp only [ccHolds, ho', hnone] at hm
  split at hm
  · next h => exact h hm
  · exact absurd hm (by simp)

/-- The oldest token of a key, between the tokens before it, which have other keys, and those after it. -/
theorem tokenFor_oldest {c : Core} {h : W32} {t : W128} (ht : tokenFor c h = some t) :
    ∃ before rest, c.ni.tokens = before ++ t :: rest ∧ t.setWidth 32 = h ∧ (∀ x ∈ before, x.setWidth 32 ≠ h) ∧
      c.ni.tokens.erase t = before ++ rest := by
  obtain ⟨hkey, before, rest, hl, hbefore⟩ := List.find?_eq_some_iff_append.1 ht
  have hk : t.setWidth 32 = h := by simpa using hkey
  have hb : ∀ x ∈ before, x.setWidth 32 ≠ h := by simpa using hbefore
  refine ⟨before, rest, hl, hk, hb, ?_⟩
  rw [hl, List.erase_append_right _ fun hm => hb t hm hk, List.erase_cons_head]

/-- A core whose WAITL has taken its token, with `l` the tokens left. -/
def tokenTaken (op : SlotOp) (l : List W128) (c : Core) : Core :=
  { c.pop (waitlQueue op) (bit op.word 31) with ni := { c.ni with tokens := l } }

theorem sp_tokenTaken (l : List W128) (c : Core) : (tokenTaken op l c).sp = c.sp := sp_pop ..

/-- A core with a handle's slot to be drained at the end of the cycle, where its drawer's DRAIN_READS is 0 and the handle is of the
generation that the slot has in `y` (R269). -/
def waitlDrained (ctx : Ctx) (h : W32) (y x : Core) : Core :=
  match handleDecl ctx.decl h with
  | some d => if d.drainReads = 0 ∧ genDist y h = 0 then drainLater x (hDrawer h) (hSlot h) (y.slot (hDrawer h) (hSlot h)).gen else x
  | none => x

theorem hist_waitlDrained (h : W32) (y x : Core) : (waitlDrained ctx h y x).cc.hist = x.cc.hist := by
  unfold waitlDrained
  split
  · split <;> rfl
  · rfl

theorem slot_sp {c x : Core} (h : x.sp = c.sp) (d n : Nat) : x.slot d n = c.slot d n := by rw [Core.slot, Core.slot, h]

theorem genDist_sp {c x : Core} (h : x.sp = c.sp) (a : W32) : genDist x a = genDist c a := by rw [genDist, genDist, slot_sp h]

theorem waitlDrained_sp {y y' : Core} (e : y'.sp = y.sp) (h : W32) (x : Core) : waitlDrained ctx h y' x = waitlDrained ctx h y x := by
  simp only [waitlDrained, genDist_sp e, slot_sp e]

/-- What a WAITL leaves of its core before it writes a predicate, with `l` the tokens left. -/
def waitlLeft (ctx : Ctx) (op : SlotOp) (l : List W128) (c : Core) : Core :=
  waitlDrained ctx (headHandle c (waitlQueue op)) c (tokenTaken op l c)

theorem hist_waitlLeft (l : List W128) (c : Core) : (waitlLeft ctx op l c).cc.hist = c.cc.hist :=
  (hist_waitlDrained ..).trans (hist_pop ..)

/-- Whether a token reports a failure: its STATUS is not zero (R316). -/
def tokenFailed (t : W128) : Bool := decide (sel t 111 108 ≠ 0)

/-- What a WAITL leaves of its core: with EEN, whether the token reports a failure is written to a predicate (R316). -/
def waitlAfter (ctx : Ctx) (op : SlotOp) (t : W128) (l : List W128) (c : Core) : Core :=
  if bit op.word 30 then writeRegs (waitlLeft ctx op l c) ctx.pos (setPred (sel op.word 29 27) (tokenFailed t)) else waitlLeft ctx op l c

theorem waitlExec_takes {c : Core} {t : W128} (ht : tokenFor c (headHandle c (waitlQueue op)) = some t) :
    waitlExec ctx op c = { core := waitlAfter ctx op t (c.ni.tokens.erase t) c } := by
  unfold waitlExec waitlAfter waitlLeft
  rw [← waitlDrained_sp (sp_tokenTaken (c.ni.tokens.erase t) c)]
  extract_lets w q h
  rw [show tokenFor c h = some t from ht]
  rfl

theorem exec_waitl (op : SlotOp) (s : State) :
    exec (.waitl op) s = s.runIf (Instr.wf (.waitl op)) (coreSlot (fun ctx op c => waitlExec ctx op c) op) := rfl

end

/-- Settles O6: an executing WAITL finds its token, and takes the first of the key. -/
theorem waitlConsumesOldestToken : Obligations.WaitlConsumesOldestToken := by
  unfold Obligations.WaitlConsumesOldestToken
  intro s op ctx hr hw c w q h now
  obtain ⟨hu, ho, -⟩ := wf_slot (u := 9) (o := 8) hw
  obtain ⟨t, ht⟩ := tokenFor_waitl hr hu ho
  obtain ⟨before, rest, htokens, hkey, hbefore, herase⟩ := tokenFor_oldest ht
  have hrun := waitlExec_takes (ctx := ctx) ht
  refine ⟨before, t, rest, htokens, hkey, hbefore, ?_⟩
  intro taken drained
  rw [show (slotCore s.m op).ni.tokens.erase t = before ++ rest from herase] at hrun
  refine ⟨fun hb => ?_, fun hb => ?_⟩
  · rw [waitlAfter, hb, if_neg Bool.false_ne_true] at hrun
    exact ccCommand_leaves (exec_waitl op) hw hr hu hrun
  · rw [waitlAfter, hb, if_pos rfl] at hrun
    have hwrites : WritesRegs (.waitl op) s op ctx (fun _ => drained) (setPred (sel w 29 27) (tokenFailed t)) :=
      ⟨hist_waitlLeft .., ccCommand_leaves (exec_waitl op) hw hr hu hrun⟩
    exact hwrites.completes

end Sys2Proof.Proofs
end

section
/-!
PROOFS. Stock descriptors: the checks of Table 8.4, rejection, and the division into transfers (R299 to R304); tags, chunk requests
and the memory wheel (R306, R310, R318, R320).
-/

namespace Sys2Proof.Proofs

open Sys2Proof Sys2Proof.Machine Sys2Proof.Laws

/-! ### The addresses and handles of a descriptor (R300, R301) -/

/-- A number moved up or down by another, as the SIGN of a descriptor asks. -/
def signedOffset (down : Bool) (a b : Nat) : Int := if down then (a : Int) - b else (a : Int) + b

/-- The model keeps a difference positive by a multiple of the modulus. -/
theorem offset_mod (down : Bool) {a b n m : Nat} (h : n ≤ m) (hb : b ≤ 2 ^ m) :
    (if down then a + 2 ^ m - b else a + b) % 2 ^ n = ((signedOffset down a b).emod (2 ^ n)).toNat := by
  have hcast : ∀ k : Nat, ((k : Int).emod (2 ^ n)).toNat = k % 2 ^ n := fun k => by
    rw [show ((2 : Int) ^ n) = ((2 ^ n : Nat) : Int) by push_cast; rfl]
    exact congrArg Int.toNat (Int.natCast_mod k (2 ^ n)).symm
  cases down with
  | false => exact (hcast (a + b)).symm
  | true =>
    have hshift : ((a : Int) - b).emod (2 ^ n) = ((a + 2 ^ m - b : Nat) : Int).emod (2 ^ n) := by
      rw [Nat.cast_sub (by omega)]
      push_cast
      rw [show (a : Int) + 2 ^ m - b = a - b + 2 ^ n * 2 ^ (m - n) by rw [← pow_add, Nat.add_sub_cancel' h]; ring]
      exact (Int.add_mul_emod_self_left ..).symm
    show (a + 2 ^ m - b) % 2 ^ n = (((a : Int) - b).emod (2 ^ n)).toNat
    rw [hshift, hcast]

theorem dfld_lt (d : Bundle) (o : Nat) {k : Nat} (hk : 0 < k) : dfld d o k < 2 ^ (8 * k) := by
  unfold dfld sel
  rw [show 8 * (o + k) - 1 + 1 - 8 * o = 8 * k by omega]
  exact Nat.mod_lt _ (by positivity)

theorem descV_lt (x : DescIn) : descV x < 2 ^ 32 := by
  unfold descV
  split
  · exact x.v.isLt
  · decide

/-- The stock address of the k-th core's rows. -/
def descAddress (x : DescIn) (k : Nat) : Nat :=
  ((signedOffset (bit x.desc 10) (dfld x.desc 8 6 + k * dfld x.desc 0x10 4) (descV x * dfld x.desc 0x18 6)).emod (2 ^ 48)).toNat

theorem descSa_eq (x : DescIn) (k : Nat) : descSa x.desc (descV x) k = descAddress x k := by
  have hb : descV x * dfld x.desc 0x18 6 ≤ 2 ^ 80 :=
    (Nat.mul_le_mul (descV_lt x).le (dfld_lt x.desc 0x18 (by decide : 0 < 6)).le).trans (by norm_num)
  exact offset_mod _ (by decide) hb

theorem descK_eq (x : DescIn) : descK x = ((signedOffset (bit x.desc 10) (dfld x.desc 0x24 4) (descV x)).emod (2 ^ 32)).toNat :=
  offset_mod _ (by decide) ((descV_lt x).le.trans (by norm_num))

/-! ### The checks (Table 8.4) -/

section
variable (m : Mod) (r : Nat) (x : DescIn)

/-- Status 6: a field or a combination of fields that Table 8.3 does not allow. -/
def FormBad : Prop :=
  let d := x.desc
  let target := dfld d 0x20 4
  dfld d 0 1 = 0 ∨ 2 < dfld d 0 1 ∨ sel d 15 11 ≠ 0 ∨ dfld d 0x0E 2 ≠ 0 ∨ dfld d 0x14 4 ≠ 0 ∨ dfld d 0x1E 2 ≠ 0 ∨ dfld d 0x28 24 ≠ 0 ∨
    (if bit d 8 then target / 2 ^ 11 % 2 ^ 15 else target / 2 ^ 14) ≠ 0 ∨ (dfld d 0 1 = 2 ∧ dfld d 0x10 4 = 0 ∧ 1 < dfld d 6 2)

/-- Status 2: cores that the part does not declare. -/
def CoresBad : Prop := dfld x.desc 6 2 = 0 ∨ (m.region r).decl.cores < dfld x.desc 4 2 + dfld x.desc 6 2

/-- Status 2: rows outside the slot or the scratchpad. -/
def TargetBad : Prop :=
  let target := dfld x.desc 0x20 4
  let len := dfld x.desc 2 2
  if bit x.desc 8 then ∀ z, Tab.find (m.region r).decl.drawers (target / 2 ^ 26) = some z → z.slotRows < target % 2 ^ 11 + len
  else 16384 < target % 2 ^ 14 + len

/-- Status 3: an unaligned address, or a page that is not valid or, for a STORE, not writable. -/
def AddressBad : Prop :=
  let d := x.desc
  dfld d 8 6 % 512 ≠ 0 ∨ dfld d 0x10 4 % 512 ≠ 0 ∨ dfld d 0x18 6 % 512 ≠ 0 ∨
    ∃ k < (if dfld d 0x10 4 = 0 then 1 else dfld d 6 2),
      m.rangeOk (m.region r).run.session (descAddress x k) (512 * dfld d 2 2) false (dfld d 0 1 = 2) = false

/-- The model asks for the target's reserved bits before the reserved bytes 0x28 to 0x3F. -/
theorem formBad_iff : FormBad x ↔ (dfld x.desc 0 1 = 0 ∨ dfld x.desc 0 1 > 2 ∨ sel x.desc 15 11 ≠ 0 ∨ sel x.desc 127 112 ≠ 0 ∨
    dfld x.desc 0x14 4 ≠ 0 ∨ sel x.desc 255 240 ≠ 0 ∨
    (if bit x.desc 8 then dfld x.desc 0x20 4 / 2 ^ 11 % 2 ^ 15 else dfld x.desc 0x20 4 / 2 ^ 14) ≠ 0 ∨ dfld x.desc 0x28 24 ≠ 0 ∨
    (dfld x.desc 0 1 = 2 ∧ dfld x.desc 0x10 4 = 0 ∧ dfld x.desc 6 2 > 1)) := by
  iterate 6 refine or_congr .rfl ?_
  exact or_left_comm

theorem targetBad_iff : TargetBad m r x ↔ (if bit x.desc 8 then
    match Tab.find (m.region r).decl.drawers (dfld x.desc 0x20 4 / 2 ^ 26) with
    | some dr => decide (dfld x.desc 0x20 4 % 2 ^ 11 + dfld x.desc 2 2 > dr.slotRows)
    | none => true
    else decide (dfld x.desc 0x20 4 % 2 ^ 14 + dfld x.desc 2 2 > 16384)) = true := by
  unfold TargetBad
  dsimp only
  cases bit x.desc 8 with
  | false => simp
  | true =>
    generalize Tab.find (m.region r).decl.drawers (dfld x.desc 0x20 4 / 2 ^ 26) = drawer
    cases drawer <;> simp

theorem addressBad_iff : AddressBad m r x ↔ (dfld x.desc 8 6 % 512 ≠ 0 ∨ dfld x.desc 0x10 4 % 512 ≠ 0 ∨ dfld x.desc 0x18 6 % 512 ≠ 0 ∨
    (List.range (if dfld x.desc 0x10 4 = 0 then 1 else dfld x.desc 6 2)).any (fun k =>
      !m.rangeOk (m.region r).run.session (descSa x.desc (descV x) k) (512 * dfld x.desc 2 2) false (dfld x.desc 0 1 = 2)) = true) := by
  simp only [AddressBad, ← descSa_eq, List.any_eq_true, List.mem_range, Bool.not_eq_true']

/-- The outcome of the checks, made in the table's order. -/
theorem descCheck_cases :
    (FormBad x → descCheck m r x = 6) ∧
    (¬ FormBad x → dfld x.desc 2 2 = 0 → descCheck m r x = 1) ∧
    (¬ FormBad x → dfld x.desc 2 2 ≠ 0 → CoresBad m r x ∨ TargetBad m r x → descCheck m r x = 2) ∧
    (¬ FormBad x → dfld x.desc 2 2 ≠ 0 → ¬ CoresBad m r x → ¬ TargetBad m r x → AddressBad m r x → descCheck m r x = 3) ∧
    (¬ FormBad x → dfld x.desc 2 2 ≠ 0 → ¬ CoresBad m r x → ¬ TargetBad m r x → ¬ AddressBad m r x → descCheck m r x = 0) := by
  have hform := formBad_iff x
  have htarget := targetBad_iff m r x
  have haddress := addressBad_iff m r x
  refine ⟨fun h => ?_, fun hf h => ?_, fun hf hl h => ?_, fun hf hl hc ht h => ?_, fun hf hl hc ht h => ?_⟩
  · exact if_pos (hform.1 h)
  · exact (if_neg (fun g => hf (hform.2 g))).trans (if_pos h)
  · refine (if_neg (fun g => hf (hform.2 g))).trans ((if_neg hl).trans ?_)
    by_cases hc : CoresBad m r x
    · exact if_pos hc
    · exact (if_neg hc).trans (if_pos (htarget.1 (h.resolve_left hc)))
  · exact (if_neg (fun g => hf (hform.2 g))).trans ((if_neg hl).trans ((if_neg hc).trans ((if_neg (fun g => ht (htarget.2 g))).trans
      (if_pos (haddress.1 h)))))
  · exact (if_neg (fun g => hf (hform.2 g))).trans ((if_neg hl).trans ((if_neg hc).trans ((if_neg (fun g => ht (htarget.2 g))).trans
      (if_neg (fun g => h (haddress.2 g))))))

end

/-! ### A descriptor taken (R303) -/

/-- The cores of a descriptor's range that the part declares. -/
def descCores (g : Region) (d : Bundle) : List Nat :=
  (List.range (dfld d 6 2)).filterMap (fun k => if dfld d 4 2 + k < g.decl.cores then some (dfld d 4 2 + k) else none)

/-- A descriptor's job: the kind of its tokens, the rows each core has left, the cores' statuses. -/
def descJobOf (g : Region) (x : DescIn) (kind : Nat) (left status : Tab Nat) : DescJob :=
  let d := x.desc
  { id := g.eng.nextId, addr := x.addr, store := dfld d 0 1 = 2, tmode := bit d 8
    row0 := if bit d 8 then dfld d 0x20 4 % 2 ^ 11 else dfld d 0x20 4 % 2 ^ 14
    handle := descKey g.decl x, key := descKey g.decl x, exec := x.exec, kind := kind
    left := left, status := status, pending := descCores g d }

/-- The job of a descriptor whose checks end with a status. -/
def descJob (g : Region) (x : DescIn) (st : Nat) : DescJob :=
  descJobOf g x (if dfld x.desc 0 1 = 1 ∨ dfld x.desc 0 1 = 2 then dfld x.desc 0 1 else 0)
    (if st = 0 then (descCores g x.desc).map (fun c => (c, dfld x.desc 2 2)) else [])
    (if st = 0 then [] else (descCores g x.desc).map (fun c => (c, st)))

/-- An engine that has taken its oldest descriptor, checked with a status. -/
def descTaken (g : Region) (x : DescIn) (q : List DescIn) (st : Nat) (e : Engine) : Engine :=
  { e with
    queue := q, jobs := e.jobs ++ (if (descCores g x.desc).isEmpty then [] else [descJob g x st]), nextId := e.nextId + 1
    cnt := { e.cnt with descriptors := bump48 e.cnt.descriptors 1 } }

/-- A rejection counted, and recorded when it is the first. -/
def descRejected (x : DescIn) (st : Nat) (e : Engine) : Engine :=
  onEngRec (fun c => { c with descErrors := bump32 c.descErrors 1
                              firstDescError := firstOf c.firstDescError (BitVec.ofNat 32 (2 ^ 31 + (st <<< 27) + x.addr)) }) e

section
variable {m : Mod} {r : Nat} {x : DescIn} {q : List DescIn} (hq : (m.region r).eng.queue = x :: q) (hs : m.aon.state ≠ .safeHold)
include hq hs

theorem descriptorTake_accepts (h : descCheck m r x = 0) : descriptorTake r m = m.onRegion r (fun g =>
    { g with eng := (descXfers x (m.region r).eng.nextId).foldl addXfer (descTaken (m.region r) x q (descCheck m r x) g.eng) }) := by
  unfold descriptorTake
  extract_lets g
  rw [show g.eng.queue = x :: q from hq]
  exact (if_neg hs).trans ((if_pos h).trans (onRegion_onRegion ..))

theorem descriptorTake_rejects {st : Nat} (h : descCheck m r x = st) (h0 : st ≠ 0) : descriptorTake r m = m.onRegion r (fun g =>
    countEv { g with eng := descRejected x st (descTaken (m.region r) x q st g.eng) } { code := 6, d0 := x.addr, d := st }) := by
  subst h
  unfold descriptorTake
  extract_lets g
  rw [show g.eng.queue = x :: q from hq]
  exact (if_neg hs).trans ((if_neg h0).trans (onRegion_onRegion ..))

end

/-! ### The transfers of a descriptor (R304, R305) -/

/-- A transfer without the identifier that it gets when it joins the engine's. -/
def unnumbered (y : Xfer) : Xfer := { y with id := 0 }

/-- Two transfers that never merge: of different cores, or too long together. -/
def Apart (a b : Xfer) : Prop :=
  ∀ p q, a.pieces.getLast? = some p → b.pieces.head? = some q → p.core = q.core → 128 < a.len + b.len

theorem mergeable_apart {e : Engine} {a b : Xfer} (h : Apart a b) : mergeable e a b = false := by
  unfold mergeable
  split
  · next p q hp hq =>
    split
    · by_cases hc : p.core = q.core
      · have : ¬ a.len + b.len ≤ 128 := not_le.2 (h p q hp hq hc)
        simp [this]
      · simp [hc]
    · rfl
  · rfl

/-- What adding a transfer leaves of the engine. -/
theorem addXfer_leaves (e : Engine) (x : Xfer) :
    ∃ l n k, addXfer e x = { e with xfers := l, nextId := n, cnt := { e.cnt with merges := k } } := by
  unfold addXfer
  split
  · split
    · exact ⟨_, e.nextId, _, rfl⟩
    · exact ⟨_, _, e.cnt.merges, rfl⟩
  · exact ⟨_, _, e.cnt.merges, rfl⟩

theorem addXfers_leave (l : List Xfer) (e : Engine) :
    ∃ l' n k, l.foldl addXfer e = { e with xfers := l', nextId := n, cnt := { e.cnt with merges := k } } :=
  foldl_keeps (R := fun a b : Engine => ∃ l' n k, b = { a with xfers := l', nextId := n, cnt := { a.cnt with merges := k } })
    (fun a => ⟨a.xfers, a.nextId, a.cnt.merges, rfl⟩)
    (by rintro a _ _ ⟨_, _, _, rfl⟩ ⟨l, n, k, rfl⟩; exact ⟨l, n, k, rfl⟩) addXfer_leaves l e

/-- A transfer that never merges with the last one goes behind it. -/
theorem addXfer_apart {e : Engine} {x : Xfer} (h : ∀ a, e.xfers.getLast? = some a → Apart a x) :
    (addXfer e x).xfers = e.xfers ++ [{ x with id := e.nextId }] := by
  unfold addXfer
  split
  · next a ha => rw [if_neg (by rw [mergeable_apart (h a ha)]; exact Bool.false_ne_true)]
  · rfl

/-- Transfers that never merge join the engine's in order. -/
theorem addXfers_apart {l : List Xfer} (hl : l.Pairwise Apart) (e : Engine) (h : ∀ a, e.xfers.getLast? = some a → ∀ x ∈ l, Apart a x) :
    (l.foldl addXfer e).xfers.map unnumbered = e.xfers.map unnumbered ++ l.map unnumbered := by
  induction l generalizing e with
  | nil => exact (List.append_nil _).symm
  | cons x l ih =>
    obtain ⟨hx, hl⟩ := List.pairwise_cons.1 hl
    have hadd := addXfer_apart (e := e) (x := x) fun a ha => h a ha x List.mem_cons_self
    rw [List.foldl_cons, ih hl (addXfer e x), hadd, List.map_append, List.append_assoc]
    · rfl
    · intro a ha y hy
      rw [hadd, List.getLast?_append, List.getLast?_singleton, Option.some_or, Option.some.injEq] at ha
      exact ha ▸ hx y hy

/-! ### Where the transfers of a descriptor lie (R300, R304) -/

/-- The transfer of rows 128 j to 128 j + 127 for n cores from one on. -/
def descXfer (x : DescIn) (id k core n j : Nat) : Xfer :=
  { id := 0, store := dfld x.desc 0 1 = 2, sa := (descAddress x k + 65536 * j) % 2 ^ 48, cstride := dfld x.desc 0x10 4
    left := min 128 (dfld x.desc 2 2 - 128 * j) * n
    pieces := [{ desc := id, core := core, count := n, row := 128 * j, rows := min 128 (dfld x.desc 2 2 - 128 * j) }] }

/-- The core sets that a descriptor's transfers serve: all cores at once for a multicast LOAD, else one core each. -/
def descGroups (x : DescIn) : List (Nat × Nat × Nat) :=
  if dfld x.desc 0 1 = 1 ∧ dfld x.desc 0x10 4 = 0 then [(0, dfld x.desc 4 2, dfld x.desc 6 2)]
  else (List.range (dfld x.desc 6 2)).map (fun k => (k, dfld x.desc 4 2 + k, 1))

section
variable (x : DescIn) (id : Nat)

theorem descXfers_eq (h : ¬ FormBad x) : descXfers x id = (descGroups x).flatMap (fun p =>
    (List.range ((dfld x.desc 2 2 + 127) / 128)).map (descXfer x id p.1 p.2.1 p.2.2)) := by
  have hmulti : (!decide (dfld x.desc 0 1 = 2) && decide (dfld x.desc 0x10 4 = 0)) = true ↔ dfld x.desc 0 1 = 1 ∧ dfld x.desc 0x10 4 = 0 := by
    obtain ⟨h0, h2⟩ : dfld x.desc 0 1 ≠ 0 ∧ ¬ 2 < dfld x.desc 0 1 := ⟨fun g => h (.inl g), fun g => h (.inr (.inl g))⟩
    rw [Bool.and_eq_true, Bool.not_eq_true', decide_eq_false_iff_not, decide_eq_true_eq]
    omega
  simp only [descXfers, hmulti, descSa_eq]
  rfl

/-- Of two row ranges of one core set the earlier one is full. -/
theorem descXfer_apart_rows {k core n j j' : Nat} (hj : j < j') (hlen : j' < (dfld x.desc 2 2 + 127) / 128) :
    Apart (descXfer x id k core n j) (descXfer x id k core n j') := by
  intro _ _ _ _ _
  simp only [Xfer.len, descXfer, List.foldl_cons, List.foldl_nil]
  omega

theorem descXfer_apart_cores {k k' core core' n n' j j' : Nat} (h : core ≠ core') :
    Apart (descXfer x id k core n j) (descXfer x id k' core' n' j') := by
  intro p q hp hq hc
  cases hp
  cases hq
  exact absurd hc h

theorem descGroups_cores : (descGroups x).Pairwise (fun a b => a.2.1 ≠ b.2.1) := by
  unfold descGroups
  split
  · exact List.pairwise_singleton ..
  · exact List.pairwise_map.2 (List.pairwise_lt_range.imp fun h => by dsimp only; omega)

theorem descXfers_apart (h : ¬ FormBad x) : (descXfers x id).Pairwise Apart := by
  rw [descXfers_eq x id h]
  refine List.pairwise_flatMap.2 ⟨fun p _ => List.pairwise_map.2 ?_, (descGroups_cores x).imp fun hc a ha b hb => ?_⟩
  · exact (List.pairwise_lt_range.imp_of_mem fun _ hb hlt => descXfer_apart_rows x id hlt (List.mem_range.1 hb))
  · obtain ⟨j, -, rfl⟩ := List.mem_map.1 ha
    obtain ⟨j', -, rfl⟩ := List.mem_map.1 hb
    exact descXfer_apart_cores x id hc

theorem descXfers_unnumbered (h : ¬ FormBad x) : (descXfers x id).map unnumbered = descXfers x id := by
  rw [descXfers_eq x id h, List.map_flatMap]
  simp only [List.map_map]
  rfl

theorem descXfers_join (h : ¬ FormBad x) {e : Engine} (he : e.xfers = []) :
    ((descXfers x id).foldl addXfer e).xfers.map unnumbered = descXfers x id := by
  rw [addXfers_apart (descXfers_apart x id h) e (by simp [he]), descXfers_unnumbered x id h, he]
  rfl

end

/-! ### The descriptor's outcome -/

/-- A step that changes one region alone. -/
theorem onRegion_only (s : State) (r : Nat) (f : Region → Region) :
    ({ s with m := s.m.onRegion r f } : State) = { s with m := { s.m with regions := (s.m.onRegion r f).regions } } ∧
      ∀ k, k ≠ r → (s.m.onRegion r f).region k = s.m.region k :=
  ⟨rfl, fun k hk => region_onRegion_other s.m r k f hk⟩

/-- The handle or key of Table 8.3, with the index of R300 written out. -/
theorem descKey_eq (decl : PartDecl) (x : DescIn) : descKey decl x =
    (let n := match Tab.find decl.drawers (dfld x.desc 0x20 4 / 2 ^ 26) with
      | some z => max 1 z.slotCount
      | none => 1
     let index := ((signedOffset (bit x.desc 10) (dfld x.desc 0x24 4) (descV x)).emod (2 ^ 32)).toNat
     if bit x.desc 8 then mkHandle (dfld x.desc 0x20 4 / 2 ^ 26) (index % n) (index / n) else BitVec.ofNat 32 (dfld x.desc 0x24 4)) := by
  unfold descKey
  rw [descK_eq] <;> rfl

/-- A core range with a core in it that the part declares is not empty. -/
theorem descCores_ne_nil {m : Mod} {r : Nat} {x : DescIn} (h : ¬ CoresBad m r x) : descCores (m.region r) x.desc ≠ [] := by
  have hcount : dfld x.desc 6 2 ≠ 0 := fun g => h (.inl g)
  have hfit : ¬ (m.region r).decl.cores < dfld x.desc 4 2 + dfld x.desc 6 2 := fun g => h (.inr g)
  refine List.ne_nil_of_mem (a := dfld x.desc 4 2) (List.mem_filterMap.2 ⟨0, List.mem_range.2 (by omega), ?_⟩)
  exact if_pos (by omega)

/-! ### Tags and chunk requests (R306, R310) -/

theorem exec_transferIssue (s : State) (r : Fin 25) : exec (.transferIssue r) s = .next { s with m := transferIssue r s.m } := rfl

/-- An earlier transfer blocks a later one only when they share a chunk and one of them is a STORE. -/
theorem orderBlocked_false {e : Engine} {x : Xfer}
    (h : ∀ z ∈ e.xfers, z.id < x.id → x.store = true ∨ z.store = true → ∀ k ∈ z.chunks, k ∉ x.chunks) : orderBlocked e x = false := by
  simp only [orderBlocked, List.any_eq_false, Bool.and_eq_true, decide_eq_true_eq, Bool.or_eq_true, List.any_eq_true,
    List.contains_iff_mem, not_and, not_exists, and_imp]
  exact fun z hz hid hst => h z hz hid hst

/-- A transfer of an engine given a tag, and counted. -/
def xferTagged (x : Xfer) (ticks : Nat) (e : Engine) : Engine :=
  let e := e.onXfer x.id (fun y => { y with tagged := true, tick0 := ticks })
  onEngRec (fun c => { c with transfers := bump48 c.transfers 1, tagsMax := max32 c.tagsMax (tagsUsed e) }) e

theorem xferTagged_eq (x : Xfer) (ticks : Nat) (e : Engine) : xferTagged x ticks e =
    (let l := e.xfers.map (fun z => if z.id = x.id then { z with tagged := true, tick0 := ticks } else z)
     { e with xfers := l
              cnt := { e.cnt with transfers := bump48 e.cnt.transfers 1
                                  tagsMax := max32 e.cnt.tagsMax (l.filter (·.tagged)).length } }) := by
  simp only [xferTagged, Engine.onXfer, onEngRec, tagsUsed, beq_iff_eq]

/-- The chunks a transfer asks of stock when it gets its tag: a LOAD's; a STORE's wait for its rows (R309). -/
def askedChunks (x : Xfer) : List Nat := if x.store then [] else x.chunks

theorem transferIssue_issues {m : Mod} {r : Nat} {x : Xfer} (hx : (m.region r).eng.xfers.find? (fun z => !z.tagged) = some x)
    (htags : tagsUsed (m.region r).eng < 512) (hfree : orderBlocked (m.region r).eng x = false) :
    transferIssue r m = (askedChunks x).foldl (fun m k => requestChunk { region := r, xfer := x.id, chunk := k, store := false } m)
      (m.onRegion r (fun g => { g with eng := xferTagged x (m.region r).ticks g.eng })) := by
  unfold transferIssue askedChunks
  extract_lets g
  rw [show g.eng.xfers.find? (fun z => !z.tagged) = some x from hx]
  dsimp only
  rw [if_neg (by rw [show orderBlocked g.eng x = false from hfree, Bool.or_false, decide_eq_true_eq]; exact not_le.2 htags)]
  cases x.store <;> rfl

/-- What requests put at interfaces leave: everything but the interfaces. -/
def AskedOnly (m t : Mod) : Prop := ∃ l, t = { m with stock := { m.stock with ifaces := l } }

theorem AskedOnly.region {m t : Mod} (h : AskedOnly m t) (k : Nat) : t.region k = m.region k := by
  obtain ⟨l, rfl⟩ := h
  rfl

/-- What a tag and its requests change of the module: one region, and the interfaces. -/
theorem AskedOnly.onRegion {m t : Mod} {r : Nat} {f : Region → Region} (h : AskedOnly (m.onRegion r f) t) :
    t = { m with regions := t.regions, stock := { m.stock with ifaces := t.stock.ifaces } } := by
  obtain ⟨l, rfl⟩ := h
  rfl

/-- The requests of a session's chunks that join at an interface, in the chunks' order. -/
def requestsAt (m : Mod) (r id i : Nat) (l : List Nat) : List ChunkReq :=
  (l.filter (fun k => m.chunkAt (m.region r).run.session k == i)).map (fun k => { region := r, xfer := id, chunk := k, store := false })

theorem requestsAt_askedChunks (m : Mod) (r i : Nat) (x : Xfer) : requestsAt m r x.id i (askedChunks x) =
    (x.chunks.filter (fun k => !x.store && m.chunkAt (m.region r).run.session k == i)).map
      (fun k => { region := r, xfer := x.id, chunk := k, store := false }) := by
  unfold requestsAt askedChunks
  cases x.store <;> simp

theorem requestChunks_ask (m : Mod) (r id : Nat) (l : List Nat) :
    let t := l.foldl (fun m k => requestChunk { region := r, xfer := id, chunk := k, store := false } m) m
    AskedOnly m t ∧ ∀ i, t.iface i = { m.iface i with waiting := (m.iface i).waiting ++ requestsAt m r id i l } := by
  induction l generalizing m with
  | nil => exact ⟨⟨m.stock.ifaces, rfl⟩, fun i => by simp [requestsAt]⟩
  | cons k l ih =>
    obtain ⟨honly, hiface⟩ := ih (requestChunk { region := r, xfer := id, chunk := k, store := false } m)
    refine ⟨honly, fun i => (hiface i).trans ?_⟩
    have hrest : requestsAt (requestChunk { region := r, xfer := id, chunk := k, store := false } m) r id i l = requestsAt m r id i l := rfl
    rw [hrest]
    by_cases hi : m.chunkAt (m.region r).run.session k = i
    · subst hi
      simp [requestChunk, requestsAt]
    · rw [requestChunk, iface_onIface_other _ _ _ _ (Ne.symm hi)]
      simp [requestsAt, hi]

/-! ### The memory wheel (R318, R320) -/

theorem onIface_onIface (m : Mod) (i : Nat) (f g : Iface → Iface) : (m.onIface i f).onIface i g = m.onIface i (fun x => g (f x)) := by
  simp only [Mod.onIface, Mod.iface, get_set, ite_true, set_set]

theorem exec_wheelPeriod (s : State) (i : Fin 256) : exec (.wheelPeriod i) s = .next { s with m := wheelPeriod i s.m } := rfl

/-- The wheel read from a place on, cyclically. -/
theorem wheelFrom_getElem? {w : List Nat} {pos n : Nat} (hpos : pos < w.length) (hn : n < w.length) :
    (wheelFrom w pos)[n]? = some (w.getD ((pos + n) % w.length) 0) := by
  unfold wheelFrom
  by_cases h : pos + n < w.length
  · rw [List.getElem?_append_left (by rw [List.length_drop]; omega), List.getElem?_drop, Nat.mod_eq_of_lt h,
      List.getD_eq_getElem?_getD, List.getElem?_eq_getElem h]
    rfl
  · have hmod : (pos + n) % w.length = pos + n - w.length := by
      rw [Nat.mod_eq_sub_mod (by omega), Nat.mod_eq_of_lt (by omega)]
    rw [List.getElem?_append_right (by rw [List.length_drop]; omega), List.length_drop, hmod, List.getD_eq_getElem?_getD,
      List.getElem?_take_of_lt (by omega), show n - (w.length - pos) = pos + n - w.length by omega,
      List.getElem?_eq_getElem (by omega)]
    rfl

/-- The first of the wheel's regions, from a place on, that satisfies a test. -/
theorem find?_wheelFrom {w : List Nat} {pos n : Nat} {p : Nat → Bool} (hpos : pos < w.length) (hn : n < w.length)
    (hfirst : p (w.getD ((pos + n) % w.length) 0) = true) (hbefore : ∀ k < n, p (w.getD ((pos + k) % w.length) 0) = false) :
    (wheelFrom w pos).find? p = some (w.getD ((pos + n) % w.length) 0) := by
  have hlen : (wheelFrom w pos).length = w.length := by
    rw [wheelFrom, List.length_append, List.length_drop, List.length_take]; omega
  have hget : ∀ k (h : k < (wheelFrom w pos).length), (wheelFrom w pos)[k] = w.getD ((pos + k) % w.length) 0 := fun k h =>
    Option.some.inj ((List.getElem?_eq_getElem h).symm.trans (wheelFrom_getElem? hpos (hlen ▸ h)))
  refine List.find?_eq_some_iff_getElem.2 ⟨hfirst, n, hlen.symm ▸ hn, hget n _, fun k hk => ?_⟩
  rw [hget k, hbefore k hk]
  rfl

/-- An interface one period on, at the wheel's next entry. -/
def periodOn (n : Nat) (x : Iface) : Iface :=
  { x with pos := (x.pos + 1) % n, sinceSteal := min 1600 (x.sinceSteal + 1), hostIdle := min 1600 (x.hostIdle + 1) }

/-- A waiting request moved behind the started ones. -/
def startRequest (q : ChunkReq) (x : Iface) : Iface := { x with waiting := x.waiting.erase q, started := x.started ++ [q] }

/-- A period without host traffic given to the first region of the wheel that has a request. -/
theorem wheelPeriod_starts {m : Mod} {i r : Nat} {q : ChunkReq} (hawake : m.stock.selfRefresh = false) (hwheel : m.stock.wheel ≠ [])
    (hhost : hostWaiting m i = none)
    (hr : (wheelFrom m.stock.wheel ((m.iface i).pos % m.stock.wheel.length)).find?
      (fun r => (m.iface i).waiting.any (fun q => q.region == r)) = some r)
    (hq : (m.iface i).waiting.find? (fun z => z.region == r) = some q) :
    wheelPeriod i m = m.onIface i (fun x => startRequest q (periodOn m.stock.wheel.length x)) := by
  unfold wheelPeriod
  extract_lets x w named waits moved host
  have hnone : host = none := hhost
  rw [if_neg (by simp only [hawake, Bool.false_or, List.isEmpty_iff]; exact hwheel), hnone,
    show (wheelFrom w (x.pos % w.length)).find? waits = some r from hr]
  dsimp only
  have hfind : (moved.iface i).waiting.find? (fun z => z.region == r) = some q := by rw [iface_onIface]; exact hq
  unfold startChunk
  extract_lets y
  rw [show y.waiting.find? (fun z => z.region == r) = some q from hfind]
  exact onIface_onIface ..

theorem exec_descriptorTake (s : State) (r : Fin 25) : exec (.descriptorTake r) s = .next { s with m := descriptorTake r s.m } := rfl

/-- Each core of an accepted descriptor has the descriptor's rows left. -/
theorem descJob_accepted {x : DescIn} (g : Region) (h : ¬ FormBad x) :
    descJob g x 0 = descJobOf g x (dfld x.desc 0 1) ((descCores g x.desc).map (fun c => (c, dfld x.desc 2 2))) [] := by
  obtain ⟨h0, h2⟩ : dfld x.desc 0 1 ≠ 0 ∧ ¬ 2 < dfld x.desc 0 1 := ⟨fun g => h (.inl g), fun g => h (.inr (.inl g))⟩
  simp only [descJob, if_pos (show dfld x.desc 0 1 = 1 ∨ dfld x.desc 0 1 = 2 by omega), ite_true]

/-- Each core of a rejected descriptor is owed a token with the status. -/
theorem descJob_rejected {st : Nat} (g : Region) (x : DescIn) (h : st ≠ 0) :
    descJob g x st = descJobOf g x (if dfld x.desc 0 1 = 1 ∨ dfld x.desc 0 1 = 2 then dfld x.desc 0 1 else 0) []
      ((descCores g x.desc).map (fun c => (c, st))) := by
  simp only [descJob, if_neg h]

/-- The engine that has rejected its oldest descriptor. -/
theorem descRejected_eng {st : Nat} (g : Region) (x : DescIn) (q : List DescIn) (h : st ≠ 0) :
    descRejected x st (descTaken g x q st g.eng) = { g.eng with
      queue := q, nextId := g.eng.nextId + 1
      jobs := if descCores g x.desc = [] then g.eng.jobs else g.eng.jobs ++ [descJobOf g x
        (if dfld x.desc 0 1 = 1 ∨ dfld x.desc 0 1 = 2 then dfld x.desc 0 1 else 0) [] ((descCores g x.desc).map (fun c => (c, st)))]
      cnt := { g.eng.cnt with
        descriptors := bump48 g.eng.cnt.descriptors 1, descErrors := g.eng.cnt.descErrors + 1
        firstDescError := if bit g.eng.cnt.firstDescError 31 then g.eng.cnt.firstDescError
          else BitVec.ofNat 32 (2 ^ 31 + st * 2 ^ 27 + x.addr) } } := by
  simp only [descRejected, descTaken, descJob_rejected g x h, onEngRec, bump32, firstOf, Nat.shiftLeft_eq, List.isEmpty_iff]
  split <;> simp

section
variable {s : State} {r : Fin 25} {x : DescIn} {q : List DescIn} (hq : (s.m.region r).eng.queue = x :: q) (hs : s.m.aon.state ≠ .safeHold)
include hq hs

/-- A descriptor rejected moves no data and owes its cores their tokens. -/
theorem descriptor_rejected {st : Nat} (h : descCheck s.m r x = st) (h0 : st ≠ 0) :
    ∃ t : State, exec (.descriptorTake r) s = .next t ∧
      (t = { s with m := { s.m with regions := t.m.regions } } ∧ ∀ k, k ≠ r.val → t.m.region k = s.m.region k) ∧
      (t.m.region r).eng = descRejected x st (descTaken (s.m.region r) x q st (s.m.region r).eng) := by
  rw [exec_descriptorTake, descriptorTake_rejects hq hs h h0]
  exact ⟨_, rfl, onRegion_only s r _, congrArg Region.eng (region_onRegion ..)⟩

/-- A descriptor that passes begins its job and is divided into its transfers. -/
theorem descriptor_accepted (hf : ¬ FormBad x) (h : descCheck s.m r x = 0) :
    ∃ t : State, exec (.descriptorTake r) s = .next t ∧
      (t = { s with m := { s.m with regions := t.m.regions } } ∧ ∀ k, k ≠ r.val → t.m.region k = s.m.region k) ∧
      let e := (s.m.region r).eng
      let e' := (t.m.region r).eng
      e'.queue = q ∧ e'.landing = e.landing ∧ e'.stores = e.stores ∧ e'.cnt.descriptors = bump48 e.cnt.descriptors 1 ∧
      e'.jobs = e.jobs ++ (if (descCores (s.m.region r) x.desc).isEmpty then [] else [descJob (s.m.region r) x 0]) ∧
      (e.xfers = [] → e'.xfers.map unnumbered = descXfers x e.nextId) := by
  rw [exec_descriptorTake, descriptorTake_accepts hq hs h, h]
  refine ⟨_, rfl, onRegion_only s r _, ?_⟩
  dsimp only
  rw [region_onRegion]
  dsimp only
  have hjoin := descXfers_join x (s.m.region r).eng.nextId hf (e := descTaken (s.m.region r) x q 0 (s.m.region r).eng)
  obtain ⟨l, n, k, heq⟩ := addXfers_leave (descXfers x (s.m.region r).eng.nextId) (descTaken (s.m.region r) x q 0 (s.m.region r).eng)
  rw [heq] at hjoin ⊢
  exact ⟨rfl, rfl, rfl, rfl, rfl, hjoin⟩

end

/-- Settles O28: a descriptor's checks are those of Table 8.4 in the table's order, its transfers never merge with one another, and a
tag, a chunk request and a wheel period each change only what R306 and R318 to R320 name. -/
theorem stockTransfersBegin : Obligations.StockTransfersBegin := by
  refine ⟨fun s r x q => ?_, fun s => ⟨?_, ?_⟩⟩
  · intro g e d f dop slots len first count stride target v signed address index drawer slotCount key
      badForm badCores badTarget badPage badAddress multicast transfer cores job only rejected hq hs
    obtain ⟨h6, h1, h2, h3, h0⟩ := descCheck_cases s.m r x
    have hkey : key = descKey g.decl x := (descKey_eq ..).symm
    have hjob : ∀ kind left status, job kind left status = descJobOf g x kind left status := by
      intro kind left status
      show DescJob.mk .. = _
      rw [hkey]
      rfl
    have hreject : ∀ st, descCheck s.m r x = st → st ≠ 0 → rejected st := by
      intro st h hst
      obtain ⟨t, ht, honly, heng⟩ := descriptor_rejected hq hs h hst
      refine ⟨t, ht, honly, heng.trans ((descRejected_eng g x q hst).trans ?_)⟩
      rw [← hjob]
      rfl
    refine ⟨fun h => hreject 6 (h6 h) (by decide), fun hf h => hreject 1 (h1 hf h) (by decide),
      fun hf hl h => hreject 2 (h2 hf hl h) (by decide), fun hf hl hc ht h => hreject 3 (h3 hf hl hc ht ?_) (by decide),
      fun hf hl hc ht h => ?_⟩
    · exact h
    · obtain ⟨t, ht, honly, hqueue, hlanding, hstores, hcount, hjobs, hxfers⟩ := descriptor_accepted hq hs hf (h0 hf hl hc ht h)
      refine ⟨t, ht, honly, hqueue, hlanding, hstores, hcount, ?_, fun he => (hxfers he).trans (descXfers_eq x e.nextId hf)⟩
      rw [hjobs, if_neg (mt List.isEmpty_iff.1 (descCores_ne_nil hc)), descJob_accepted g hf, ← hjob]
      rfl
  · intro r x g y hx htags hfree
    rw [exec_transferIssue, transferIssue_issues hx htags (orderBlocked_false hfree)]
    obtain ⟨honly, hiface⟩ := requestChunks_ask (s.m.onRegion r (fun g => { g with eng := xferTagged x (s.m.region r).ticks g.eng }))
      r x.id (askedChunks x)
    refine ⟨_, rfl, congrArg (fun m => ({ s with m := m } : State)) honly.onRegion,
      fun k hk => (honly.region k).trans (region_onRegion_other _ _ _ _ hk), ?_, fun i => (hiface i).trans ?_⟩
    · refine (congrArg Region.eng ((honly.region r).trans (region_onRegion ..))).trans ?_
      exact xferTagged_eq ..
    · rw [requestsAt_askedChunks, region_onRegion]
      rfl
  · intro i q n x w hawake hwheel hhost hn hq hbefore
    have hlen : 0 < w.length := List.length_pos_iff.2 hwheel
    have hregion := List.find?_some (p := fun z : ChunkReq => z.region == w.getD ((x.pos % w.length + n) % w.length) 0) hq
    have hr := find?_wheelFrom (Nat.mod_lt x.pos hlen) hn (p := fun r => x.waiting.any (fun q => q.region == r))
      (List.any_eq_true.2 ⟨q, List.mem_of_find?_eq_some hq, hregion⟩)
      (fun k hk => List.any_eq_false.2 fun z hz => by simpa using hbefore k hk z hz)
    rw [exec_wheelPeriod, wheelPeriod_starts hawake hwheel hhost hr hq]
    refine ⟨_, rfl, rfl, fun k hk => iface_onIface_other _ _ _ _ hk, ?_⟩
    dsimp only
    rw [iface_onIface]
    exact ⟨rfl, rfl, rfl, rfl⟩

end Sys2Proof.Proofs
end

section
/-!
PROOFS. Stock pages: free physical pages, the pages entries name, and their contents (R293, R295, R296, R326, R518).
-/

namespace Sys2Proof.Proofs

open Sys2Proof Sys2Proof.Machine Sys2Proof.Laws

/-! ### Free physical pages (R297, R298) -/

theorem mem_insertBy {α : Type} {le : α → α → Bool} {a x : α} {l : List α} : x ∈ insertBy le a l ↔ x = a ∨ x ∈ l := by
  induction l with
  | nil => simp [insertBy]
  | cons b t ih =>
    unfold insertBy
    split
    · exact List.mem_cons
    · rw [List.mem_cons, ih, List.mem_cons, or_left_comm]

theorem mem_sortBy {α : Type} {le : α → α → Bool} {x : α} {l : List α} : x ∈ sortBy le l ↔ x ∈ l := by
  induction l with
  | nil => rfl
  | cons a t ih => rw [sortBy, mem_insertBy, ih, List.mem_cons]

/-- The numbers of the free runs lie within the bounds. -/
theorem mem_freeRuns {lim k : Nat} {used : List Nat} (h : ∀ u ∈ used, u < lim) {y : Nat × Nat} (hy : y ∈ freeRuns lim k used) :
    ∀ p, y.1 ≤ p → p < y.1 + y.2 → k ≤ p ∧ p < lim := by
  intro p hlo hhi
  induction used generalizing k with
  | nil =>
    obtain rfl := List.mem_singleton.1 hy
    dsimp only at hlo hhi
    omega
  | cons u us ih =>
    obtain ⟨hu, hus⟩ := List.forall_mem_cons.1 h
    obtain rfl | hy := List.mem_cons.1 hy
    · dsimp only at hlo hhi
      omega
    · obtain ⟨hk, hlim⟩ := ih hus hy
      exact ⟨by omega, hlim⟩

theorem mem_takeRuns {n p : Nat} {l : List (Nat × Nat)} (h : p ∈ takeRuns n l) : ∃ y ∈ l, y.1 ≤ p ∧ p < y.1 + y.2 := by
  induction l generalizing n with
  | nil => exact absurd h List.not_mem_nil
  | cons y t ih =>
    obtain h | h := List.mem_append.1 h
    · obtain ⟨hlo, hhi⟩ := List.mem_range'_1.1 h
      exact ⟨y, List.mem_cons_self, hlo, by omega⟩
    · obtain ⟨z, hz, hp⟩ := ih h
      exact ⟨z, List.mem_cons_of_mem _ hz, hp⟩

theorem freeIn_bounds {m : Mod} {lo hi n : Nat} {l : List Nat} (h : m.freeIn lo hi n = some l) :
    l.length = n ∧ ∀ p ∈ l, lo ≤ p ∧ p < hi := by
  unfold Mod.freeIn at h
  dsimp only at h
  split at h
  · next hn =>
    cases h
    refine ⟨hn, fun p hp => ?_⟩
    obtain ⟨y, hy, hlo, hhi⟩ := mem_takeRuns hp
    refine mem_freeRuns (fun u hu => ?_) hy p hlo hhi
    obtain ⟨-, hu⟩ := List.mem_filter.1 (mem_sortBy.1 hu)
    exact of_decide_eq_true (Bool.and_eq_true_iff.1 hu).2
  · cases h

/-- A physical page of stock: wide, or narrow page n of a device. -/
def PhysPage (p : Nat) : Prop := p < 2 ^ 20 + 256 * 32

theorem freeWide_phys {m : Mod} {n : Nat} {l : List Nat} (h : m.freeWide n = some l) : l.length = n ∧ ∀ p ∈ l, p < 2 ^ 20 := by
  obtain ⟨hn, hl⟩ := freeIn_bounds h
  refine ⟨hn, fun p hp => (hl p hp).2.trans_le ?_⟩
  split <;> decide

theorem freeNarrow_phys {m : Mod} {dev : Option Nat} {n : Nat} {l : List Nat} (h : m.freeNarrow dev n = some l) :
    l.length = n ∧ ∀ p ∈ l, PhysPage p := by
  have htry : ∀ d < 32, (if bit m.desc.stockTrained d then m.freeIn (2 ^ 20 + 256 * d) (2 ^ 20 + 256 * d + 256) n else none) = some l →
      l.length = n ∧ ∀ p ∈ l, PhysPage p := by
    intro d hd h
    split at h
    · obtain ⟨hn, hl⟩ := freeIn_bounds h
      exact ⟨hn, fun p hp => (hl p hp).2.trans_le (by omega)⟩
    · cases h
  unfold Mod.freeNarrow at h
  dsimp only at h
  split at h
  · cases h
  · split at h
    · split at h
      · next hd => exact htry _ hd h
      · cases h
    · obtain ⟨d, hd, h⟩ := List.exists_of_findSome?_eq_some h
      exact htry d (List.mem_range.1 hd) h

theorem pageFor_phys {m : Mod} {e : W64} {p : Nat} (h : pageFor m e = some p) : PhysPage p := by
  obtain ⟨l, hl, hp⟩ := Option.bind_eq_some_iff.1 h
  have hmem := List.mem_of_mem_head? hp
  split at hl
  · exact (freeNarrow_phys hl).2 p hmem
  · exact ((freeWide_phys hl).2 p hmem).trans (by decide)

/-! ### The page an entry names (R295, R296) -/

/-- The other fields of an entry that names another page are kept. -/
theorem bit_pteWithPage (e : W64) (p : Nat) {i : Nat} (hi : 56 < i) (hi' : i < 64) : bit (pteWithPage e p) i = bit e i := by
  unfold pteWithPage
  split
  · rw [bit_put_other _ _ _ _ _ (by omega) (by omega) (by omega), bit_put_other _ _ _ _ _ (by omega) (by omega) (by omega),
      bit_put_other _ _ _ _ _ (by omega) (by omega) (by omega)]
  · rw [bit_put_other _ _ _ _ _ (by omega) (by omega) (by omega), bit_put_other _ _ _ _ _ (by omega) (by omega) (by omega),
      bit_put_other _ _ _ _ _ (by omega) (by omega) (by omega)]

theorem ptePage_pteWithPage (e : W64) {p : Nat} (hp : PhysPage p) : ptePage (pteWithPage e p) = p := by
  unfold PhysPage at hp
  unfold pteWithPage ptePage pteNarrow
  split
  · next hwide =>
    rw [bit_put_same _ _ _ (by omega), if_neg (by decide), sel_put_other _ _ _ _ _ _ (by omega) (by omega) (by omega) (by omega),
      sel_put_other _ _ _ _ _ _ (by omega) (by omega) (by omega) (by omega), sel_put_same _ _ _ _ (by omega) (by omega),
      sel_put_other _ _ _ _ _ _ (by omega) (by omega) (by omega) (by omega), sel_put_same _ _ _ _ (by omega) (by omega)]
    omega
  · next hnarrow =>
    rw [bit_put_same _ _ _ (by omega), if_pos (by decide), sel_put_other _ _ _ _ _ _ (by omega) (by omega) (by omega) (by omega),
      sel_put_other _ _ _ _ _ _ (by omega) (by omega) (by omega) (by omega), sel_put_same _ _ _ _ (by omega) (by omega),
      sel_put_other _ _ _ _ 39 32 (by omega) (by omega) (by omega) (by omega)]
    have hlow : sel (put (put e 55 51 ((p - 2 ^ 20) / 256)) 50 32 ((p - 2 ^ 20) % 256)) 39 32 = (p - 2 ^ 20) % 256 := by
      have hfield := sel_put_same (put e 55 51 ((p - 2 ^ 20) / 256)) 50 32 ((p - 2 ^ 20) % 256) (by omega) (by omega)
      unfold sel at hfield ⊢
      omega
    rw [hlow]
    omega

/-- Marks above the page fields leave the page that an entry names. -/
theorem ptePage_put_mark (e : W64) {k v : Nat} (hk : 57 ≤ k) (hk' : k < 64) : ptePage (put e k k v) = ptePage e := by
  unfold ptePage pteNarrow
  rw [bit_put_other _ _ _ _ _ le_rfl hk' (by omega), sel_put_other _ _ _ _ _ _ le_rfl hk' (by omega) (by omega),
    sel_put_other _ _ _ _ _ _ le_rfl hk' (by omega) (by omega), sel_put_other _ _ _ _ _ _ le_rfl hk' (by omega) (by omega),
    sel_put_other _ _ _ _ _ _ le_rfl hk' (by omega) (by omega)]

/-! ### Chunks written one after another -/

/-- A write of stock's contents changes them alone. -/
def MemOnly (m t : Mod) : Prop := ∃ v, t = { m with stock := { m.stock with mem := v } }

theorem memOnly_foldl {α : Type} {f : Mod → α → Mod} (h : ∀ m a, MemOnly m (f m a)) (l : List α) (m : Mod) : MemOnly m (l.foldl f m) :=
  foldl_keeps (R := MemOnly) (fun m => ⟨m.stock.mem, rfl⟩) (by rintro a _ _ ⟨_, rfl⟩ ⟨v, rfl⟩; exact ⟨v, rfl⟩) h l m

/-- Chunks written under different numbers are all read back. -/
theorem mem_setChunks {key : Nat → Nat} (hkey : ∀ {i j}, key i = key j → i = j) (val : Nat → Vec) (m : Mod) {n j : Nat} (hj : j < n) :
    ((List.range n).foldl (fun m j => m.setChunk (key j) (val j)) m).stock.mem.get (key j) = val j := by
  induction n with
  | zero => exact absurd hj (Nat.not_lt_zero j)
  | succ n ih =>
    rw [List.range_succ, List.foldl_concat, mem_setChunk]
    split
    · next h => rw [hkey h]
    · next h =>
      have hne : j ≠ n := fun g => h (congrArg key g)
      exact ih (by omega)

/-! ### A page made resident (R326) -/

theorem pageIn_memOnly (p a : Nat) (m : Mod) : MemOnly m (pageIn p a m) := memOnly_foldl (fun _ _ => ⟨_, rfl⟩) _ m

/-- A page's chunk j as the host's memory holds it. -/
def backedChunk (h : HostSide) (a j : Nat) : Vec := chunkOf (h.mem.bytes (a + 1024 * j) 1024)

theorem backedChunks_foldl (p a : Nat) (h : HostSide) (l : List Nat) (t : Mod) (ht : t.host = h) :
    l.foldl (fun t j => t.setChunk (pageChunk p j) (backedChunk t.host a j)) t =
      l.foldl (fun t j => t.setChunk (pageChunk p j) (backedChunk h a j)) t := by
  induction l generalizing t with
  | nil => rw [List.foldl_nil, List.foldl_nil]
  | cons j l ih =>
    rw [List.foldl_cons, List.foldl_cons, ht]
    exact ih _ ht

/-- A page is read from the host's memory as it was. -/
theorem pageIn_eq (p a : Nat) (m : Mod) : pageIn p a m =
    (List.range 2048).foldl (fun t j => t.setChunk (pageChunk p j) (backedChunk m.host a j)) m :=
  backedChunks_foldl p a m.host (List.range 2048) m rfl

theorem mem_pageIn (p a : Nat) (m : Mod) {j : Nat} (hj : j < 2048) :
    (pageIn p a m).stock.mem.get (pageChunk p j) = backedChunk m.host a j := by
  rw [pageIn_eq]
  exact mem_setChunks (key := pageChunk p) pageChunk_inj (backedChunk m.host a) m hj

/-- The entry of a page made resident in a physical page: resident, and clean. -/
def residentIn (e : W64) (p : Nat) : W64 := put (put (pteWithPage e p) 62 62 1) 58 58 0

section
variable (e : W64) (p : Nat)

theorem pteResident_residentIn : pteResident (residentIn e p) = true := by
  rw [pteResident, residentIn, bit_put_other _ _ _ _ _ (by omega) (by omega) (by omega), bit_put_same _ _ _ (by omega)]
  rfl

theorem pteValid_residentIn : pteValid (residentIn e p) = pteValid e := by
  rw [pteValid, residentIn, bit_put_other _ _ _ _ _ (by omega) (by omega) (by omega),
    bit_put_other _ _ _ _ _ (by omega) (by omega) (by omega), bit_pteWithPage _ _ (by omega) (by omega), pteValid]

theorem pteDirty_residentIn : pteDirty (residentIn e p) = false := by
  rw [pteDirty, residentIn, bit_put_same _ _ _ (by omega)]
  rfl

theorem ptePage_residentIn {p : Nat} (hp : PhysPage p) : ptePage (residentIn e p) = p := by
  rw [residentIn, ptePage_put_mark _ (by omega) (by omega), ptePage_put_mark _ (by omega) (by omega), ptePage_pteWithPage _ hp]

end

/-- A page made resident with a free physical page at hand, without an eviction. -/
theorem makeResident_placed {m : Mod} {sess page p a : Nat} (hvalid : pteValid (m.pte sess page) = true)
    (hres : pteResident (m.pte sess page) = false) (hpageable : ptePageable (m.pte sess page) = true)
    (hp : pageFor m (m.pte sess page) = some p) (ha : m.backing sess (m.pte sess page) = some a) :
    makeResident sess page m = { (pageIn p a m).setPte sess page (residentIn (m.pte sess page) p) with
      events := { m.events with pagesServiced := m.events.pagesServiced + 1 } } := by
  obtain ⟨v, hv⟩ := pageIn_memOnly p a m
  simp only [makeResident, hvalid, hres, hpageable, hp, ha, Option.isSome_some, if_true, Bool.not_true, Bool.or_false,
    Bool.false_eq_true, if_false]
  rw [hv]
  rfl

/-- What making a page resident reads back: its entry, its contents, the regions and the interfaces as they were. -/
theorem makeResident_reads {m : Mod} {sess page p a : Nat} (hvalid : pteValid (m.pte sess page) = true)
    (hres : pteResident (m.pte sess page) = false) (hpageable : ptePageable (m.pte sess page) = true)
    (hp : pageFor m (m.pte sess page) = some p) (ha : m.backing sess (m.pte sess page) = some a) :
    (makeResident sess page m).pte sess page = residentIn (m.pte sess page) p ∧
      (∀ j < 2048, (makeResident sess page m).stock.mem.get (pageChunk p j) = backedChunk m.host a j) ∧
      (makeResident sess page m).regions = m.regions ∧ (makeResident sess page m).stock.ifaces = m.stock.ifaces := by
  have hcontents : ∀ j < 2048, (pageIn p a m).stock.mem.get (pageChunk p j) = backedChunk m.host a j := fun j hj => mem_pageIn p a m hj
  obtain ⟨v, hv⟩ := pageIn_memOnly p a m
  rw [makeResident_placed hvalid hres hpageable hp ha]
  generalize pageIn p a m = t at hcontents hv ⊢
  subst hv
  exact ⟨(pte_setPte ..).trans (if_pos rfl), hcontents, rfl, rfl⟩

end Sys2Proof.Proofs
end

section
/-!
PROOFS. Chunk accesses and page services: LOADs, STOREs and held requests, and pages made resident (R302, R307, R311, R325, R326).
-/

namespace Sys2Proof.Proofs

open Sys2Proof Sys2Proof.Machine Sys2Proof.Laws

/-! ### What a chunk access changes of the engine and of the module -/

theorem exec_chunkAccess (s : State) (i : Fin 256) (retries : Fin 3) (fail : Bool) :
    exec (.chunkAccess i retries fail) s = .next { s with m := chunkAccess i retries fail s.m } := rfl

/-- The retries and the failure of a chunk access in the engine's record. -/
def retriesCounted (retries : Nat) (fail : Bool) (c : EngRec) : EngRec :=
  { c with edcRetries := bump32 c.edcRetries retries, uncorrectable := if fail then bump32 c.uncorrectable 1 else c.uncorrectable }

/-- The retries and the failure of a chunk access counted in its region. -/
def accessCounted (retries : Nat) (fail : Bool) (g : Region) : Region :=
  let g := { g with eng := onEngRec (retriesCounted retries fail) g.eng }
  if fail then countEv g { code := 0x13 } else g

section
variable (retries : Nat) (fail : Bool) (g : Region)

@[simp] theorem run_accessCounted : (accessCounted retries fail g).run = g.run := by cases fail <;> rfl

@[simp] theorem landing_accessCounted : (accessCounted retries fail g).eng.landing = g.eng.landing := by cases fail <;> rfl

@[simp] theorem stores_accessCounted : (accessCounted retries fail g).eng.stores = g.eng.stores := by cases fail <;> rfl

end

/-- The module when an interface's oldest request is carried out: the request taken, the access counted. -/
def accessBegun (i retries : Nat) (fail : Bool) (q : ChunkReq) (rest : List ChunkReq) (m : Mod) : Mod :=
  (m.onIface i (fun x => { x with started := rest })).onRegion q.region (accessCounted retries fail)

section
variable (i retries : Nat) (fail : Bool) (q : ChunkReq) (rest : List ChunkReq) (m : Mod)

@[simp] theorem landing_accessBegun :
    ((accessBegun i retries fail q rest m).region q.region).eng.landing = (m.region q.region).eng.landing := by
  rw [accessBegun, region_onRegion, landing_accessCounted, region_onIface_same]

@[simp] theorem storeRows_accessBegun : (accessBegun i retries fail q rest m).storeRows q = m.storeRows q := by
  rw [Mod.storeRows, accessBegun, region_onRegion, stores_accessCounted, region_onIface_same]
  rfl

@[simp] theorem reqPte_accessBegun : (accessBegun i retries fail q rest m).reqPte q = m.reqPte q := by
  rw [Mod.reqPte, accessBegun, region_onRegion, run_accessCounted]
  rfl

@[simp] theorem mem_accessBegun : (accessBegun i retries fail q rest m).stock.mem = m.stock.mem := rfl

@[simp] theorem started_accessBegun : ((accessBegun i retries fail q rest m).iface i).started = rest :=
  congrArg Iface.started (iface_onIface m i (fun x => { x with started := rest }))

end

section
variable {m : Mod} {i : Nat} {q : ChunkReq} {rest : List ChunkReq} {x : Xfer} (retries : Nat) (fail : Bool)
variable (hstarted : (m.iface i).started = q :: rest) (hawake : m.stock.selfRefresh = false)
variable (hx : (m.region q.region).eng.xfer q.xfer = some x)
include hstarted hawake hx

/-- A request on a page that is not resident is held (R325). -/
theorem chunkAccess_holds (h : pteResident (m.reqPte q) = false) : chunkAccess i retries fail m =
    onEng q.region (fun e => onEngRec (fun c => { c with pageWaits := if x.held then c.pageWaits else bump32 c.pageWaits 1 })
      (e.onXfer x.id (fun y => { y with held := true })))
      (m.onIface i (fun x => { x with started := rest, held := x.held ++ [q] })) := by
  have hpte : (m.onIface i (fun x => { x with started := rest })).reqPte q = m.reqPte q := rfl
  simp only [chunkAccess, hstarted, hawake, region_onIface_same, hx, hpte, h, Bool.not_false, Bool.false_eq_true, if_false, if_true,
    onIface_onIface]

/-- A request on a resident page is carried out. -/
theorem chunkAccess_carries (h : pteResident (m.reqPte q) = true) : chunkAccess i retries fail m =
    (if q.store then putChunk q x fail else loadChunk q x fail) (accessBegun i retries fail q rest m) := by
  have hpte : (m.onIface i (fun x => { x with started := rest })).reqPte q = m.reqPte q := rfl
  have hcount : (let t := onEng q.region (onEngRec (retriesCounted retries fail)) (m.onIface i (fun x => { x with started := rest }))
      if fail then t.onRegion q.region (fun g => countEv g { code := 0x13 }) else t) = accessBegun i retries fail q rest m := by
    cases fail
    · rfl
    · exact (if_pos rfl).trans (onRegion_onRegion ..)
  rw [← hcount]
  simp only [chunkAccess, hstarted, hawake, region_onIface_same, hx, hpte, h, Bool.not_true, Bool.false_eq_true, if_false]
  cases q.store <;> rfl

end

/-! ### A LOAD's chunk (R307) -/

/-- The chunk's contents as a LOAD delivers them: zeros when it is uncorrectable. -/
def loadedChunk (q : ChunkReq) (fail : Bool) (m : Mod) : Vec := if fail then 0 else m.chunk (saChunk (m.reqPte q) (q.chunk * 1024))

/-- The rows of a chunk on their way to every core their transfer serves. -/
def landingRows (q : ChunkReq) (x : Xfer) (v : Vec) : List LandRow :=
  (rowsIn x q.chunk).flatMap (fun k => match pieceAt x.pieces k.1 with
    | some (p, idx) => (List.range p.count).map (fun c =>
        { desc := p.desc, xfer := x.id, core := p.core + c, idx := idx, val := elem 4096 v k.2 })
    | none => [])

theorem mem_rowsIn {x : Xfer} {k : Nat} {y : Nat × Nat} : y ∈ rowsIn x k ↔
    ∃ n < x.len, (x.sa + 512 * n) % 2 ^ 48 / 1024 = k ∧ y = (n, (x.sa + 512 * n) % 2 ^ 48 % 1024 / 512) := by
  simp only [rowsIn, List.mem_filterMap, List.mem_range, Option.ite_none_right_eq_some, Option.some.injEq, eq_comm (b := y)]

theorem mem_landingRows {q : ChunkReq} {x : Xfer} {v : Vec} {l : LandRow} : l ∈ landingRows q x v ↔
    ∃ n < x.len, ∃ p idx c, (x.sa + 512 * n) % 2 ^ 48 / 1024 = q.chunk ∧ pieceAt x.pieces n = some (p, idx) ∧ c < p.count ∧
      l = { desc := p.desc, xfer := x.id, core := p.core + c, idx := idx
            val := elem 4096 v ((x.sa + 512 * n) % 2 ^ 48 % 1024 / 512) } := by
  simp only [landingRows, List.mem_flatMap, mem_rowsIn]
  constructor
  · rintro ⟨_, ⟨n, hn, hk, rfl⟩, hl⟩
    dsimp only at hl
    split at hl
    · next p idx hp =>
      obtain ⟨c, hc, rfl⟩ := List.mem_map.1 hl
      exact ⟨n, hn, p, idx, c, hk, hp, List.mem_range.1 hc, rfl⟩
    · exact absurd hl List.not_mem_nil
  · rintro ⟨n, hn, p, idx, c, hk, hp, hc, rfl⟩
    refine ⟨_, ⟨n, hn, hk, rfl⟩, ?_⟩
    dsimp only
    rw [hp]
    exact List.mem_map.2 ⟨c, List.mem_range.2 hc, rfl⟩

theorem elem_zero (w n i : Nat) : elem (n := w) n 0 i = 0 := by
  simp [elem]

/-- Marking jobs leaves the rows on their way. -/
theorem landing_marked (l : List LandRow) (f : LandRow → DescJob → DescJob) (e : Engine) :
    (l.foldl (fun e y => e.onJob y.desc (f y)) e).landing = e.landing :=
  foldl_keeps (f := fun e y => e.onJob y.desc (f y)) (R := fun a b : Engine => b.landing = a.landing)
    (fun _ => rfl) (fun _ _ _ h g => g.trans h) (fun _ _ => rfl) l e

/-- An engine whose LOAD has read a chunk. -/
def chunkLoaded (q : ChunkReq) (x : Xfer) (fail : Bool) (v : Vec) (e : Engine) : Engine :=
  let rows := landingRows q x v
  let e := if fail then rows.foldl (fun e l => e.onJob l.desc (fun j => { j with status := Tab.set j.status l.core 5 })) e else e
  { e with landing := e.landing ++ rows
           cnt := { e.cnt with bytesLoaded := bump48 e.cnt.bytesLoaded (512 * (rowsIn x q.chunk).length) } }

theorem landing_chunkLoaded (q : ChunkReq) (x : Xfer) (fail : Bool) (v : Vec) (e : Engine) :
    (chunkLoaded q x fail v e).landing = e.landing ++ landingRows q x v := by
  cases fail
  · rfl
  · exact congrArg (· ++ _) (landing_marked _ (fun l j => { j with status := Tab.set j.status l.core 5 }) e)

theorem loadChunk_eq (q : ChunkReq) (x : Xfer) (fail : Bool) (m : Mod) : loadChunk q x fail m =
    (let t := onEng q.region (chunkLoaded q x fail (loadedChunk q fail m)) m
     t.touchPage (t.region q.region).run.session (q.chunk / 2048) false) := rfl

theorem region_touchPage (m : Mod) (sess page : Nat) (write : Bool) (r : Nat) : (m.touchPage sess page write).region r = m.region r := rfl

theorem loadChunk_outcome (q : ChunkReq) (x : Xfer) (fail : Bool) (m : Mod) :
    (loadChunk q x fail m).stock = m.stock ∧
      ((loadChunk q x fail m).region q.region).eng.landing =
        (m.region q.region).eng.landing ++ landingRows q x (loadedChunk q fail m) := by
  rw [loadChunk_eq]
  exact ⟨rfl, by rw [region_touchPage, eng_onEng, landing_chunkLoaded]⟩

/-! ### A STORE's chunk (R302, R311) -/

theorem sweepXfers_stock (r : Nat) (m : Mod) : (sweepXfers r m).stock = m.stock := by
  unfold sweepXfers
  extract_lets _ _ _ t
  obtain ⟨a, h⟩ := freeDeferred_alloc t
  rw [h]
  rfl

theorem putChunk_stock (q : ChunkReq) (x : Xfer) (fail : Bool) (m : Mod) : (putChunk q x fail m).stock =
    (m.setChunk (saChunk (m.reqPte q) (q.chunk * 1024)) (if fail then Config.undefined 8192 m.freeCtr (saChunk (m.reqPte q) (q.chunk * 1024))
      else (m.storeRows q).foldl (fun v x => setChunkRow v x.sa x.val) (m.chunk (saChunk (m.reqPte q) (q.chunk * 1024))))).stock := by
  refine (sweepXfers_stock ..).trans ?_
  cases fail <;> rfl

/-! ### What waits for a page (R325, R326) -/

theorem exec_pageService (s : State) (session : W16) (page : BitVec 27) :
    exec (.pageService session page) s = .next { s with m := pageService session.toNat page.toNat s.m } := rfl

theorem find_mapVals {α : Type} (t : Tab α) (f : Nat → α → α) (k : Nat) : Tab.find (t.mapVals f) k = (Tab.find t k).map (f k) := by
  induction t with
  | nil => rfl
  | cons y t ih =>
    obtain ⟨j, v⟩ := y
    rw [Tab.mapVals, List.map_cons, Tab.find, Tab.find]
    split
    · next h => rw [← h, Option.map_some]
    · exact ih

/-- The requests of a session's page released at an interface. -/
def releaseHeld (mine : ChunkReq → Bool) (x : Iface) : Iface :=
  { x with held := x.held.filter (fun q => !mine q), waiting := x.waiting ++ x.held.filter mine }

/-- Whether a request waits for a page. -/
def waitsFor (m : Mod) (sess page : Nat) (q : ChunkReq) : Bool := (m.region q.region).run.session == sess && q.chunk / 2048 == page

theorem pageService_releases {m : Mod} {sess page : Nat} (h : pteResident ((makeResident sess page m).pte sess page) = true) :
    (pageService sess page m).alloc = (makeResident sess page m).alloc ∧
      (pageService sess page m).stock.mem = (makeResident sess page m).stock.mem ∧
      ∀ i q, q ∈ ((makeResident sess page m).iface i).held → waitsFor (makeResident sess page m) sess page q = true →
        q ∈ ((pageService sess page m).iface i).waiting ∧ q ∉ ((pageService sess page m).iface i).held := by
  generalize ht : makeResident sess page m = t at h ⊢
  have hservice : pageService sess page m =
      { t with stock := { t.stock with ifaces := t.stock.ifaces.mapVals (fun _ => releaseHeld (waitsFor t sess page)) } } := by
    unfold pageService
    rw [ht]
    exact if_pos h
  rw [hservice]
  refine ⟨rfl, rfl, fun i q hq hmine => ?_⟩
  simp only [Mod.iface, Tab.get, find_mapVals] at hq ⊢
  cases hfind : Tab.find t.stock.ifaces i with
  | none => exact absurd (hfind ▸ hq) List.not_mem_nil
  | some x =>
    rw [hfind] at hq
    exact ⟨List.mem_append_right _ (List.mem_filter.2 ⟨hq, hmine⟩), fun hin => by simp [releaseHeld, hmine] at hin⟩

/-- Settles O29: a started request is held, loads its rows or stores them, and a page service places the page that log 16 chooses
and releases what waits for it. -/
theorem chunksAndPagesMove : Obligations.ChunksAndPagesMove := by
  refine fun s => ⟨?_, ?_⟩
  · intro i retries fail q rest x g k hstarted hawake hx
    refine ⟨{ s with m := chunkAccess i retries fail s.m }, exec_chunkAccess s i retries fail, ?_⟩
    cases hres : pteResident (s.m.reqPte q) with
    | false =>
      dsimp only
      rw [chunkAccess_holds retries fail hstarted hawake hx hres]
      refine ⟨?_, fun _ => ⟨?_, rfl, ?_⟩, fun h => absurd h Bool.false_ne_true, fun h => absurd h Bool.false_ne_true⟩
      · exact congrArg Iface.started (iface_onIface s.m i (fun x => { x with started := rest, held := x.held ++ [q] }))
      · exact congrArg Iface.held (iface_onIface s.m i (fun x => { x with started := rest, held := x.held ++ [q] }))
      · rw [eng_onEng]
        rfl
    | true =>
      dsimp only
      rw [chunkAccess_carries retries fail hstarted hawake hx hres]
      cases hstore : q.store with
      | false =>
        rw [if_neg Bool.false_ne_true]
        obtain ⟨hstock, hland⟩ := loadChunk_outcome q x fail (accessBegun i retries fail q rest s.m)
        refine ⟨?_, fun h => absurd h.symm Bool.false_ne_true, fun _ _ => ⟨(congrArg Stock.mem hstock).trans (mem_accessBegun ..),
          landingRows q x (loadedChunk q fail (accessBegun i retries fail q rest s.m)), ?_, fun l => ?_⟩,
          fun _ h => absurd h Bool.false_ne_true⟩
        · exact (congrArg (fun z : Stock => (Tab.get z.ifaces i {}).started) hstock).trans (started_accessBegun i retries fail q rest s.m)
        · rw [hland, landing_accessBegun]
        · rw [mem_landingRows, loadedChunk, reqPte_accessBegun]
          cases fail
          · rfl
          · simp only [if_true, elem_zero]
      | true =>
        rw [if_pos rfl]
        have hstock := putChunk_stock q x fail (accessBegun i retries fail q rest s.m)
        rw [reqPte_accessBegun, storeRows_accessBegun] at hstock
        have hmem := fun j => (congrArg (fun z : Stock => z.mem.get j) hstock).trans (mem_setChunk ..)
        refine ⟨?_, fun h => absurd h.symm Bool.false_ne_true, fun _ h => absurd h.symm Bool.false_ne_true,
          fun _ _ => ⟨fun j hj => (hmem j).trans (if_neg hj), fun hfail => (hmem k).trans ((if_pos rfl).trans (hfail ▸ rfl))⟩⟩
        exact (congrArg (fun z : Stock => (Tab.get z.ifaces i {}).started) hstock).trans (started_accessBegun i retries fail q rest s.m)
  · intro session page p a e hvalid hres hpageable hp ha
    obtain ⟨hpte, hcontents, hregions, hifaces⟩ := makeResident_reads hvalid hres hpageable hp ha
    obtain ⟨halloc, hmem, hreleased⟩ := pageService_releases (hpte ▸ pteResident_residentIn e p)
    refine ⟨_, exec_pageService s session page, ?_⟩
    dsimp only
    rw [pte_congr halloc, hpte, hmem]
    refine ⟨pteResident_residentIn e p, (pteValid_residentIn e p).trans hvalid, pteDirty_residentIn e p,
      ptePage_residentIn e (pageFor_phys hp), hcontents, fun i q hq hsession hpage => hreleased i q ?_ ?_⟩
    · rw [Mod.iface, hifaces]
      exact hq
    · rw [waitsFor, Mod.region, hregions, Bool.and_eq_true, beq_iff_eq, beq_iff_eq]
      exact ⟨hsession, hpage⟩

end Sys2Proof.Proofs
end

section
/-!
PROOFS. Stock allocations: the entries and contents of the pages that STOCK_ALLOC sets up (R518, log entry 16).
-/

namespace Sys2Proof.Proofs

open Sys2Proof Sys2Proof.Machine Sys2Proof.Laws

/-! ### Entries changed page by page -/

theorem pteKey_eq_iff {x y k p : Nat} (hk : k < 2 ^ 27) (hp : p < 2 ^ 27) : pteKey x k = pteKey y p ↔ x = y ∧ k = p := by
  unfold pteKey
  omega

/-- A step on one page of a session's address space: its entry changes by a rule, and every other entry is kept. -/
def PteStep (sess p : Nat) (g : W64 → W64) (m t : Mod) : Prop :=
  ∀ x k, t.pte x k = if pteKey x k = pteKey sess p then g (m.pte sess p) else m.pte x k

/-- The entries of a range of pages after a step on each, and the entries elsewhere. -/
theorem pte_pages {I : Mod → Prop} {f : Mod → Nat → Mod} {g : Nat → W64 → W64} {sess first n : Nat} (hrange : first + n ≤ 2 ^ 27)
    (hI : ∀ m p, I m → I (f m p)) (hf : ∀ m p, I m → PteStep sess p (g p) m (f m p)) {m : Mod} (hm : I m) :
    (∀ k, first ≤ k → k < first + n → ((pageRange first n).foldl f m).pte sess k = g k (m.pte sess k)) ∧
      ∀ x, ∀ k < 2 ^ 27, ¬ (x = sess ∧ first ≤ k ∧ k < first + n) → ((pageRange first n).foldl f m).pte x k = m.pte x k := by
  unfold pageRange
  induction n generalizing first m with
  | zero => exact ⟨fun k _ _ => by omega, fun _ _ _ _ => rfl⟩
  | succ n ih =>
    rw [List.range'_succ, List.foldl_cons]
    obtain ⟨hin, hout⟩ := ih (first := first + 1) (by omega) (hI m first hm)
    have hstep := hf m first hm
    refine ⟨fun k hlo hhi => ?_, fun x k hk hno => ?_⟩
    · by_cases h : k = first
      · subst h
        rw [hout sess k (by omega) (by omega), hstep, if_pos rfl]
      · rw [hin k (by omega) (by omega), hstep, if_neg (fun g => h ((pteKey_eq_iff (by omega) (by omega)).1 g).2)]
    · rw [hout x k hk (fun h => hno ⟨h.1, by omega, by omega⟩), hstep,
        if_neg (fun g => hno (by obtain ⟨hx, hk⟩ := (pteKey_eq_iff hk (by omega)).1 g; exact ⟨hx, by omega, by omega⟩))]

/-- Only stock and its page tables change. -/
def PagesOnly (m t : Mod) : Prop := ∃ st al, t = { m with stock := st, alloc := al }

theorem PagesOnly.refl (m : Mod) : PagesOnly m m := ⟨m.stock, m.alloc, rfl⟩

theorem PagesOnly.trans (a b c : Mod) (h : PagesOnly a b) (h' : PagesOnly b c) : PagesOnly a c := by
  obtain ⟨_, _, rfl⟩ := h
  obtain ⟨st, al, rfl⟩ := h'
  exact ⟨st, al, rfl⟩

theorem MemOnly.pagesOnly {m t : Mod} (h : MemOnly m t) : PagesOnly m t := by
  obtain ⟨v, rfl⟩ := h
  exact ⟨_, _, rfl⟩

theorem pagesOnly_setPte (m : Mod) (sess page : Nat) (e : W64) : PagesOnly m (m.setPte sess page e) := ⟨_, _, rfl⟩

/-! ### Pages that read zero (R518) -/

theorem chunkInPage_pageChunk {p j : Nat} (hp : PhysPage p) (hj : j < 2048) : chunkInPage p (pageChunk p j) = true := by
  unfold PhysPage at hp
  unfold chunkInPage pageChunk
  split
  · rw [beq_iff_eq]
    omega
  · simp only [Bool.and_eq_true, decide_eq_true_eq, beq_iff_eq]
    omega

theorem memOnly_zeroPage (m : Mod) (p : Nat) : MemOnly m (m.zeroPage p) := by
  unfold Mod.zeroPage
  split
  · exact ⟨_, rfl⟩
  · exact memOnly_foldl (fun _ _ => ⟨_, rfl⟩) _ m

/-- Chunks written with zero read zero, and no chunk that reads zero changes. -/
theorem mem_zeroChunks (key : Nat → Nat) (l : List Nat) (m : Mod) {k : Nat} (h : (∃ j ∈ l, key j = k) ∨ m.stock.mem.get k = 0) :
    (l.foldl (fun m j => m.setChunk (key j) 0) m).stock.mem.get k = 0 := by
  induction l generalizing m with
  | nil => exact h.resolve_left (by simp)
  | cons j l ih =>
    rw [List.foldl_cons]
    refine ih _ ?_
    rw [mem_setChunk]
    by_cases hk : k = key j
    · exact .inr (if_pos hk)
    · rw [if_neg hk]
      refine h.imp_left ?_
      rintro ⟨i, hi, rfl⟩
      exact ⟨i, List.mem_of_ne_of_mem (fun g => hk (congrArg key g)) hi, rfl⟩

theorem find_filter_key {α : Type} (t : Tab α) (f : Nat → Bool) (k : Nat) :
    Tab.find (t.filter (fun x => f x.1)) k = if f k then Tab.find t k else none := by
  induction t with
  | nil => cases f k <;> rfl
  | cons x t ih =>
    obtain ⟨j, v⟩ := x
    by_cases hj : j = k
    · subst hj
      cases hf : f j with
      | true => simp [Tab.find, hf]
      | false => simpa [hf] using ih
    · cases hf : f j with
      | true => simpa [Tab.find, hf, hj] using ih
      | false => simpa [Tab.find, hf, hj] using ih

theorem mem_get_eq {w : Nat} (v : Mem w) (k : Nat) : v.get k = (Tab.find v.cells k).getD (v.dflt k) := by
  unfold Mem.get
  cases Tab.find v.cells k <;> rfl

/-- A zeroed page reads zero, and so does all that did. -/
theorem mem_zeroPage (m : Mod) {p k : Nat} (hp : PhysPage p) (h : (∃ j < 2048, pageChunk p j = k) ∨ m.stock.mem.get k = 0) :
    (m.zeroPage p).stock.mem.get k = 0 := by
  unfold Mod.zeroPage
  split
  · next hbase =>
    have hdflt : m.stock.mem.dflt k = 0 := by rw [Mem.dflt, hbase]
    refine (mem_get_eq _ k).trans ?_
    rw [find_filter_key m.stock.mem.cells (fun c => !chunkInPage p c) k]
    obtain ⟨j, hj, rfl⟩ | hzero := h
    · rw [chunkInPage_pageChunk hp hj]
      exact hdflt
    · split
      · exact (mem_get_eq _ k).symm.trans hzero
      · exact hdflt
  · exact mem_zeroChunks (pageChunk p) (List.range 2048) m (h.imp_left (fun ⟨j, hj, hk⟩ => ⟨j, List.mem_range.2 hj, hk⟩))

/-! ### STOCK_ALLOC's pages (R518) -/

/-- An entry with VALID and, where asked, WRITABLE alone. -/
def allocBase (writable : Bool) : W64 := BitVec.ofNat 64 (2 ^ 63 + 2 ^ 59 * b2n writable)

theorem bit_allocBase (writable : Bool) {i : Nat} (hi : 59 ≤ i) (hi' : i < 64) :
    bit (allocBase writable) i = (decide (i = 63) || (decide (i = 59) && writable)) := by
  cases writable <;> interval_cases i <;> rfl

/-- The entry of an absent page, of a device's when narrow, with the key of its backing. -/
def absentEntry (host : Nat) (writable narrow : Bool) (k p : Nat) : W64 :=
  let e := put (put (allocBase writable) 61 61 1) 30 0 (host + k)
  if narrow then put (put e 56 56 1) 55 51 ((p - 2 ^ 20) / 256) else e

/-- The entry of a resident page. -/
def presentEntry (writable : Bool) (p : Nat) : W64 := pteWithPage (put (allocBase writable) 62 62 1) p

section
variable (sess first host : Nat) (writable narrow : Bool) (k p : Nat) (m : Mod)

theorem setUpPage_absent : setUpPage sess first host true writable narrow k p m =
    m.setPte sess (first + k) (absentEntry host writable narrow k p) := by
  simp only [setUpPage, absentEntry, allocBase, if_true]

theorem setUpPage_present : setUpPage sess first host false writable narrow k p m =
    (m.zeroPage p).setPte sess (first + k) (presentEntry writable p) := by
  simp only [setUpPage, presentEntry, allocBase, if_false, Bool.false_eq_true]

/-- The bits of an absent page's entry above its page fields. -/
theorem bit_absentEntry {i : Nat} (hi : 56 < i) (hi' : i < 64) :
    bit (absentEntry host writable narrow k p) i = bit (put (allocBase writable) 61 61 1) i := by
  unfold absentEntry
  dsimp only
  split
  · rw [bit_put_other _ _ _ _ _ (by omega) (by omega) (by omega), bit_put_other _ _ _ _ _ (by omega) (by omega) (by omega),
      bit_put_other _ _ _ _ _ (by omega) (by omega) (by omega)]
  · rw [bit_put_other _ _ _ _ _ (by omega) (by omega) (by omega)]

theorem sel_absentEntry : sel (absentEntry host writable narrow k p) 30 0 = (host + k) % 2 ^ 31 := by
  unfold absentEntry
  dsimp only
  split
  · rw [sel_put_other _ _ _ _ _ _ (by omega) (by omega) (by omega) (by omega), sel_put_other _ _ _ _ _ _ (by omega) (by omega) (by omega) (by omega),
      sel_put_same _ _ _ _ (by omega) (by omega)]
  · rw [sel_put_same _ _ _ _ (by omega) (by omega)]

/-- A pageable page is not resident; its entry holds the key of its backing. -/
theorem absentEntry_fields (hk : host + k < 2 ^ 31) : let e := absentEntry host writable narrow k p
    pteValid e = true ∧ pteWritable e = writable ∧ pteResident e = false ∧ ptePageable e = true ∧ sel e 30 0 = host + k := by
  refine ⟨?_, ?_, ?_, ?_, (sel_absentEntry ..).trans (Nat.mod_eq_of_lt hk)⟩
  · rw [pteValid, bit_absentEntry _ _ _ _ _ (by omega) (by omega), bit_put_other _ _ _ _ _ (by omega) (by omega) (by omega),
      bit_allocBase _ (by omega) (by omega)]
    simp
  · rw [pteWritable, bit_absentEntry _ _ _ _ _ (by omega) (by omega), bit_put_other _ _ _ _ _ (by omega) (by omega) (by omega),
      bit_allocBase _ (by omega) (by omega)]
    simp
  · rw [pteResident, bit_absentEntry _ _ _ _ _ (by omega) (by omega), bit_put_other _ _ _ _ _ (by omega) (by omega) (by omega),
      bit_allocBase _ (by omega) (by omega)]
    simp
  · rw [ptePageable, bit_absentEntry _ _ _ _ _ (by omega) (by omega), bit_put_same _ _ _ (by omega)]
    simp

theorem presentEntry_fields (hp : PhysPage p) : let e := presentEntry writable p
    pteValid e = true ∧ pteWritable e = writable ∧ pteResident e = true ∧ ptePage e = p := by
  have hbit : ∀ i, 56 < i → i < 64 → bit (presentEntry writable p) i = bit (put (allocBase writable) 62 62 1) i :=
    fun i h h' => bit_pteWithPage _ p h h'
  refine ⟨?_, ?_, ?_, ptePage_pteWithPage _ hp⟩
  · rw [pteValid, hbit _ (by omega) (by omega), bit_put_other _ _ _ _ _ (by omega) (by omega) (by omega), bit_allocBase _ (by omega) (by omega)]
    simp
  · rw [pteWritable, hbit _ (by omega) (by omega), bit_put_other _ _ _ _ _ (by omega) (by omega) (by omega), bit_allocBase _ (by omega) (by omega)]
    simp
  · rw [pteResident, hbit _ (by omega) (by omega), bit_put_same _ _ _ (by omega)]
    simp

end

/-! ### The pages of an allocation set up -/

/-- An absent page set up, by its number. -/
def absentPage (sess host first : Nat) (writable narrow : Bool) (phys : Nat → Nat) (m : Mod) (p : Nat) : Mod :=
  m.setPte sess p (absentEntry host writable narrow (p - first) (phys (p - first)))

/-- A resident page set up, by its number. -/
def presentPage (sess first : Nat) (writable : Bool) (phys : Nat → Nat) (m : Mod) (p : Nat) : Mod :=
  (m.zeroPage (phys (p - first))).setPte sess p (presentEntry writable (phys (p - first)))

theorem pagesOnly_zeroed (m : Mod) (p sess page : Nat) (e : W64) : PagesOnly m ((m.zeroPage p).setPte sess page e) :=
  .trans _ _ _ (memOnly_zeroPage m p).pagesOnly (pagesOnly_setPte ..)

theorem pagesOnly_pages {f : Mod → Nat → Mod} (h : ∀ m p, PagesOnly m (f m p)) (l : List Nat) (m : Mod) : PagesOnly m (l.foldl f m) :=
  foldl_keeps (R := PagesOnly) .refl .trans h l m

theorem pagesOnly_absentPage (sess host first : Nat) (writable narrow : Bool) (phys : Nat → Nat) (m : Mod) (p : Nat) :
    PagesOnly m (absentPage sess host first writable narrow phys m p) := pagesOnly_setPte ..

theorem pagesOnly_presentPage (sess first : Nat) (writable : Bool) (phys : Nat → Nat) (m : Mod) (p : Nat) :
    PagesOnly m (presentPage sess first writable phys m p) := pagesOnly_zeroed ..

/-- STOCK_ALLOC's pages, by their index, are the pages of its range. -/
theorem foldl_pageRange (f : Mod → Nat → Mod) (first n : Nat) (m : Mod) :
    (pageRange first n).foldl f m = (List.range n).foldl (fun m k => f m (first + k)) m := by
  rw [pageRange, List.range'_eq_map_range, List.foldl_map]

section
variable (sess host first n : Nat) (writable narrow : Bool) (phys : Nat → Nat) (m : Mod)

theorem setUpPages_absent : (List.range n).foldl (fun m k => setUpPage sess first host true writable narrow k (phys k) m) m =
    (pageRange first n).foldl (absentPage sess host first writable narrow phys) m := by
  simp only [foldl_pageRange, setUpPage_absent, absentPage, Nat.add_sub_cancel_left]

theorem setUpPages_present : (List.range n).foldl (fun m k => setUpPage sess first host false writable narrow k (phys k) m) m =
    (pageRange first n).foldl (presentPage sess first writable phys) m := by
  simp only [foldl_pageRange, setUpPage_present, presentPage, Nat.add_sub_cancel_left]

end

theorem pteStep_presentPage (sess first : Nat) (writable : Bool) (phys : Nat → Nat) (m : Mod) (p : Nat) :
    PteStep sess p (fun _ => presentEntry writable (phys (p - first))) m (presentPage sess first writable phys m p) := by
  intro x k
  obtain ⟨v, hv⟩ := memOnly_zeroPage m (phys (p - first))
  rw [presentPage, pte_setPte, hv]
  rfl

/-- The chunks of resident pages set up read zero. -/
theorem mem_presentPages {sess first : Nat} {writable : Bool} {phys : Nat → Nat} {l : List Nat} (hphys : ∀ p ∈ l, PhysPage (phys (p - first)))
    {m : Mod} {c : Nat} (h : (∃ p ∈ l, ∃ j < 2048, pageChunk (phys (p - first)) j = c) ∨ m.stock.mem.get c = 0) :
    (l.foldl (presentPage sess first writable phys) m).stock.mem.get c = 0 := by
  induction l generalizing m with
  | nil => exact h.resolve_left (by simp)
  | cons p l ih =>
    obtain ⟨hp, hl⟩ := List.forall_mem_cons.1 hphys
    refine ih hl ?_
    obtain ⟨i, hi, hc⟩ | hzero := h
    · obtain rfl | hi := List.mem_cons.1 hi
      · exact .inr (mem_zeroPage m hp (.inl hc))
      · exact .inl ⟨i, hi, hc⟩
    · exact .inr (mem_zeroPage m hp (.inr hzero))

/-- A byte of stock lies in the chunk of its page that its address gives. -/
theorem stockByte_page (m : Mod) (sess : Nat) {p o : Nat} (ho : o < 2 ^ 21) :
    m.stockByte sess (p * 2 ^ 21 + o) = elem 8 (m.stock.mem.get (pageChunk (ptePage (m.pte sess p)) (o / 1024))) (o % 1024) := by
  unfold Mod.stockByte saChunk Mod.chunk
  rw [show (p * 2 ^ 21 + o) / 2 ^ 21 = p by omega, show (p * 2 ^ 21 + o) % 2 ^ 21 = o by omega,
    show (p * 2 ^ 21 + o) % 1024 = o % 1024 by omega]

/-! ### STOCK_ALLOC answered (R510, R518, R519) -/

/-- The lowest run of free pages lies within the address space. -/
theorem freeRun_fits {m : Mod} {sess n first : Nat} (h : m.freeRun sess n = some first) (hn : 1 ≤ n) : first + n ≤ 2 ^ 27 := by
  obtain ⟨⟨k, l⟩, hrun, rfl⟩ := Option.map_eq_some_iff.1 h
  have hlen : n ≤ l := of_decide_eq_true (List.find?_some hrun :)
  have hbound := mem_freeRuns (fun u hu => ?_) (List.mem_of_find?_eq_some hrun) (k + l - 1) (by dsimp only; omega) (by dsimp only; omega)
  · dsimp only
    omega
  · obtain ⟨y, -, rfl⟩ := List.mem_map.1 hu
    exact Nat.mod_lt _ (by decide)

/-- Leaving STANDBY changes the module's state and its stock's self-refresh, not what stock holds or how it is allocated. -/
theorem leaveStandby_keeps (m : Mod) : (leaveStandby m).alloc = m.alloc ∧ (leaveStandby m).stock.mem = m.stock.mem ∧
    (leaveStandby m).mailboxes = m.mailboxes ∧ (leaveStandby m).jobs = m.jobs := by
  unfold leaveStandby
  split <;> exact ⟨rfl, rfl, rfl, rfl⟩

/-- The module with an allocation's pages set up. -/
def allotted (q : Req) (first : Nat) (ps : List Nat) (m : Mod) : Mod :=
  if allocFlag q 0 then
    (pageRange first (q.fld 0 4)).foldl
      (absentPage (m.sessId q.no) (q.fld 0x10 4) first (allocFlag q 2) (allocFlag q 1) (fun k => ps.getD k 0)) m
  else (pageRange first (q.fld 0 4)).foldl (presentPage (m.sessId q.no) first (allocFlag q 2) (fun k => ps.getD k 0)) (leaveStandby m)

section
variable {q : Req} {m : Mod} {first : Nat} {ps : List Nat}

/-- STOCK_ALLOC refused for the quota. -/
theorem stockAllocRun_fails (h : m.quotaOf (m.sessId q.no) < m.quotaUsed (m.sessId q.no) + q.fld 0 4) :
    stockAllocRun q m = Ans.fail m eStock := by
  unfold stockAllocRun
  extract_lets sess n pageable narrow fixed at_ pages
  clear_value at_ pages
  cases at_ with
  | none => rfl
  | some first =>
    cases pages with
    | none => rfl
    | some ps => exact if_pos (.inl h)

theorem stockAllocRun_allots
    (hfirst : (if allocFlag q 3 then some (q.fld 8 8 / pageSize) else m.freeRun (m.sessId q.no) (q.fld 0 4)) = some first)
    (hpages : (if allocFlag q 0 && !allocFlag q 1 then some [] else allocPages m (allocFlag q 1) (q.byte 6) (q.fld 0 4)) = some ps)
    (hquota : m.quotaUsed (m.sessId q.no) + q.fld 0 4 ≤ m.quotaOf (m.sessId q.no))
    (hrough : m.aon.state = .roughCut → allocFlag q 1 = true ∧ allocFlag q 0 = false)
    (hfixed : allocFlag q 3 = true → ∀ k, first ≤ k → k < first + q.fld 0 4 → pteValid (m.pte (m.sessId q.no) k) = false) :
    stockAllocRun q m = { m := allotted q first ps m, body := le 8 (first * pageSize) } := by
  unfold stockAllocRun
  extract_lets sess n pageable narrow fixed at_ pages m'
  rw [show at_ = some first from hfirst, show pages = some ps from hpages]
  have hallowed : ¬ (m.quotaOf sess < m.quotaUsed sess + n ∨ (m.aon.state = .roughCut ∧ (!narrow ∨ pageable)) ∨
      (fixed ∧ (pageRange first n).any (fun p => pteValid (m.pte sess p)))) := by
    rintro (h | ⟨h, hkind⟩ | ⟨h, hany⟩)
    · exact absurd hquota (not_le.2 h)
    · obtain ⟨h1, h0⟩ := hrough h
      simp [narrow, pageable, h1, h0] at hkind
    · obtain ⟨k, hk, hvalid⟩ := List.any_eq_true.1 hany
      obtain ⟨hlo, hhi⟩ := List.mem_range'_1.1 hk
      exact absurd hvalid (by rw [hfixed h k hlo hhi]; exact Bool.false_ne_true)
  dsimp only
  rw [if_neg hallowed]
  refine congrArg (fun t => ({ m := t, body := le 8 (first * pageSize) } : Ans)) ?_
  unfold allotted
  cases hpage : allocFlag q 0 with
  | true =>
    rw [show m' = m from if_pos hpage, show pageable = true from hpage]
    exact setUpPages_absent sess (q.fld 0x10 4) first n (allocFlag q 2) narrow (fun k => ps.getD k 0) m
  | false =>
    rw [show m' = leaveStandby m from if_neg (by rw [show pageable = false from hpage]; exact Bool.false_ne_true),
      show pageable = false from hpage]
    exact setUpPages_present sess (q.fld 0x10 4) first n (allocFlag q 2) narrow (fun k => ps.getD k 0) (leaveStandby m)

end

/-- What a request's step on a range of pages leaves elsewhere. -/
def Elsewhere (m t : Mod) (sess first n : Nat) : Prop :=
  ∀ x, ∀ k < 2 ^ 27, ¬ (x = sess ∧ first ≤ k ∧ k < first + n) → t.pte x k = m.pte x k

section
variable {q : Req} {m : Mod} {first : Nat} {ps : List Nat} (hrange : first + q.fld 0 4 ≤ 2 ^ 27)
include hrange

/-- A pageable allocation's pages are absent. -/
theorem allotted_absent (h0 : allocFlag q 0 = true) (hhost : q.fld 0x10 4 + q.fld 0 4 ≤ 2 ^ 31) : let t := allotted q first ps m
    Elsewhere m t (m.sessId q.no) first (q.fld 0 4) ∧ ∀ k < q.fld 0 4, let e := t.pte (m.sessId q.no) (first + k)
      pteValid e = true ∧ pteWritable e = allocFlag q 2 ∧ pteResident e = false ∧ ptePageable e = true ∧ sel e 30 0 = q.fld 0x10 4 + k := by
  obtain ⟨hin, hout⟩ := pte_pages (I := fun _ => True) hrange (fun _ _ _ => trivial)
    (f := absentPage (m.sessId q.no) (q.fld 0x10 4) first (allocFlag q 2) (allocFlag q 1) (fun k => ps.getD k 0))
    (g := fun p _ => absentEntry (q.fld 0x10 4) (allocFlag q 2) (allocFlag q 1) (p - first) (ps.getD (p - first) 0))
    (fun _ _ _ _ _ => pte_setPte ..) (m := m) trivial
  rw [allotted, if_pos h0]
  refine ⟨hout, fun k hk => ?_⟩
  dsimp only
  rw [hin (first + k) (by omega) (by omega), Nat.add_sub_cancel_left]
  exact absentEntry_fields _ _ _ _ _ (by omega)

/-- Every other allocation's pages are resident and read zero. -/
theorem allotted_present (h0 : allocFlag q 0 = false) (hphys : ∀ k < q.fld 0 4, PhysPage (ps.getD k 0)) : let t := allotted q first ps m
    Elsewhere m t (m.sessId q.no) first (q.fld 0 4) ∧ ∀ k < q.fld 0 4, let e := t.pte (m.sessId q.no) (first + k)
      pteValid e = true ∧ pteWritable e = allocFlag q 2 ∧ pteResident e = true ∧ ptePage e = ps.getD k 0 ∧
      ∀ o < 2 ^ 21, t.stockByte (m.sessId q.no) ((first + k) * 2 ^ 21 + o) = 0 := by
  obtain ⟨halloc, -⟩ := leaveStandby_keeps m
  obtain ⟨hin, hout⟩ := pte_pages (I := fun _ => True) hrange (fun _ _ _ => trivial)
    (fun _ _ _ => pteStep_presentPage (m.sessId q.no) first (allocFlag q 2) (fun k => ps.getD k 0) _ _) (m := leaveStandby m) trivial
  rw [allotted, if_neg (by rw [h0]; exact Bool.false_ne_true)]
  refine ⟨fun x k hk hno => (hout x k hk hno).trans (pte_congr halloc x k), fun k hk => ?_⟩
  have hentry := hin (first + k) (by omega) (by omega)
  rw [Nat.add_sub_cancel_left] at hentry
  obtain ⟨hvalid, hwritable, hresident, hpage⟩ := presentEntry_fields (allocFlag q 2) (ps.getD k 0) (hphys k hk)
  dsimp only
  rw [hentry]
  refine ⟨hvalid, hwritable, hresident, hpage, fun o ho => ?_⟩
  rw [stockByte_page _ _ ho, hentry, hpage, mem_presentPages, elem_zero]
  · intro p hp
    obtain ⟨hlo, hhi⟩ := List.mem_range'_1.1 hp
    exact hphys (p - first) (by omega)
  · refine .inl ⟨first + k, List.mem_range'_1.2 (by omega), o / 1024, by omega, ?_⟩
    rw [Nat.add_sub_cancel_left]

end

theorem PagesOnly.mailboxes {m t : Mod} (h : PagesOnly m t) : t.mailboxes = m.mailboxes := by
  obtain ⟨_, _, rfl⟩ := h
  rfl

theorem allotted_mailboxes (q : Req) (first : Nat) (ps : List Nat) (m : Mod) : (allotted q first ps m).mailboxes = m.mailboxes := by
  unfold allotted
  split
  · exact (pagesOnly_pages (pagesOnly_absentPage _ _ _ _ _ _) _ _).mailboxes
  · exact (pagesOnly_pages (pagesOnly_presentPage _ _ _ _) _ _).mailboxes.trans (leaveStandby_keeps m).2.2.1

/-- A test that matters only under a flag. -/
theorem not_or_of_imp {a b : Bool} (h : a = true → b = true) : (!a || b) = true := by
  cases a with
  | false => rfl
  | true => exact h rfl

theorem rangeLength_of {sa n : Nat} (h : sa % 2 ^ 21 = 0 ∧ sa / 2 ^ 21 + n ≤ 2 ^ 27) : rangeLength sa n = true :=
  Bool.and_eq_true_iff.2 ⟨beq_iff_eq.2 h.1, decide_eq_true h.2⟩

/-- An answer leaves stock and its page tables. -/
theorem answerPosted_stock (mb status : Nat) (body : List Byte) (m : Mod) :
    (answerPosted mb status body m).alloc = m.alloc ∧ (answerPosted mb status body m).stock = m.stock ∧
      (answerPosted mb status body m).jobs = m.jobs := by
  obtain ⟨_, _, h⟩ := answerPosted_boxes mb status body m
  exact ⟨(congrArg Mod.alloc h :), (congrArg Mod.stock h :), (congrArg Mod.jobs h :)⟩

theorem stockByte_congr {m t : Mod} (halloc : t.alloc = m.alloc) (hstock : t.stock = m.stock) (sess sa : Nat) :
    t.stockByte sess sa = m.stockByte sess sa := by
  rw [Mod.stockByte, Mod.stockByte, pte_congr halloc, Mod.chunk, Mod.chunk, hstock]

theorem asked_congr {m t : Mod} (h : t.mailboxes = m.mailboxes) (k : Nat) : asked (t.mailbox k) = asked (m.mailbox k) := by
  rw [Mod.mailbox, Mod.mailbox, h]

section
variable {s : State} {q : Req} (ha : Allowed s.m (.stockAlloc q) q) (hsize : q.body.length = 20) (hstock : s.m.holds q.no 1 = true)
variable (hlo : 1 ≤ q.fld 0 4) (hhi : q.fld 0 4 ≤ 1048576) (hdev : allocFlag q 1 = true → q.byte 6 < 32 ∨ q.byte 6 = 0xFF)
variable (hfixed : allocFlag q 3 = true → q.fld 8 8 % 2 ^ 21 = 0 ∧ q.fld 8 8 / 2 ^ 21 + q.fld 0 4 ≤ 2 ^ 27)
variable (hhost : allocFlag q 0 = true → q.fld 0x10 4 + q.fld 0 4 ≤ 2 ^ 31)
include hsize hlo hhi hdev hfixed hhost

theorem stockAlloc_lengthOk (m : Mod) : stockAllocCmd.lengthOk m q = true := by
  show (q.size 0x14 && decide (1 ≤ q.fld 0 4) && decide (q.fld 0 4 ≤ 1048576) &&
      (!allocFlag q 1 || decide (q.byte 6 < 32) || q.byte 6 == 0xFF) && (!allocFlag q 3 || rangeLength (q.fld 8 8) (q.fld 0 4)) &&
      (!allocFlag q 0 || decide (q.fld 0x10 4 + q.fld 0 4 ≤ 2 ^ 31))) = true
  have h1 : (!allocFlag q 1 || (decide (q.byte 6 < 32) || q.byte 6 == 0xFF)) = true :=
    not_or_of_imp fun h => by simpa using hdev h
  have h3 : (!allocFlag q 3 || rangeLength (q.fld 8 8) (q.fld 0 4)) = true := not_or_of_imp fun h => rangeLength_of (hfixed h)
  have h0 : (!allocFlag q 0 || decide (q.fld 0x10 4 + q.fld 0 4 ≤ 2 ^ 31)) = true := not_or_of_imp fun h => decide_eq_true (hhost h)
  rw [size_eq hsize rfl, decide_eq_true hlo, decide_eq_true hhi, Bool.or_assoc, h1, h3, h0]
  rfl

include ha hstock

theorem stockAlloc_fails (hquota : s.m.quotaOf (s.m.sessId q.no) < s.m.quotaUsed (s.m.sessId q.no) + q.fld 0 4) :
    Served (.stockAlloc q) s q 0x20 0x10B [] s.m := by
  refine short_served (c := stockAllocCmd) ha rfl rfl rfl rfl rfl (stockAlloc_lengthOk hsize hlo hhi hdev hfixed hhost _) hstock (.inl rfl) ?_ rfl
  exact stockAllocRun_fails (m := postRequest 0x20 q s.m) hquota

/-- STOCK_ALLOC answered with the stock address of its pages. -/
theorem stockAlloc_answers {first : Nat} {ps : List Nat}
    (hfirst : (if allocFlag q 3 then some (q.fld 8 8 / pageSize) else s.m.freeRun (s.m.sessId q.no) (q.fld 0 4)) = some first)
    (hpages : (if allocFlag q 0 && !allocFlag q 1 then some [] else allocPages s.m (allocFlag q 1) (q.byte 6) (q.fld 0 4)) = some ps)
    (hquota : s.m.quotaUsed (s.m.sessId q.no) + q.fld 0 4 ≤ s.m.quotaOf (s.m.sessId q.no))
    (hrough : s.m.aon.state = .roughCut → allocFlag q 1 = true ∧ allocFlag q 0 = false)
    (hfree : allocFlag q 3 = true → ∀ k, first ≤ k → k < first + q.fld 0 4 → pteValid (s.m.pte (s.m.sessId q.no) k) = false) :
    Answers (.stockAlloc q) s { s with m := answerPosted q.no 0 (le 8 (first * pageSize)) (allotted q first ps (postRequest 0x20 q s.m)) }
      q 0x20 0 (le 8 (first * pageSize)) :=
  short_answers (c := stockAllocCmd) ha rfl rfl rfl rfl (stockAlloc_lengthOk hsize hlo hhi hdev hfixed hhost _) hstock (.inl rfl) rfl
    (stockAllocRun_allots (m := postRequest 0x20 q s.m) hfirst hpages hquota hrough hfree)
    (asked_congr (allotted_mailboxes ..) _)

end

/-- The physical pages that an allocation of resident pages takes. -/
theorem allocPages_phys {m : Mod} {narrow : Bool} {dev n : Nat} {ps : List Nat} (h : allocPages m narrow dev n = some ps) {k : Nat}
    (hk : k < n) : PhysPage (ps.getD k 0) := by
  have hps : ps.length = n ∧ ∀ p ∈ ps, PhysPage p := by
    unfold allocPages at h
    split at h
    · exact freeNarrow_phys h
    · obtain ⟨hn, hl⟩ := freeWide_phys h
      exact ⟨hn, fun p hp => (hl p hp).trans (by decide)⟩
  obtain ⟨hn, hl⟩ := hps
  rw [List.getD_eq_getElem?_getD, List.getElem?_eq_getElem (by omega), Option.getD_some]
  exact hl _ (List.getElem_mem _)

/-- STOCK_ALLOC (R297, R298, R510, R518); log 16 says which pages it takes. -/
theorem stockAlloc_effect (s : State) (q : Req) (at_ : Nat) (ps : List Nat) :
    let m := s.m
    let sess := m.sessId q.no
    let n := q.fld 0 4
    let flag (i : Nat) : Bool := q.fld 4 2 / 2 ^ i % 2 == 1
    Allowed m (.stockAlloc q) q → q.body.length = 20 → m.holds q.no 1 = true → 1 ≤ n → n ≤ 1048576 →
    (flag 1 = true → q.byte 6 < 32 ∨ q.byte 6 = 0xFF) →
    (flag 3 = true → q.fld 8 8 % 2 ^ 21 = 0 ∧ q.fld 8 8 / 2 ^ 21 + n ≤ 2 ^ 27) → (flag 0 = true → q.fld 16 4 + n ≤ 2 ^ 31) →
    (m.quotaOf sess < m.quotaUsed sess + n → Served (.stockAlloc q) s q 0x20 0x10B [] m) ∧
    (m.quotaUsed sess + n ≤ m.quotaOf sess → (m.aon.state = .roughCut → flag 1 = true ∧ flag 0 = false) →
      (if flag 3 then at_ = q.fld 8 8 / 2 ^ 21 ∧ ∀ k, at_ ≤ k → k < at_ + n → pteValid (m.pte sess k) = false
        else m.freeRun sess n = some at_) →
      (flag 0 = true ∧ flag 1 = false ∧ ps = [] ∨ ¬ (flag 0 = true ∧ flag 1 = false) ∧
        (if flag 1 then m.freeNarrow (if q.byte 6 = 0xFF then none else some (q.byte 6)) n else m.freeWide n) = some ps) →
      ∃ t, Answers (.stockAlloc q) s t q 0x20 0 (le 8 (at_ * 2 ^ 21)) ∧ Elsewhere m t.m sess at_ n ∧
        ∀ k < n, let e := t.m.pte sess (at_ + k)
        pteValid e = true ∧ pteWritable e = flag 2 ∧
        (flag 0 = true → pteResident e = false ∧ ptePageable e = true ∧ sel e 30 0 = q.fld 16 4 + k) ∧
        (flag 0 = false → pteResident e = true ∧ ptePage e = ps.getD k 0 ∧
          ∀ o < 2 ^ 21, t.m.stockByte sess ((at_ + k) * 2 ^ 21 + o) = 0)) := by
  intro m sess n flag ha hsize hstock hlo hhi hdev hfixed hhost
  refine ⟨stockAlloc_fails ha hsize hstock hlo hhi hdev hfixed hhost, fun hquota hrough hat hps => ?_⟩
  have hfirst : (if allocFlag q 3 then some (q.fld 8 8 / pageSize) else m.freeRun sess n) = some at_ := by
    split at hat
    · next h3 => exact (if_pos h3).trans (congrArg some hat.1.symm)
    · next h3 => exact (if_neg h3).trans hat
  have hrange : at_ + n ≤ 2 ^ 27 := by
    split at hat
    · next h3 => exact hat.1 ▸ (hfixed h3).2
    · exact freeRun_fits hat hlo
  have hfree : allocFlag q 3 = true → ∀ k, at_ ≤ k → k < at_ + n → pteValid (m.pte sess k) = false := fun h3 => by
    rw [if_pos (show flag 3 = true from h3)] at hat
    exact hat.2
  have hpages : (if allocFlag q 0 && !allocFlag q 1 then some [] else allocPages m (allocFlag q 1) (q.byte 6) n) = some ps := by
    obtain ⟨h0, h1, rfl⟩ | ⟨hno, h⟩ := hps
    · exact if_pos (by rw [show allocFlag q 0 = true from h0, show allocFlag q 1 = false from h1]; rfl)
    · refine (if_neg fun g => hno ?_).trans h
      obtain ⟨h0, h1⟩ := Bool.and_eq_true_iff.1 g
      exact ⟨h0, (Bool.not_eq_true' _).mp h1⟩
  refine ⟨_, stockAlloc_answers ha hsize hstock hlo hhi hdev hfixed hhost hfirst hpages hquota hrough hfree, ?_⟩
  obtain ⟨halloc, hstk, -⟩ := answerPosted_stock q.no 0 (le 8 (at_ * pageSize)) (allotted q at_ ps (postRequest 0x20 q s.m))
  dsimp only
  cases h0 : allocFlag q 0 with
  | true =>
    obtain ⟨hout, hin⟩ := allotted_absent (m := postRequest 0x20 q s.m) (ps := ps) hrange h0 (hhost h0)
    refine ⟨fun x k hk hno => (pte_congr halloc x k).trans (hout x k hk hno), fun k hk => ?_⟩
    rw [pte_congr halloc]
    obtain ⟨hvalid, hwritable, hresident, hpageable, hkey⟩ := hin k hk
    exact ⟨hvalid, hwritable, fun _ => ⟨hresident, hpageable, hkey⟩, fun h => absurd (h0.symm.trans h) (by decide)⟩
  | false =>
    have hphys : ∀ k < n, PhysPage (ps.getD k 0) := fun k hk => by
      rw [h0] at hpages
      exact allocPages_phys hpages hk
    obtain ⟨hout, hin⟩ := allotted_present (m := postRequest 0x20 q s.m) (ps := ps) hrange h0 hphys
    refine ⟨fun x k hk hno => (pte_congr halloc x k).trans (hout x k hk hno), fun k hk => ?_⟩
    rw [pte_congr halloc]
    obtain ⟨hvalid, hwritable, hresident, hpage, hzero⟩ := hin k hk
    exact ⟨hvalid, hwritable, fun h => absurd (h0.symm.trans h) (by decide),
      fun _ => ⟨hresident, hpage, fun o ho => (stockByte_congr halloc hstk ..).trans (hzero o ho)⟩⟩

end Sys2Proof.Proofs
end

section
/-!
PROOFS. The stock commands on pages: STOCK_FREE, STOCK_MAP_HOST, STOCK_PIN and WHEEL_SET (R318, R322, R327, R519, Table 14.10).
-/

namespace Sys2Proof.Proofs

open Sys2Proof Sys2Proof.Machine Sys2Proof.Laws

theorem ownPages_iff {m : Mod} {sess first n : Nat} :
    m.ownPages sess first n = true ↔ ∀ k, first ≤ k → k < first + n → pteValid (m.pte sess k) = true := by
  simp only [Mod.ownPages, pageRange, List.all_eq_true, List.mem_range'_1, and_imp]

theorem PagesOnly.jobs {m t : Mod} (h : PagesOnly m t) : t.jobs = m.jobs := by
  obtain ⟨_, _, rfl⟩ := h
  rfl

/-! ### STOCK_FREE (R519) -/

theorem pagesOnly_freePage (sess : Nat) (m : Mod) (p : Nat) : PagesOnly m (m.freePage sess p) := by
  unfold Mod.freePage
  split <;> exact ⟨_, _, rfl⟩

theorem pageHeld_congr {m t : Mod} (h : t.regions = m.regions) (sess page : Nat) : t.pageHeld sess page = m.pageHeld sess page := by
  unfold Mod.pageHeld Mod.region
  rw [h]

/-- A page freed loses its entry, unless a transfer holds it. -/
theorem pteStep_freePage (sess p : Nat) (m : Mod) : PteStep sess p (fun e => if m.pageHeld sess p then e else 0) m (m.freePage sess p) := by
  intro x k
  unfold Mod.freePage
  split
  · split
    · next hkey => exact congrArg (fun k => Tab.get m.alloc.pt k 0) hkey
    · rfl
  · exact pte_setPte ..

/-- A page that a transfer holds is left to be freed, and nothing that was left so is forgotten. -/
theorem mem_defer_freePages {m : Mod} {sess c : Nat} (l : List Nat) {t : Mod} (ht : t.regions = m.regions)
    (h : (∃ p ∈ l, m.pageHeld sess p = true ∧ pteKey sess p = c) ∨ c ∈ t.alloc.defer) :
    c ∈ (l.foldl (fun m p => m.freePage sess p) t).alloc.defer := by
  induction l generalizing t with
  | nil => exact h.resolve_left (by simp)
  | cons p l ih =>
    obtain ⟨st, al, hfree⟩ := pagesOnly_freePage sess t p
    have hstep : (m.pageHeld sess p = true ∧ pteKey sess p = c) ∨ c ∈ t.alloc.defer → c ∈ (t.freePage sess p).alloc.defer := by
      unfold Mod.freePage
      rw [pageHeld_congr ht]
      rintro (⟨hheld, rfl⟩ | hin)
      · rw [if_pos hheld]
        exact List.mem_append_right _ (List.mem_singleton_self _)
      · split
        · exact List.mem_append_left _ hin
        · exact hin
    refine ih ((congrArg Mod.regions hfree).trans ht) ?_
    obtain ⟨i, hi, hc⟩ | hin := h
    · obtain rfl | hi := List.mem_cons.1 hi
      · exact .inr (hstep (.inl hc))
      · exact .inl ⟨i, hi, hc⟩
    · exact .inr (hstep (.inr hin))

/-- The pages of a range freed. -/
def freePages (sess first n : Nat) (m : Mod) : Mod := (pageRange first n).foldl (fun m p => m.freePage sess p) m

theorem freePages_frees {sess first n : Nat} (hrange : first + n ≤ 2 ^ 27) (m : Mod) : let t := freePages sess first n m
    t.mailboxes = m.mailboxes ∧ Elsewhere m t sess first n ∧ ∀ k, first ≤ k → k < first + n →
      (m.pageHeld sess k = false → t.pte sess k = 0) ∧
      (m.pageHeld sess k = true → t.pte sess k = m.pte sess k ∧ sess * 2 ^ 27 + k ∈ t.alloc.defer) := by
  obtain ⟨hin, hout⟩ := pte_pages (I := fun t => t.regions = m.regions) (f := fun m p => m.freePage sess p)
    (g := fun p e => if m.pageHeld sess p then e else 0) (sess := sess) hrange
    (fun t p ht => by obtain ⟨st, al, h⟩ := pagesOnly_freePage sess t p; rw [h]; exact ht)
    (fun t p ht => pageHeld_congr ht sess p ▸ pteStep_freePage sess p t) (m := m) rfl
  refine ⟨(pagesOnly_pages (pagesOnly_freePage sess) _ _).mailboxes, hout, fun k hlo hhi => ⟨fun hfree => ?_, fun hheld => ⟨?_, ?_⟩⟩⟩
  · exact (hin k hlo hhi).trans (if_neg (by rw [hfree]; exact Bool.false_ne_true))
  · exact (hin k hlo hhi).trans (if_pos hheld)
  · refine mem_defer_freePages (m := m) _ rfl (.inl ⟨k, List.mem_range'_1.2 ⟨hlo, hhi⟩, hheld, ?_⟩)
    rw [pteKey, Nat.mod_eq_of_lt (by omega)]

section
variable {s : State} {q : Req} (hsize : q.body.length = 12)
variable (hrange : q.fld 0 8 % 2 ^ 21 = 0 ∧ q.fld 0 8 / 2 ^ 21 + q.fld 8 4 ≤ 2 ^ 27)
include hsize hrange

theorem stockFree_lengthOk (m : Mod) : stockFreeCmd.lengthOk m q = true := by
  show (q.size 0x0C && rangeLength (q.fld 0 8) (q.fld 8 4)) = true
  rw [size_eq hsize rfl, rangeLength_of hrange]
  rfl

variable (ha : Allowed s.m (.stockFree q) q) (hstock : s.m.holds q.no 1 = true)
include ha hstock

theorem stockFree_fails (h : s.m.ownPages (s.m.sessId q.no) (q.fld 0 8 / 2 ^ 21) (q.fld 8 4) = false) :
    Served (.stockFree q) s q 0x21 0x10B [] s.m := by
  refine short_served (c := stockFreeCmd) ha rfl rfl rfl rfl rfl (stockFree_lengthOk hsize hrange _) hstock (.inl rfl) ?_ rfl
  exact if_neg fun g => Bool.false_ne_true (h.symm.trans g)

theorem stockFree_answers (h : s.m.ownPages (s.m.sessId q.no) (q.fld 0 8 / 2 ^ 21) (q.fld 8 4) = true) :
    ∃ t, Answers (.stockFree q) s t q 0x21 0 [] ∧
      t.m.alloc = (freePages (s.m.sessId q.no) (q.fld 0 8 / 2 ^ 21) (q.fld 8 4) (postRequest 0x21 q s.m)).alloc := by
  obtain ⟨hboxes, -⟩ := freePages_frees (sess := s.m.sessId q.no) hrange.2 (postRequest 0x21 q s.m)
  refine ⟨_, short_answers (c := stockFreeCmd) ha rfl rfl rfl rfl (stockFree_lengthOk hsize hrange _) hstock (.inl rfl) rfl
    (if_pos h) (asked_congr hboxes _), ?_⟩
  exact (answerPosted_stock ..).1

end

/-- STOCK_FREE: the entries of its pages go, those that a transfer holds later. -/
theorem stockFree_effect (s : State) (q : Req) :
    let m := s.m
    let sess := m.sessId q.no
    let first := q.fld 0 8 / 2 ^ 21
    let n := q.fld 8 4
    let own : Prop := ∀ k, first ≤ k → k < first + n → pteValid (m.pte sess k) = true
    Allowed m (.stockFree q) q → q.body.length = 12 → m.holds q.no 1 = true → (q.fld 0 8 % 2 ^ 21 = 0 ∧ first + n ≤ 2 ^ 27) →
      (¬ own → Served (.stockFree q) s q 0x21 0x10B [] m) ∧
      (own → ∃ t, Answers (.stockFree q) s t q 0x21 0 [] ∧ Elsewhere m t.m sess first n ∧ ∀ k, first ≤ k → k < first + n →
        (m.pageHeld sess k = false → t.m.pte sess k = 0) ∧
        (m.pageHeld sess k = true → t.m.pte sess k = m.pte sess k ∧ sess * 2 ^ 27 + k ∈ t.m.alloc.defer)) := by
  intro m sess first n own ha hsize hstock hrange
  refine ⟨fun h => stockFree_fails hsize hrange ha hstock (Bool.eq_false_iff.2 fun g => h (ownPages_iff.1 g)), fun h => ?_⟩
  obtain ⟨t, ht, halloc⟩ := stockFree_answers hsize hrange ha hstock (ownPages_iff.2 h)
  obtain ⟨-, hout, hin⟩ := freePages_frees (sess := sess) hrange.2 (postRequest 0x21 q m)
  refine ⟨t, ht, fun x k hk hno => (pte_congr halloc x k).trans (hout x k hk hno), fun k hlo hhi => ?_⟩
  rw [pte_congr halloc, halloc]
  exact hin k hlo hhi

/-! ### STOCK_MAP_HOST (R325, Table 14.10) -/

/-- A host-map entry set, or cleared by an address of 0. -/
def putBacking (t : Tab W64) (key a : Nat) : Tab W64 := if a = 0 then Tab.erase t key else Tab.set t key (BitVec.ofNat 64 a)

theorem get_putBacking (t : Tab W64) (key a x : Nat) :
    Tab.get (putBacking t key a) x 0 = if x = key then BitVec.ofNat 64 a else Tab.get t x 0 := by
  unfold putBacking
  split
  · next h =>
    subst h
    rw [Tab.get, find_erase]
    split <;> rfl
  · exact get_set ..

/-- Entries set one after another under rising keys. -/
theorem get_putBackings (base : Nat) (a : Nat → Nat) (n : Nat) (t : Tab W64) (x : Nat) :
    let t' := (List.range n).foldl (fun t k => putBacking t (base + k) (a k)) t
    (∀ k < n, x = base + k → Tab.get t' x 0 = BitVec.ofNat 64 (a k)) ∧ ((∀ k < n, x ≠ base + k) → Tab.get t' x 0 = Tab.get t x 0) := by
  induction n with
  | zero => exact ⟨fun k hk => absurd hk (Nat.not_lt_zero k), fun _ => rfl⟩
  | succ n ih =>
    obtain ⟨hin, hout⟩ := ih
    rw [List.range_succ, List.foldl_concat]
    dsimp only
    rw [get_putBacking]
    refine ⟨fun k hk hx => ?_, fun hno => ?_⟩
    · split
      · next h => rw [show k = n by omega]
      · next h => exact hin k (by omega) hx
    · rw [if_neg (hno n (Nat.lt_succ_self n))]
      exact hout fun k hk => hno k (by omega)

/-- STOCK_MAP_HOST: each entry of its range is set, or cleared, and no other. -/
theorem stockMapHost_effect (s : State) (q : Req) :
    let m := s.m
    let sess := m.sessId q.no
    let n := q.fld 4 4
    Allowed m (.stockMapHost q) q → q.body.length = 8 + 8 * n → m.holds q.no 1 = true → 1 ≤ n → n ≤ 250 → q.fld 0 4 + n ≤ 2 ^ 31 →
      (∀ k < n, q.fld (8 + 8 * k) 8 % 2 ^ 21 = 0) → ∃ t, Answers (.stockMapHost q) s t q 0x22 0 [] ∧
        (∀ k < n, Tab.get t.m.alloc.hostMap (sess * 2 ^ 31 + q.fld 0 4 + k) 0 = BitVec.ofNat 64 (q.fld (8 + 8 * k) 8)) ∧
        ∀ x, (∀ k < n, x ≠ sess * 2 ^ 31 + q.fld 0 4 + k) → Tab.get t.m.alloc.hostMap x 0 = Tab.get m.alloc.hostMap x 0 := by
  intro m sess n ha hsize hstock hlo hhi hkey haddr
  have hlength : stockMapHostCmd.lengthOk (postRequest 0x22 q m) q = true := by
    show (decide (1 ≤ n) && decide (n ≤ 250) && q.size (8 + 8 * n) && decide (q.fld 0 4 + n ≤ 2 ^ 31) &&
        (List.range n).all (fun k => q.fld (8 + 8 * k) 8 % pageSize == 0)) = true
    rw [decide_eq_true hlo, decide_eq_true hhi, size_eq hsize (by omega), decide_eq_true hkey, Bool.true_and]
    exact List.all_eq_true.2 fun k hk => beq_iff_eq.2 (haddr k (List.mem_range.1 hk))
  have hget := get_putBackings (sess * 2 ^ 31 + q.fld 0 4) (fun k => q.fld (8 + 8 * k) 8) n m.alloc.hostMap
  obtain ⟨halloc, -⟩ := answerPosted_stock q.no 0 [] (mapHostRun q (postRequest 0x22 q m)).m
  refine ⟨{ s with m := answerPosted q.no 0 [] (mapHostRun q (postRequest 0x22 q m)).m },
    short_answers (c := stockMapHostCmd) ha rfl rfl rfl rfl hlength hstock (.inl rfl) rfl rfl rfl, ?_⟩
  dsimp only
  rw [halloc]
  exact ⟨fun k hk => (hget _).1 k hk rfl, fun x hx => (hget x).2 hx⟩

/-! ### STOCK_PIN (R327) -/

/-- PINNED put in a page's entry. -/
def pinPage (sess : Nat) (on : Bool) (m : Mod) (p : Nat) : Mod := m.setPte sess p (put (m.pte sess p) 60 60 (b2n on))

theorem pagesOnly_pinPage (sess : Nat) (on : Bool) (m : Mod) (p : Nat) : PagesOnly m (pinPage sess on m p) := pagesOnly_setPte ..

theorem setPinned_pins {sess first n : Nat} (hrange : first + n ≤ 2 ^ 27) (on : Bool) (m : Mod) : let t := setPinned sess first n on m
    PagesOnly m t ∧ Elsewhere m t sess first n ∧ ∀ k, first ≤ k → k < first + n → t.pte sess k = put (m.pte sess k) 60 60 (b2n on) := by
  obtain ⟨hin, hout⟩ := pte_pages (I := fun _ => True) (f := pinPage sess on) (g := fun _ e => put e 60 60 (b2n on)) (sess := sess) hrange
    (fun _ _ _ => trivial) (fun _ _ _ _ _ => pte_setPte ..) (m := m) trivial
  exact ⟨pagesOnly_pages (pagesOnly_pinPage sess on) (pageRange first n) m, hout, hin⟩

section
variable {s : State} {q : Req} {on : Bool} (hsize : q.body.length = 16) (hpin : q.byte 12 = b2n on)
variable (hrange : q.fld 0 8 % 2 ^ 21 = 0 ∧ q.fld 0 8 / 2 ^ 21 + q.fld 8 4 ≤ 2 ^ 27)
include hsize hpin hrange

theorem pin_lengthOk (m : Mod) : (pinCmd on).lengthOk m q = true := by
  show (q.size 0x0D && decide (q.byte 0x0C ≤ 1) && rangeLength (q.fld 0 8) (q.fld 8 4)) = true
  rw [size_eq hsize rfl, rangeLength_of hrange, hpin]
  cases on <;> rfl

end

/-- STOCK_PIN with PIN 1: the pages are pinned, and a job makes them resident. -/
theorem stockPin_effect (s : State) (q : Req) :
    let m := s.m
    let sess := m.sessId q.no
    let first := q.fld 0 8 / 2 ^ 21
    let n := q.fld 8 4
    let own : Prop := ∀ k, first ≤ k → k < first + n → pteValid (m.pte sess k) = true
    Allowed m (.stockPin q) q → q.body.length = 16 → m.holds q.no 1 = true → q.byte 12 = 1 →
      (q.fld 0 8 % 2 ^ 21 = 0 ∧ first + n ≤ 2 ^ 27) → m.long q.no = false →
      (¬ own → Served (.stockPin q) s q 0x23 0x10B [] m) ∧
      (own → ∃ t, Answers (.stockPin q) s t q 0x23 1 [] ∧ Elsewhere m t.m sess first n ∧
        (∃ y : Job, t.m.jobs = m.jobs ++ [y] ∧ y.kind = .pin first n ∧ y.mb = q.no) ∧
        ∀ k, first ≤ k → k < first + n → t.m.pte sess k = put (m.pte sess k) 60 60 1) := by
  intro m sess first n own ha hsize hstock hpin hrange hlong
  have hlength := pin_lengthOk (on := true) hsize hpin hrange (postRequest 0x23 q m)
  refine ⟨fun h => ?_, fun h => ?_⟩
  · have hfail : m.ownPages sess first n = false := Bool.eq_false_iff.2 fun g => h (ownPages_iff.1 g)
    refine short_served (c := pinCmd true) ha rfl rfl rfl rfl rfl hlength hstock (.inr hlong) ?_ rfl
    exact if_pos (congrArg (! ·) hfail)
  · have hown : m.ownPages sess first n = true := ownPages_iff.2 h
    obtain ⟨hpages, hout, hin⟩ := setPinned_pins (sess := sess) hrange.2 true (postRequest 0x23 q m)
    have hrun : (pinCmd true).run q (postRequest 0x23 q m) =
        { m := leaveStandby (setPinned sess first n true (postRequest 0x23 q m)), job := some (.pin first n) } := by
      refine (if_neg ?_).trans (if_pos rfl)
      exact fun g => Bool.false_ne_true ((congrArg (! ·) hown).symm.trans g)
    obtain ⟨halloc, -, hboxes, hjobs⟩ := leaveStandby_keeps (setPinned sess first n true (postRequest 0x23 q m))
    have hanswers := long_answers (c := pinCmd true) ha rfl rfl rfl rfl hlength hstock (.inr hlong) rfl hrun
      (asked_congr (hboxes.trans hpages.mailboxes) _)
    obtain ⟨hnew, -⟩ := answerPosted_addJob (pinCmd true) q (.pin first n) (leaveStandby (setPinned sess first n true (postRequest 0x23 q m)))
    have hpte : ∀ x k, (answerPosted q.no 1 [] (addJob (pinCmd true) q (.pin first n)
        (leaveStandby (setPinned sess first n true (postRequest 0x23 q m))))).pte x k =
        (setPinned sess first n true (postRequest 0x23 q m)).pte x k :=
      pte_congr ((answerPosted_stock ..).1.trans halloc)
    obtain ⟨y, hy, hkind, hmb⟩ := hnew
    refine ⟨_, hanswers, fun x k hk hno => (hpte x k).trans (hout x k hk hno), ⟨y, hy.trans ?_, hkind, hmb⟩,
      fun k hlo hhi => (hpte sess k).trans (hin k hlo hhi)⟩
    rw [hjobs, hpages.jobs]
    rfl

/-! ### A command that completes at once (R503) -/

theorem mailbox_answered (code : Nat) (q : Req) (status : Nat) (body : List Byte) (m : Mod) :
    (answered code q status body m).mailbox q.no = answeredBox code q status body (m.mailbox q.no) := by
  unfold answered
  dsimp only
  split
  · rw [mailbox_sendMsix, mailbox_onMailbox]
  · exact mailbox_onMailbox ..

/-- The completion record of a job, and the jobs left. -/
theorem completeJob_record {j : Job} (ho : j.orphan = false) (status : Nat) (body : List Byte) (m : Mod) :
    (completeJob j status body m).jobs = m.jobs.filter (fun x => !(x.mb == j.mb && x.seq == j.seq && x.command == j.command)) ∧
      (completeJob j status body m).mailbox j.mb = { m.mailbox j.mb with
        cCommand := j.command, cStatus := BitVec.ofNat 16 status, cLength := BitVec.ofNat 32 body.length, cTag := j.tag
        cBody := body, cSeq := j.seq } := by
  unfold completeJob
  rw [if_neg (by rw [ho]; exact Bool.false_ne_true)]
  dsimp only
  split
  · refine ⟨?_, (mailbox_sendMsix ..).trans (mailbox_onMailbox ..)⟩
    obtain ⟨h, e⟩ := sendMsix_host j.mb (Mod.onMailbox
      { m with jobs := m.jobs.filter (fun x => !(x.mb == j.mb && x.seq == j.seq && x.command == j.command)) }
      j.mb (fun b => { b with cCommand := j.command, cStatus := BitVec.ofNat 16 status, cLength := BitVec.ofNat 32 body.length
                              cTag := j.tag, cBody := body, cSeq := j.seq }))
    exact congrArg Mod.jobs e
  · exact ⟨rfl, mailbox_onMailbox ..⟩

/-- The job a request began is the one completed, when no earlier job of its mailbox shares its command and sequence. -/
theorem completeNow_completes {q : Req} {c : Cmd} {x : Nat × List Byte} {m : Mod} {l : List Job} {j : Job} (hjobs : m.jobs = l ++ [j])
    (hl : ∀ y ∈ l, (y.mb == q.no && y.command.toNat == c.code && y.seq == (m.mailbox q.no).seq) = false)
    (hj : (j.mb == q.no && j.command.toNat == c.code && j.seq == (m.mailbox q.no).seq) = true) :
    completeNow q c x m = completeJob j x.1 x.2 m := by
  have hfind : m.jobs.find? (fun j => j.mb == q.no && j.command.toNat == c.code && j.seq == (m.mailbox q.no).seq) = some j := by
    rw [hjobs, List.find?_append, List.find?_eq_none.2 fun y hy => by rw [hl y hy]; exact Bool.false_ne_true, Option.none_or]
    exact List.find?_cons_of_pos hj
  unfold completeNow
  rw [hfind]

theorem answered_keeps (code : Nat) (q : Req) (status : Nat) (body : List Byte) (m : Mod) :
    (answered code q status body m).jobs = m.jobs ∧ (answered code q status body m).alloc = m.alloc := by
  unfold answered
  dsimp only
  split
  · obtain ⟨h, e⟩ := sendMsix_host q.no (m.onMailbox q.no (answeredBox code q status body))
    exact ⟨(congrArg Mod.jobs e :), (congrArg Mod.alloc e :)⟩
  · exact ⟨rfl, rfl⟩

/-- The job that a request begins. -/
def begunJob (c : Cmd) (q : Req) (k : JobKind) (m : Mod) : Job :=
  { mb := q.no, session := m.sessId q.no, seq := (m.mailbox q.no).ack + 1, command := BitVec.ofNat 16 c.code, tag := q.tag
    quiet := bit q.flags 0, kind := k }

/-- Beside the mailbox, what a command's work leaves when it begins a job and completes it at once. -/
theorem answerPosted_addJob_posted {c : Cmd} {q : Req} {k : JobKind} {m y : Mod} (hboxes : y.mailboxes = m.mailboxes) :
    answerPosted q.no 1 [] (addJob c q k { y with mailboxes := (postRequest c.code q m).mailboxes }) =
      answered c.code q 1 [] { y with jobs := y.jobs ++ [begunJob c q k y] } := by
  refine answerPosted_posted (m := m) (y := { y with jobs := y.jobs ++ [begunJob c q k y] }) ?_ hboxes
  have hseq : (Mod.mailbox { y with mailboxes := (postRequest c.code q m).mailboxes } q.no).seq = (y.mailbox q.no).ack + 1 := by
    show ((postRequest c.code q m).mailbox q.no).seq = _
    rw [postRequest_eq, mailbox_onMailbox, Mod.mailbox, Mod.mailbox, hboxes]
    rfl
  unfold addJob
  rw [hseq]
  rfl

/-- A request answered ACCEPTED whose job is completed at once: the jobs are as they were, and the mailbox holds answer and record. -/
theorem serves_at_once {i : Instr} {s : State} {q : Req} {c : Cmd} {k : JobKind} {y : Mod} {status : Nat} {body : List Byte}
    (hexec : exec i s = .next { s with m := serveCmd c q (postRequest c.code q s.m) }) (hcheck : c.check q (postRequest c.code q s.m) = 0)
    (hrun : c.run q (postRequest c.code q s.m) =
      { m := { y with mailboxes := (postRequest c.code q s.m).mailboxes }, job := some k, done := some (status, body) })
    (hcode : c.code < 2 ^ 16) (hboxes : y.mailboxes = s.m.mailboxes) (hjobs : y.jobs = s.m.jobs)
    (hnew : ∀ z ∈ s.m.jobs, ¬ (z.mb = q.no ∧ z.command = BitVec.ofNat 16 c.code ∧ z.seq = (s.m.mailbox q.no).ack + 1)) :
    ∃ t, Answers i s t q c.code 1 [] ∧ t.m.alloc = y.alloc ∧ t.m.jobs = s.m.jobs ∧ (t.m.mailbox q.no).cSeq = (s.m.mailbox q.no).ack + 1 ∧
      (t.m.mailbox q.no).cStatus = BitVec.ofNat 16 status ∧ (t.m.mailbox q.no).cTag = q.tag := by
  have hmail : y.mailbox q.no = s.m.mailbox q.no := by rw [Mod.mailbox, Mod.mailbox, hboxes]
  have hcode16 : (BitVec.ofNat 16 c.code).toNat = c.code := by rw [BitVec.toNat_ofNat, Nat.mod_eq_of_lt hcode]
  have hserve : serveCmd c q (postRequest c.code q s.m) =
      completeNow q c (status, body) (answered c.code q 1 [] { y with jobs := y.jobs ++ [begunJob c q k y] }) := by
    rw [serveCmd]
    simp only [hcheck, hrun, ne_eq, not_true_eq_false, if_false]
    rw [answerPosted_addJob_posted hboxes]
  generalize hz : answered c.code q 1 [] { y with jobs := y.jobs ++ [begunJob c q k y] } = z at hserve
  obtain ⟨hzjobs, hzalloc⟩ := answered_keeps c.code q 1 [] { y with jobs := y.jobs ++ [begunJob c q k y] }
  have hzbox := mailbox_answered c.code q 1 [] { y with jobs := y.jobs ++ [begunJob c q k y] }
  rw [hz] at hzjobs hzalloc hzbox
  have hbox : z.mailbox q.no = answeredBox c.code q 1 [] (s.m.mailbox q.no) := by rw [hzbox, ← hmail]; rfl
  have hother : ∀ x ∈ y.jobs, (x.mb == q.no && x.command.toNat == c.code && x.seq == (z.mailbox q.no).seq) = false := by
    intro x hx
    rw [Bool.eq_false_iff, ne_eq, Bool.and_eq_true, Bool.and_eq_true, beq_iff_eq, beq_iff_eq, beq_iff_eq, hbox]
    rintro ⟨⟨hmb, hcmd⟩, hseq⟩
    exact hnew x (hjobs ▸ hx) ⟨hmb, BitVec.eq_of_toNat_eq (hcmd.trans hcode16.symm), hseq⟩
  have hdone := completeNow_completes (x := (status, body)) hzjobs hother (by
    rw [hbox]
    simp only [begunJob, hcode16, hmail, beq_self_eq_true, Bool.true_and]
    exact beq_self_eq_true _)
  obtain ⟨hrjobs, hrbox⟩ := completeJob_record (j := begunJob c q k y) rfl status body z
  have hkept : y.jobs.filter (fun x => !(x.mb == (begunJob c q k y).mb && x.seq == (begunJob c q k y).seq &&
      x.command == (begunJob c q k y).command)) = y.jobs := by
    refine List.filter_eq_self.2 fun x hx => ?_
    rw [Bool.not_eq_true', Bool.eq_false_iff, ne_eq, Bool.and_eq_true, Bool.and_eq_true, beq_iff_eq, beq_iff_eq, beq_iff_eq]
    rintro ⟨⟨hmb, hseq⟩, hcmd⟩
    exact hnew x (hjobs ▸ hx) ⟨hmb, hcmd, hseq.trans (congrArg (fun b : Mailbox => b.ack + 1) hmail)⟩
  refine ⟨{ s with m := completeJob (begunJob c q k y) status body z }, ⟨?_, rfl, ?_⟩, ?_, ?_, ?_⟩
  · rw [hexec, hserve, hdone]
  · dsimp only
    rw [show (completeJob (begunJob c q k y) status body z).mailbox q.no = _ from hrbox, show z.mailbox (begunJob c q k y).mb = _ from hbox]
    exact ⟨rfl, rfl, rfl, rfl, rfl, rfl, rfl, rfl⟩
  · exact (congrArg Mod.alloc (completeJob_only (begunJob c q k y) status body z) :).trans hzalloc
  · refine hrjobs.trans ?_
    rw [hzjobs, List.filter_append, hkept, ← hjobs]
    simp
  · dsimp only
    rw [show (completeJob (begunJob c q k y) status body z).mailbox q.no = _ from hrbox, ← hmail]
    exact ⟨rfl, rfl, rfl⟩

/-- STOCK_PIN with PIN 0: the pages are unpinned, and the command completes. -/
theorem stockUnpin_effect (s : State) (q : Req) :
    let m := s.m
    let sess := m.sessId q.no
    let first := q.fld 0 8 / 2 ^ 21
    let n := q.fld 8 4
    let own : Prop := ∀ k, first ≤ k → k < first + n → pteValid (m.pte sess k) = true
    Allowed m (.stockUnpin q) q → q.body.length = 16 → m.holds q.no 1 = true → q.byte 12 = 0 →
      (q.fld 0 8 % 2 ^ 21 = 0 ∧ first + n ≤ 2 ^ 27) → m.long q.no = false → own →
      (∀ y ∈ m.jobs, ¬ (y.mb = q.no ∧ y.command = 0x23 ∧ y.seq = (m.mailbox q.no).ack + 1)) →
      ∃ t, Answers (.stockUnpin q) s t q 0x23 1 [] ∧ Elsewhere m t.m sess first n ∧ t.m.jobs = m.jobs ∧
        (t.m.mailbox q.no).cSeq = (m.mailbox q.no).ack + 1 ∧ (t.m.mailbox q.no).cStatus = 0 ∧ (t.m.mailbox q.no).cTag = q.tag ∧
        ∀ k, first ≤ k → k < first + n → t.m.pte sess k = put (m.pte sess k) 60 60 0 := by
  intro m sess first n own ha hsize hstock hpin hrange hlong hown hnew
  have hlength := pin_lengthOk (on := false) hsize hpin hrange (postRequest 0x23 q m)
  obtain ⟨hpages, hout, hin⟩ := setPinned_pins (sess := sess) hrange.2 false (postRequest 0x23 q m)
  obtain ⟨st, al, heq⟩ := hpages
  have hrun : (pinCmd false).run q (postRequest 0x23 q m) =
      { m := { { m with stock := st, alloc := al } with mailboxes := (postRequest 0x23 q m).mailboxes }, job := some (.pin first n)
        done := some (0, []) } := by
    refine (if_neg ?_).trans ((if_neg Bool.false_ne_true).trans ?_)
    · exact fun g => Bool.false_ne_true ((congrArg (! ·) (ownPages_iff.2 hown)).symm.trans g)
    · exact congrArg (fun t => ({ m := t, job := some (.pin first n), done := some (0, []) } : Ans)) heq
  obtain ⟨hcheck, hexec⟩ := exec_serves (c := pinCmd false) ha rfl rfl rfl rfl hlength hstock (.inr hlong)
  obtain ⟨t, hans, halloc, hjobs, hseq, hstatus, htag⟩ := serves_at_once (c := pinCmd false) hexec hcheck hrun (by decide) rfl rfl hnew
  have hpte : ∀ x k, t.m.pte x k = (setPinned sess first n false (postRequest 0x23 q m)).pte x k :=
    pte_congr (halloc.trans (congrArg Mod.alloc heq).symm)
  exact ⟨t, hans, fun x k hk hno => (hpte x k).trans (hout x k hk hno), hjobs, hseq, hstatus, htag,
    fun k hlo hhi => (hpte sess k).trans (hin k hlo hhi)⟩

/-! ### STOCK_PIN_DONE (R327; log 43) -/

/-- A long-running STOCK_PIN. -/
def isPin : JobKind → Bool
  | .pin .. => true
  | _ => false

theorem exec_stockPinDone (mb : Fin 31) (s : State) : exec (.stockPinDone mb) s = .next { s with m := pinDone mb.val s.m } := rfl

theorem evictOne_jobs (dev : Option Nat) (m : Mod) : (evictOne dev m).jobs = m.jobs := by
  have hout : ∀ p a, (pageOut p a m).jobs = m.jobs := fun _ _ => by rw [pageOut]
  unfold evictOne
  split
  · rfl
  · next x _ =>
    extract_lets sess t
    have ht : t.jobs = m.jobs := by
      show (if pteDirty x.2 then _ else m : Mod).jobs = m.jobs
      split
      · split
        · exact hout ..
        · rfl
      · rfl
    exact ht

theorem makeResident_jobs (sess page : Nat) (m : Mod) : (makeResident sess page m).jobs = m.jobs := by
  unfold makeResident
  extract_lets e t
  split
  · rfl
  · have ht : t.jobs = m.jobs := by
      show (if (pageFor m e).isSome then m else evictOne _ m).jobs = m.jobs
      split
      · rfl
      · exact evictOne_jobs ..
    split
    · next p a _ _ =>
      obtain ⟨v, hv⟩ := pageIn_memOnly p a t
      rw [hv]
      exact ht
    · exact ht

theorem makeResident_resident {sess page : Nat} {m : Mod} (h : pteResident (m.pte sess page) = true) : makeResident sess page m = m :=
  if_pos (by rw [h, Bool.or_true, Bool.true_or])

/-- Pages made resident one after another. -/
def makeResidents (sess : Nat) (l : List Nat) (m : Mod) : Mod := l.foldl (fun m p => makeResident sess p m) m

theorem makeResidents_jobs (sess : Nat) (l : List Nat) (m : Mod) : (makeResidents sess l m).jobs = m.jobs :=
  foldl_keeps (R := fun a b : Mod => b.jobs = a.jobs) (f := fun m p => makeResident sess p m) (fun _ => rfl) (fun _ _ _ h g => g.trans h)
    (fun m p => makeResident_jobs sess p m) l m

theorem makeResidents_resident {sess : Nat} {l : List Nat} {m : Mod} (h : ∀ p ∈ l, pteResident (m.pte sess p) = true) :
    makeResidents sess l m = m := by
  induction l with
  | nil => rfl
  | cons p l ih =>
    obtain ⟨hp, hl⟩ := List.forall_mem_cons.1 h
    rw [makeResidents, List.foldl_cons, makeResident_resident hp]
    exact ih hl

/-- How a pin ends: with E_STOCK when one of its pages is not resident. -/
def pinStatus (sess first n : Nat) (m : Mod) : Nat :=
  if (pageRange first n).all (fun p => pteResident (m.pte sess p)) then 0 else eStock

theorem pinStatus_eq {sess first n : Nat} {m t : Mod} (h : t.alloc = m.alloc) : BitVec.ofNat 16 (pinStatus sess first n m) =
    if ∀ k ∈ List.range' first n, pteResident (t.pte sess k) = true then 0 else 0x10B := by
  have hiff : (pageRange first n).all (fun p => pteResident (m.pte sess p)) = true ↔
      ∀ k ∈ List.range' first n, pteResident (t.pte sess k) = true := by
    simp only [pte_congr h]
    exact List.all_eq_true
  unfold pinStatus
  by_cases hall : ∀ k ∈ List.range' first n, pteResident (t.pte sess k) = true
  · rw [if_pos (hiff.2 hall), if_pos hall]
    rfl
  · rw [if_neg (mt hiff.1 hall), if_neg hall]
    rfl

theorem pinDone_completes {m : Mod} {mb : Nat} {j : Job} {first n : Nat} (hj : Outstanding m mb isPin j) (hk : j.kind = .pin first n) :
    pinDone mb m = (let t := makeResidents j.session (pageRange first n) m
      completeJob j (pinStatus j.session first n t) [] t) := by
  unfold pinDone
  split
  · next h => exact nomatch hj.symm.trans h
  · next j' h =>
    cases Option.some.inj (hj.symm.trans h)
    rw [hk]
    rfl

/-- A completed job is no longer outstanding. -/
theorem completeJob_left (j : Job) (status : Nat) (body : List Byte) (m : Mod) :
    (completeJob j status body m).jobs = m.jobs.filter (fun x => !(x.mb == j.mb && x.seq == j.seq && x.command == j.command)) := by
  cases ho : j.orphan with
  | true =>
    unfold completeJob
    rw [ho]
    rfl
  | false => exact (completeJob_record ho status body m).1

theorem completeJob_stock (j : Job) (status : Nat) (body : List Byte) (m : Mod) :
    (completeJob j status body m).alloc = m.alloc ∧ (completeJob j status body m).stock = m.stock := by
  obtain ⟨_, _, _, h⟩ := completeJob_jobs j status body m
  exact ⟨(congrArg Mod.alloc h :), (congrArg Mod.stock h :)⟩

theorem stockPinDone_effect (s : State) (mb : Fin 31) (j : Job) (first n : Nat) (hj : Outstanding s.m mb isPin j) (hk : j.kind = .pin first n) :
    ∃ t, exec (.stockPinDone mb) s = .next t ∧
      t.m.jobs = s.m.jobs.filter (fun x => !(x.mb == j.mb && x.seq == j.seq && x.command == j.command)) ∧
      (j.orphan = false → (t.m.mailbox j.mb).cSeq = j.seq ∧ (t.m.mailbox j.mb).cStatus =
        (if ∀ k ∈ List.range' first n, pteResident (t.m.pte j.session k) = true then 0 else 0x10B)) ∧
      ((∀ k ∈ List.range' first n, pteResident (s.m.pte j.session k) = true) → t.m.alloc = s.m.alloc ∧ t.m.stock = s.m.stock) := by
  refine ⟨_, exec_stockPinDone mb s, ?_⟩
  dsimp only
  rw [pinDone_completes hj hk]
  generalize hy : makeResidents j.session (pageRange first n) s.m = y
  dsimp only
  obtain ⟨halloc, hstock⟩ := completeJob_stock j (pinStatus j.session first n y) [] y
  refine ⟨?_, fun ho => ?_, fun hall => ?_⟩
  · rw [completeJob_left, ← hy, makeResidents_jobs]
  · rw [← pinStatus_eq halloc, (completeJob_record ho _ [] y).2]
    exact ⟨rfl, rfl⟩
  · have hsame : y = s.m := hy.symm.trans (makeResidents_resident hall)
    exact ⟨halloc.trans (congrArg Mod.alloc hsame), hstock.trans (congrArg Mod.stock hsame)⟩

end Sys2Proof.Proofs
end

section
/-!
PROOFS. STOCK_FILL: the bytes of rows, and the rows of a fill written in ascending address (R321, R517, Table 14.10).
-/

namespace Sys2Proof.Proofs

open Sys2Proof Sys2Proof.Machine Sys2Proof.Laws

/-! ### Bytes of words -/

theorem elem_ofNat {n v i : Nat} (h : 8 * i + 8 ≤ n) : elem 8 (BitVec.ofNat n v) i = BitVec.ofNat 8 (v / 256 ^ i) := by
  refine BitVec.eq_of_getLsbD_eq fun k hk => ?_
  rw [elem, BitVec.getLsbD_extractLsb', BitVec.getLsbD_ofNat, BitVec.getLsbD_ofNat, show 256 ^ i = 2 ^ (8 * i) from (pow_mul 2 8 i).symm,
    Nat.testBit_div_two_pow]
  simp only [hk, decide_true, Bool.true_and, show 8 * i + k < n by omega]
  rw [Nat.add_comm]

theorem leNat_byte (bs : List Byte) (i : Nat) : BitVec.ofNat 8 (leNat bs / 256 ^ i) = bs.getD i 0 := by
  induction bs generalizing i with
  | nil =>
    rw [leNat, Nat.zero_div]
    rfl
  | cons b bs ih =>
    cases i with
    | zero =>
      refine BitVec.eq_of_toNat_eq ?_
      rw [pow_zero, Nat.div_one, leNat, BitVec.toNat_ofNat, List.getD_cons_zero]
      have := b.isLt
      omega
    | succ i =>
      rw [List.getD_cons_succ, ← ih i, pow_succ', ← Nat.div_div_eq_div_mul, leNat]
      have := b.isLt
      rw [show (b.toNat + 256 * leNat bs) / 256 = leNat bs by omega]

/-- A byte of a word spelled by bytes is that byte. -/
theorem elem_wordOf {n i : Nat} (bs : List Byte) (h : 8 * i + 8 ≤ n) : elem 8 (wordOf n bs) i = bs.getD i 0 :=
  (elem_ofNat h).trans (leNat_byte bs i)

/-- A byte of a word is a byte of its 64-bit element. -/
theorem elem_elem {n : Nat} (x : BitVec n) (a : Nat) {b : Nat} (hb : b < 8) : elem 8 (elem 64 x a) b = elem 8 x (8 * a + b) := by
  refine BitVec.eq_of_getLsbD_eq fun k hk => ?_
  simp only [elem, BitVec.getLsbD_extractLsb', hk, decide_true, Bool.true_and, show 8 * b + k < 64 by omega]
  rw [show 64 * a + (8 * b + k) = 8 * (8 * a + b) + k by omega]

/-- A byte inside a field that a word replaces is the word's. -/
theorem elem_put_inside {n w lo i : Nat} (x : BitVec n) (r : BitVec w) (hn : lo + w ≤ n) (hi : 8 * i + 8 ≤ w) (hlo : lo % 8 = 0) :
    elem 8 (put x (lo + w - 1) lo r.toNat) (lo / 8 + i) = elem 8 r i := by
  have hfield : sel (put x (lo + w - 1) lo r.toNat) (lo + w - 1) lo = r.toNat := by
    rw [sel_put_same _ _ _ _ (by omega) (by omega), show lo + w - 1 + 1 - lo = w by omega, Nat.mod_eq_of_lt r.isLt]
  refine BitVec.eq_of_getLsbD_eq fun k hk => ?_
  simp only [elem, BitVec.getLsbD_extractLsb', hk, decide_true, Bool.true_and]
  have hbit := congrArg (fun v => Nat.testBit v (8 * i + k)) hfield
  simp only [sel, Nat.testBit_mod_two_pow, Nat.testBit_shiftRight, show 8 * i + k < lo + w - 1 + 1 - lo by omega, decide_true,
    Bool.true_and] at hbit
  rw [show 8 * (lo / 8 + i) + k = lo + (8 * i + k) by omega]
  exact hbit

/-- A byte apart from a replaced field is kept. -/
theorem elem_put_apart {n hi lo v i : Nat} (x : BitVec n) (h : lo ≤ hi) (hn : hi < n) (hd : 8 * i + 7 < lo ∨ hi < 8 * i) :
    elem 8 (put x hi lo v) i = elem 8 x i := by
  rw [elem_eq_sel, elem_eq_sel, sel_put_other _ _ _ _ _ _ h hn (by omega) hd]

/-- The bytes of a chunk with a row replaced. -/
theorem elem_setChunkRow (v : Vec) (sa : Nat) (r : Row) {i : Nat} (hi : i < 1024) :
    elem 8 (setChunkRow v sa r) i = if i / 512 = sa % 1024 / 512 then elem 8 r (i % 512) else elem 8 v i := by
  unfold setChunkRow
  by_cases hlow : sa % 1024 / 512 = 0
  · rw [if_pos hlow, hlow]
    split
    · next h =>
      have hin := elem_put_inside (lo := 0) (i := i) v r (by omega) (by omega) rfl
      rw [show 0 / 8 + i = i by omega] at hin
      rw [show i % 512 = i by omega]
      exact hin
    · exact elem_put_apart v (by omega) (by omega) (by omega)
  · rw [if_neg hlow, show sa % 1024 / 512 = 1 by omega]
    split
    · next h =>
      have hin := elem_put_inside (lo := 4096) (i := i - 512) v r (by omega) (by omega) rfl
      rw [show 4096 / 8 + (i - 512) = i by omega] at hin
      rw [show i % 512 = i - 512 by omega]
      exact hin
    · exact elem_put_apart v (by omega) (by omega) (by omega)

/-! ### The rows of a fill (Table 14.10) -/

/-- The byte a fill writes at an offset. -/
def fillByte (h : HostSide) (fromHost : Bool) (source : W64) (o : Nat) : Byte :=
  if fromHost then h.mem.get (source.toNat + o) else elem 8 source (o % 8)

theorem elem_fillRow (m : Mod) (fromHost : Bool) (source : W64) {done i : Nat} (hi : i < 512) (hdone : done % 512 = 0) :
    elem 8 (fillRow m fromHost source done) i = fillByte m.host fromHost source (done + i) := by
  cases fromHost with
  | true =>
    refine (elem_wordOf _ (by omega)).trans ?_
    rw [Mem.bytes, List.getD_eq_getElem?_getD, List.getElem?_map, List.getElem?_range hi]
    exact congrArg m.host.mem.get (Nat.add_assoc ..)
  | false =>
    have hword : elem 64 (fillRow m false source done) (i / 8) = source := elem_packNat 64 (fun _ => source) 64 (i / 8) (by omega) (by omega)
    have hbyte := elem_elem (fillRow m false source done) (i / 8) (b := i % 8) (by omega)
    rw [hword, show 8 * (i / 8) + i % 8 = i by omega] at hbyte
    rw [← hbyte]
    show _ = elem 8 source ((done + i) % 8)
    rw [show (done + i) % 8 = i % 8 by omega]

/-- A page that a fill can write at once. -/
def Fillable (e : W64) : Prop := pteValid e = true ∧ pteWritable e = true ∧ pteResident e = true

/-- The pages that a fill spans lie apart in stock. -/
def PagesApart (m : Mod) (sess sa bytes : Nat) : Prop :=
  ∀ a b, sa / 2 ^ 21 ≤ a → sa / 2 ^ 21 ≤ b → a < b → b * 2 ^ 21 < sa + bytes → ∀ x < 2048, ∀ y < 2048,
    pageChunk (ptePage (m.pte sess a)) x ≠ pageChunk (ptePage (m.pte sess b)) y

theorem bit_touched (e : W64) (write : Bool) {i : Nat} (hi : 58 < i) (hi' : i < 64) : bit (touched e write) i = bit e i := by
  cases write
  · rw [touched_read, bit_put_other _ _ _ _ _ (by omega) (by omega) (by omega)]
  · rw [touched_write, bit_put_other _ _ _ _ _ (by omega) (by omega) (by omega), bit_put_other _ _ _ _ _ (by omega) (by omega) (by omega)]

section
variable {m : Mod} {sess sa bytes done : Nat}

theorem fillAt_complete (h : bytes ≤ done) : fillAt m sess sa bytes done = .complete := if_pos h

theorem fillAt_row (hd : done < bytes) (h : Fillable (m.pte sess ((sa + done) / 2 ^ 21))) :
    fillAt m sess sa bytes done = .row (sa + done) := by
  obtain ⟨hvalid, hwritable, hresident⟩ := h
  simp only [fillAt, if_neg (not_le.2 hd), hvalid, hwritable, hresident, Bool.not_true, Bool.or_false, Bool.false_eq_true, if_false]

theorem fillAt_stopped (hd : done < bytes) (h : pteValid (m.pte sess ((sa + done) / 2 ^ 21)) = false ∨
    pteWritable (m.pte sess ((sa + done) / 2 ^ 21)) = false) : fillAt m sess sa bytes done = .stopped := by
  unfold fillAt
  rw [if_neg (not_le.2 hd)]
  refine if_pos ?_
  rw [Bool.or_eq_true, Bool.not_eq_true', Bool.not_eq_true']
  exact h

variable {fromHost : Bool} {source : W64} {n : Nat}

theorem fillRows_row {a : Nat} (h : fillAt m sess sa bytes done = .row a) : fillRows sess sa bytes fromHost source (n + 1) done m =
    fillRows sess sa bytes fromHost source n (done + 512) (fillOne sess sa fromHost source done m) := by
  rw [fillRows, h]

theorem fillRows_stopped (h : fillAt m sess sa bytes done = .stopped) : fillRows sess sa bytes fromHost source n done m = (m, done) := by
  cases n with
  | zero => rfl
  | succ n => rw [fillRows, h]

end

section
variable (sess sa : Nat) (fromHost : Bool) (source : W64) (done : Nat) (m : Mod)

theorem pagesOnly_fillOne : PagesOnly m (fillOne sess sa fromHost source done m) := ⟨_, _, rfl⟩

/-- A row written marks its page's entry, and keeps what the entries name and allow. -/
theorem pte_fillOne (x k : Nat) : (fillOne sess sa fromHost source done m).pte x k = m.pte x k ∨
    (fillOne sess sa fromHost source done m).pte x k = touched (m.pte x k) true := by
  unfold fillOne
  dsimp only
  rw [pte_touchPage]
  split
  · next h =>
    refine .inr (congrArg (touched · true) ?_)
    exact congrArg (fun k => Tab.get m.alloc.pt k 0) h.symm
  · exact .inl rfl

theorem fillable_fillOne {x k : Nat} (h : Fillable (m.pte x k)) : Fillable ((fillOne sess sa fromHost source done m).pte x k) := by
  obtain h' | h' := pte_fillOne sess sa fromHost source done m x k
  · rw [h']
    exact h
  · rw [h', Fillable, pteValid, pteWritable, pteResident, bit_touched _ _ (by omega) (by omega), bit_touched _ _ (by omega) (by omega),
      bit_touched _ _ (by omega) (by omega)]
    exact h

theorem ptePage_fillOne (x k : Nat) : ptePage ((fillOne sess sa fromHost source done m).pte x k) = ptePage (m.pte x k) := by
  obtain h | h := pte_fillOne sess sa fromHost source done m x k
  · rw [h]
  · rw [h, ptePage_touched]

theorem pagesApart_fillOne {bytes : Nat} (h : PagesApart m sess sa bytes) :
    PagesApart (fillOne sess sa fromHost source done m) sess sa bytes := by
  intro a b
  rw [ptePage_fillOne, ptePage_fillOne]
  exact h a b

end

/-- Addresses of a fill lie in one chunk only when they share a KiB. -/
theorem saChunk_apart {m : Mod} {sess sa bytes : Nat} (hapart : PagesApart m sess sa bytes) {o d : Nat} (ho : o < bytes) (hd : d < bytes)
    (h : saChunk (m.pte sess ((sa + o) / 2 ^ 21)) (sa + o) = saChunk (m.pte sess ((sa + d) / 2 ^ 21)) (sa + d)) :
    (sa + o) / 1024 = (sa + d) / 1024 := by
  unfold saChunk at h
  obtain hlt | heq | hgt := Nat.lt_trichotomy ((sa + o) / 2 ^ 21) ((sa + d) / 2 ^ 21)
  · exact absurd h (hapart _ _ (by omega) (by omega) hlt (by omega) _ (by omega) _ (by omega))
  · rw [heq] at h
    have := pageChunk_inj h
    omega
  · exact absurd h.symm (hapart _ _ (by omega) (by omega) hgt (by omega) _ (by omega) _ (by omega))

/-- A row of a fill changes its own 512 bytes of the fill's range. -/
theorem stockByte_fillOne {m : Mod} {sess sa bytes done o : Nat} (fromHost : Bool) (source : W64) (hapart : PagesApart m sess sa bytes)
    (hsa : sa % 512 = 0) (hdone : done % 512 = 0) (hd : done < bytes) (ho : o < bytes) :
    (fillOne sess sa fromHost source done m).stockByte sess (sa + o) =
      if done ≤ o ∧ o < done + 512 then fillByte m.host fromHost source o else m.stockByte sess (sa + o) := by
  unfold fillOne
  dsimp only
  rw [stockByte_touchPage]
  generalize hk : saChunk (m.pte sess ((sa + done) / 2 ^ 21)) (sa + done) = k
  show elem 8 ((m.setChunk k _).stock.mem.get (saChunk (m.pte sess ((sa + o) / 2 ^ 21)) (sa + o))) ((sa + o) % 1024) = _
  rw [mem_setChunk]
  by_cases hsame : saChunk (m.pte sess ((sa + o) / 2 ^ 21)) (sa + o) = k
  · have hkib := saChunk_apart hapart ho hd (hsame.trans hk.symm)
    rw [if_pos hsame, elem_setChunkRow _ _ _ (by omega)]
    by_cases hrow : (sa + o) % 1024 / 512 = (sa + done) % 1024 / 512
    · rw [if_pos hrow, if_pos (by omega), elem_fillRow _ _ _ (by omega) hdone, show done + (sa + o) % 1024 % 512 = o by omega]
    · rw [if_neg hrow, if_neg (by omega), ← hsame]
      rfl
  · have hother : ¬ (done ≤ o ∧ o < done + 512) := by
      intro hin
      refine hsame (Eq.trans ?_ hk)
      unfold saChunk
      rw [show (sa + o) / 2 ^ 21 = (sa + done) / 2 ^ 21 by omega, show (sa + o) % 2 ^ 21 / 1024 = (sa + done) % 2 ^ 21 / 1024 by omega]
    rw [if_neg hsame, if_neg hother]
    rfl

/-- A fill whose pages are all at hand writes its rows to its end. -/
theorem fillRows_writes {sess sa bytes : Nat} (fromHost : Bool) (source : W64) (hsa : sa % 512 = 0) (n : Nat) {done : Nat} {m : Mod}
    (hn : done + 512 * n = bytes) (hdone : done % 512 = 0)
    (hpages : ∀ o < bytes, done ≤ o → Fillable (m.pte sess ((sa + o) / 2 ^ 21))) (hapart : PagesApart m sess sa bytes) :
    ∃ t, fillRows sess sa bytes fromHost source n done m = (t, bytes) ∧ PagesOnly m t ∧
      ∀ o < bytes, t.stockByte sess (sa + o) = if done ≤ o then fillByte m.host fromHost source o else m.stockByte sess (sa + o) := by
  induction n generalizing done m with
  | zero =>
    refine ⟨m, by rw [fillRows, show done = bytes by omega], .refl m, fun o ho => (if_neg (by omega)).symm⟩
  | succ n ih =>
    have hd : done < bytes := by omega
    obtain ⟨t, ht, honly, hbytes⟩ := ih (done := done + 512) (m := fillOne sess sa fromHost source done m) (by omega) (by omega)
      (fun o ho hlo => fillable_fillOne _ _ _ _ _ _ (hpages o ho (by omega))) (pagesApart_fillOne _ _ _ _ _ _ hapart)
    refine ⟨t, (fillRows_row (fillAt_row hd (hpages done hd le_rfl))).trans ht, .trans _ _ _ (pagesOnly_fillOne ..) honly, fun o ho => ?_⟩
    rw [hbytes o ho, stockByte_fillOne fromHost source hapart hsa hdone hd ho]
    have hhost : (fillOne sess sa fromHost source done m).host = m.host := rfl
    rw [hhost]
    by_cases hlo : done + 512 ≤ o
    · rw [if_pos hlo, if_pos (by omega)]
    · rw [if_neg hlo]
      exact if_congr (by omega) rfl rfl

end Sys2Proof.Proofs
end

section
/-!
PROOFS. STOCK_FILL, its end and WHEEL_SET, and the stock commands together (R318, R321, R322, R517 to R519, Table 14.10).
-/

namespace Sys2Proof.Proofs

open Sys2Proof Sys2Proof.Machine Sys2Proof.Laws

/-! ### STOCK_FILL (R503) -/

theorem stockFill_begins {s : State} {q : Req} (ha : Allowed s.m (.stockFill q) q) (hsize : q.body.length = 32)
    (hstock : s.m.holds q.no 1 = true) (hsa : q.fld 0 8 % 512 = 0) (hbytes : q.fld 8 8 % 512 = 0) (hfit : q.fld 0 8 + q.fld 8 8 ≤ 2 ^ 48)
    (hlong : s.m.long q.no = false) (hstate : s.m.aon.state ≠ .standby) :
    Begun (.stockFill q) s q 0x24 (.fill (q.fld 0 8) (q.fld 8 8) 0 (q.fld 16 2 % 2 == 1) (BitVec.ofNat 64 (q.fld 24 8))) s.m := by
  have hfree : leaveStandby (postRequest 0x24 q s.m) = postRequest 0x24 q s.m := if_neg hstate
  refine long_begun (c := stockFillCmd) ha rfl rfl rfl rfl ?_ hstock (.inr hlong) rfl ?_ rfl rfl
  · show (q.size 0x20 && q.fld 0 8 % 512 == 0 && q.fld 8 8 % 512 == 0 && decide (q.fld 0 8 + q.fld 8 8 ≤ 2 ^ 48)) = true
    rw [size_eq hsize rfl, hsa, hbytes, decide_eq_true hfit]
    rfl
  · show stockFillRun q (postRequest 0x24 q s.m) = _
    rw [stockFillRun, hfree]
    rfl

/-! ### STOCK_FILL_DONE -/

/-- A long-running STOCK_FILL. -/
def isFill : JobKind → Bool
  | .fill .. => true
  | _ => false

theorem exec_stockFillDone (mb : Fin 31) (s : State) : exec (.stockFillDone mb) s = .next { s with m := fillDone mb.val s.m } := rfl

/-- How a fill ends, once its rows are written up to where it stops. -/
theorem fillDone_ends {m : Mod} {mb sa bytes done : Nat} {j : Job} {fromHost : Bool} {source : W64} (hj : Outstanding m mb isFill j)
    (hk : j.kind = .fill sa bytes done fromHost source) {t : Mod} {d : Nat}
    (hrows : fillRows j.session sa bytes fromHost source ((bytes - done) / 512) done m = (t, d)) :
    (fillAt t j.session sa bytes d = .complete → fillDone mb m = completeJob j 0 (le 8 d) t) ∧
      (fillAt t j.session sa bytes d = .stopped → fillDone mb m = completeJob j eStock (le 8 d) t) := by
  constructor
  all_goals
    intro h
    unfold fillDone
    split
    · next hnone => exact nomatch hj.symm.trans hnone
    · next j' hsome =>
      cases Option.some.inj (hj.symm.trans hsome)
      rw [hk]
      dsimp only
      rw [hrows]
      dsimp only
      rw [h]

section
variable {s : State} {mb : Fin 31} {j : Job} {sa bytes done : Nat} {fromHost : Bool} {source : W64}
variable (hj : Outstanding s.m mb isFill j) (hk : j.kind = .fill sa bytes done fromHost source)
include hj hk

theorem stockFillDone_completes (hsa : sa % 512 = 0) (hbytes : bytes % 512 = 0) (hdone : done % 512 = 0) (hle : done ≤ bytes)
    (hpages : ∀ o < bytes, done ≤ o → Fillable (s.m.pte j.session ((sa + o) / 2 ^ 21))) (hapart : PagesApart s.m j.session sa bytes) :
    ∃ t, Ends (.stockFillDone mb) s t j 0 (le 8 bytes) ∧ ∀ o < bytes, done ≤ o →
      t.m.stockByte j.session (sa + o) = fillByte s.m.host fromHost source o := by
  obtain ⟨t, hrows, honly, hwritten⟩ := fillRows_writes fromHost source hsa ((bytes - done) / 512) (by omega) hdone hpages hapart
  have hend := (fillDone_ends hj hk hrows).1 (fillAt_complete le_rfl)
  obtain ⟨halloc, hstock⟩ := completeJob_stock j 0 (le 8 bytes) t
  refine ⟨{ s with m := completeJob j 0 (le 8 bytes) t }, completeJob_ends ?_ honly.jobs honly.mailboxes, fun o ho hlo => ?_⟩
  · rw [exec_stockFillDone, hend]
  · exact (stockByte_congr halloc hstock ..).trans ((hwritten o ho).trans (if_pos hlo))

theorem stockFillDone_stops (hd : done < bytes) (h : pteValid (s.m.pte j.session ((sa + done) / 2 ^ 21)) = false ∨
    pteWritable (s.m.pte j.session ((sa + done) / 2 ^ 21)) = false) :
    ∃ t, Ends (.stockFillDone mb) s t j 0x10B (le 8 done) ∧ t.m.stock = s.m.stock := by
  have hend := (fillDone_ends hj hk (fillRows_stopped (fillAt_stopped hd h))).2 (fillAt_stopped hd h)
  refine ⟨{ s with m := completeJob j 0x10B (le 8 done) s.m }, completeJob_ends ?_ rfl rfl, (completeJob_stock ..).2⟩
  rw [exec_stockFillDone, hend]
  rfl

end

/-! ### WHEEL_SET (R318, R322) -/

/-- The change log's entry does not depend on the mailboxes. -/
theorem logChange_posted (cmd sess item target : Nat) (failed : Bool) (old new : Nat) (m : Mod) (b : Tab Mailbox) :
    logChange cmd sess item target failed old new { m with mailboxes := b } =
      { logChange cmd sess item target failed old new m with mailboxes := b } := by
  simp only [logChange]

theorem wheelSetRun_stages {q : Req} {m : Mod} (h : m.aon.inFlight = false) : wheelSetRun q m =
    { m := logChange 0x0025 (m.sessId q.no) (q.byte 0) 0 false (wheelWord m.stock.wheel) (wheelWord (wheelEntries q))
        { m with settings := { m.settings with stagedWheel := some (wheelEntries q) } } } := by
  simp only [wheelSetRun, h, Bool.false_eq_true, if_false]

section
variable {s : State} {q : Req} (ha : Allowed s.m (.wheelSet q) q) (hlo : 1 ≤ q.byte 0) (hhi : q.byte 0 ≤ 64)
variable (hsize : q.body.length = (8 + q.byte 0 + 3) / 4 * 4) (hregions : ∀ r ∈ wheelEntries q, r < 25)
include hlo hhi hsize hregions

theorem wheelSet_lengthOk (m : Mod) : wheelSetCmd.lengthOk m q = true := by
  show (decide (1 ≤ q.byte 0) && decide (q.byte 0 ≤ 64) && q.size (8 + q.byte 0) && (wheelEntries q).all (fun r => decide (r < 25))) = true
  rw [decide_eq_true hlo, decide_eq_true hhi, size_eq hsize rfl, Bool.and_self, Bool.true_and]
  exact List.all_eq_true.2 fun r hr => decide_eq_true (hregions r hr)

include ha

theorem wheelSet_busy (h : s.m.aon.inFlight = true) : Served (.wheelSet q) s q 0x25 0x10E [] s.m :=
  short_served (c := wheelSetCmd) ha rfl rfl rfl rfl rfl (wheelSet_lengthOk hlo hhi hsize hregions _) rfl (.inl rfl) (if_pos h) rfl

theorem wheelSet_stages (h : s.m.aon.inFlight = false) : Served (.wheelSet q) s q 0x25 0 [] (logChange 0x0025 (s.m.sessId q.no) (q.byte 0) 0 false
    (wheelWord s.m.stock.wheel) (wheelWord (wheelEntries q))
    { s.m with settings := { s.m.settings with stagedWheel := some (wheelEntries q) } }) := by
  refine short_served (c := wheelSetCmd) ha rfl rfl rfl rfl rfl (wheelSet_lengthOk hlo hhi hsize hregions _) rfl (.inl rfl) ?_ rfl
  refine (wheelSetRun_stages (m := postRequest 0x25 q s.m) h).trans ?_
  exact congrArg (fun t => ({ m := t } : Ans)) (logChange_posted 0x0025 (s.m.sessId q.no) (q.byte 0) 0 false (wheelWord s.m.stock.wheel)
    (wheelWord (wheelEntries q)) { s.m with settings := { s.m.settings with stagedWheel := some (wheelEntries q) } }
    (postRequest 0x25 q s.m).mailboxes)

end

/-- Settles O51: every stock command and its end; log 16 says which pages an allocation takes, log 43 how a pin ends. -/
theorem stockCommandsTakeEffect : Obligations.StockCommandsTakeEffect := by
  intro s q mb j m sess size page first n range own elsewhere
  refine ⟨fun at_ ps => stockAlloc_effect s q at_ ps, stockFree_effect s q, stockMapHost_effect s q, stockPin_effect s q, stockUnpin_effect s q,
    fun first n hj hk => stockPinDone_effect s mb j first n hj hk, fun ha hsize => stockFill_begins ha hsize, ?_, ?_⟩
  · intro sa bytes done fromHost src hj hk hsa hbytes hdone hle hfit e
    exact ⟨stockFillDone_completes hj hk hsa hbytes hdone hle, stockFillDone_stops hj hk⟩
  · intro w ha hlo hhi hsize hregions
    exact ⟨wheelSet_busy ha hlo hhi hsize hregions, wheelSet_stages ha hlo hhi hsize hregions⟩

end Sys2Proof.Proofs
end
